-- ==== Sys2Proof/Word.lean ====
section
/-! DEFINITION. The machine's words: the widths the manual gives its registers and memory. -/

namespace Sys2Proof

/-- A scalar or address register (R51). -/
abbrev Word := BitVec 64

/-- The smallest addressable unit of memory. -/
abbrev Byte := BitVec 8

/-- A vector register, a queue entry or a report (R51, R55). -/
abbrev Vec := BitVec 1024

/-- A predicate register (R51). -/
abbrev Pred := BitVec 128

/-- A 64-byte sector, the unit of single-copy atomicity and of cache state (R112, R122). -/
abbrev Sector := BitVec 512

end Sys2Proof
end

