-- ==== Sys2Proof/Machine/Bits.lean ====
section
/-! DEFINITION. Bit fields, sign extension and byte order (R4, R5, R10), and the sparse table in which the state
holds every numbered collection. -/

namespace Sys2Proof

/-- `fld w lo n`: the `n`-bit field of `w` whose lowest bit is `lo` (`x[lo+n-1:lo]` of R10). -/
def fld (w lo n : Nat) : Nat := w / 2 ^ lo % 2 ^ n

/-- `w` with the `n`-bit field at `lo` replaced by the low `n` bits of `v`. -/
def setFld (w lo n v : Nat) : Nat := w - fld w lo n * 2 ^ lo + v % 2 ^ n * 2 ^ lo

/-- Bit `i` of `w`. -/
def bitAt (w i : Nat) : Bool := w / 2 ^ i % 2 == 1

/-- The two's-complement value of the low `n` bits of `w` (R10). -/
def sgn (n w : Nat) : Int :=
  let v := w % 2 ^ n
  if v < 2 ^ (n - 1) then (v : Int) else (v : Int) - (2 ^ n : Nat)

/-- The `n`-bit pattern of an integer, reduced modulo `2^n`. -/
def wrap (n : Nat) (v : Int) : Nat := (v % ((2 ^ n : Nat) : Int)).toNat

/-- A 64-bit word from a natural number. -/
def w64 (n : Nat) : Word := BitVec.ofNat 64 n

/-- The little-endian number of a list of bytes (R4). -/
def ofBytes : List Byte → Nat
  | [] => 0
  | b :: bs => b.toNat + 256 * ofBytes bs

/-- The `n` bytes of a number, little-endian (R4). -/
def toBytes : Nat → Nat → List Byte
  | 0, _ => []
  | n + 1, v => BitVec.ofNat 8 v :: toBytes n (v / 256)

/-- Ceiling division. -/
def cdiv (a b : Nat) : Nat := (a + b - 1) / b

/-- A sparse table: key and value pairs with rising keys. A key that is not listed reads as the table's
default, which each use names. -/
abbrev Table (α : Type) := List (Nat × α)

/-- The entry of a key, if it is listed. -/
def Table.find {α : Type} : Table α → Nat → Option α
  | [], _ => none
  | (k, v) :: t, i => if k = i then some v else Table.find t i

/-- The value of a key: the default where it is not listed. -/
def Table.get {α : Type} (t : Table α) (d : α) (i : Nat) : α := (Table.find t i).getD d

/-- Give a key a value, keeping the keys in rising order. -/
def Table.set {α : Type} : Table α → Nat → α → Table α
  | [], i, x => [(i, x)]
  | (k, v) :: t, i, x =>
    if i < k then (i, x) :: (k, v) :: t
    else if i = k then (i, x) :: t
    else (k, v) :: Table.set t i x

/-- Take a key out. -/
def Table.erase {α : Type} : Table α → Nat → Table α
  | [], _ => []
  | (k, v) :: t, i => if k = i then Table.erase t i else (k, v) :: Table.erase t i

/-- Give a key a value in canonical form: a key with the default is not listed. -/
def Table.put {α : Type} [DecidableEq α] (t : Table α) (d : α) (i : Nat) (x : α) : Table α :=
  if x = d then Table.erase t i else Table.set t i x

/-- Rising keys. -/
def Table.rising {α : Type} : Table α → Bool
  | [] => true
  | [_] => true
  | (k, _) :: (k', v) :: t => decide (k < k') && Table.rising ((k', v) :: t)

/-- The canonical form: rising keys, and no entry that equals the default. -/
def Table.canon {α : Type} [DecidableEq α] (t : Table α) (d : α) : Bool :=
  Table.rising t && t.all (fun e => decide (e.2 ≠ d))

/-- Replace position `i` of a list; a position beyond its end changes nothing. -/
def listSet {α : Type} : List α → Nat → α → List α
  | [], _, _ => []
  | _ :: t, 0, x => x :: t
  | a :: t, i + 1, x => a :: listSet t i x

/-- Drop position `i` of a list. -/
def listDrop {α : Type} : List α → Nat → List α
  | [], _ => []
  | _ :: t, 0 => t
  | a :: t, i + 1 => a :: listDrop t i

/-- The smallest member of a list that satisfies a test. -/
def firstThat {α : Type} (p : α → Bool) : List α → Option α
  | [] => none
  | a :: t => if p a then some a else firstThat p t

end Sys2Proof
end

