-- ==== Sys2Proof/Syntax.lean ====
section
/-! DEFINITION. The steps of the DX940 as spec/opcode_table.json lists them: one constructor per row. A slot
instruction carries the fields of its encoding format (R152, R155, R157, R161, R162, R165); a device step carries
the party it concerns and the data that reach it from outside the model. -/

namespace Sys2Proof

/-- ctl format CT: WORD target (R152). -/
structure CT where
  word : Nat
deriving DecidableEq, Repr

/-- ctl format CL: WORD target and link address register. -/
structure CL where
  word : Nat
  lk : Nat
deriving DecidableEq, Repr

/-- ctl format CB: WORD target, condition code and scalar tested. -/
structure CB where
  word : Nat
  cc : Nat
  ss : Nat
deriving DecidableEq, Repr

/-- ctl format CR: target address register; link register (CALLR only). -/
structure CR where
  tgt : Nat
  lk : Nat
deriving DecidableEq, Repr

/-- ctl format CP: WORD of the body's last bundle, level, trip-count scalar. -/
structure CP where
  last : Nat
  lv : Nat
  ss : Nat
deriving DecidableEq, Repr

/-- ctl format CJ: join mask. -/
structure CJ where
  mask : Nat
deriving DecidableEq, Repr

/-- ctl format CI: IMM16. -/
structure CI where
  imm : Nat
deriving DecidableEq, Repr

/-- alu format AR (R155). -/
structure AR where
  d : Nat
  a : Nat
  b : Nat
  f : Nat
  c : Nat
deriving DecidableEq, Repr

/-- alu format AB: `len` is the field, LEN - 1. -/
structure AB where
  d : Nat
  a : Nat
  pos : Nat
  len : Nat
deriving DecidableEq, Repr

/-- alu format AI: a signed 28-bit immediate. -/
structure AI where
  d : Nat
  a : Nat
  imm : Int
deriving DecidableEq, Repr

/-- alu format AM: a 32-bit immediate. -/
structure AM where
  d : Nat
  imm : Nat
deriving DecidableEq, Repr

/-- alu format AS: a scalar and a special-register number. -/
structure AS where
  s : Nat
  reg : Nat
deriving DecidableEq, Repr

/-- Vector format V3 (R157). -/
structure V3 where
  d : Nat
  a : Nat
  b : Nat
  c : Nat
  p : Nat
  fmt : Nat
  rm : Nat
  xf : Nat
deriving DecidableEq, Repr

/-- Vector format VI. -/
structure VI where
  d : Nat
  p : Nat
  fmt : Nat
  imm : Nat
deriving DecidableEq, Repr

/-- Vector format VK. -/
structure VK where
  d : Nat
  a : Nat
  sfmt : Nat
  dfmt : Nat
  rm : Nat
  pw : Nat
  sb : Nat
  n : Nat
deriving DecidableEq, Repr

/-- The attribute block of every mem format (R161). -/
structure Attr where
  cls : Nat
  ord : Nat
  sc : Nat
  nm : Nat
  ev : Nat
  lat : Nat
deriving DecidableEq, Repr

/-- mem format LA: data register, base, signed byte offset, format (R162). -/
structure LA where
  d : Nat
  ab : Nat
  off : Int
  fmt : Nat
  at_ : Attr
deriving DecidableEq, Repr

/-- mem format LG: gather and scatter. -/
structure LG where
  d : Nat
  ab : Nat
  ix : Nat
  fmt : Nat
  at_ : Attr
deriving DecidableEq, Repr

/-- mem format LT: tensor accesses. -/
structure LT where
  d : Nat
  sx : Nat
  tid : Nat
  at_ : Attr
deriving DecidableEq, Repr

/-- mem format LX: atomics; `k` is SK of ATOMCAS, or AOP in its low four bits. -/
structure LX where
  d : Nat
  ab : Nat
  sb : Nat
  k : Nat
  fmt : Nat
  at_ : Attr
deriving DecidableEq, Repr

/-- mem format LS: semaphores. -/
structure LS where
  sem : Nat
  core : Nat
  dev : Nat
  far : Nat
  sn : Nat
  at_ : Attr
deriving DecidableEq, Repr

/-- mem format LF: a class mask. -/
structure LF where
  mask : Nat
  at_ : Attr
deriving DecidableEq, Repr

/-- mem format LK: tokens and rings. -/
structure LK where
  tok : Nat
  core : Nat
  ad : Nat
  ring : Nat
  at_ : Attr
deriving DecidableEq, Repr

/-- mem format LQ: counters, tickets and stream ports. -/
structure LQ where
  s : Nat
  ab : Nat
  q : Nat
  dir : Nat
  at_ : Attr
deriving DecidableEq, Repr

/-- mem format LH: engines and pitches. -/
structure LH where
  s : Nat
  ab : Nat
  eng : Nat
  rpt : Nat
  rv : Nat
  s2 : Nat
  at_ : Attr
deriving DecidableEq, Repr

/-- mx format MM: `wa`, `wb`, `kb`, `rows`, `cols` are the fields, each one less than the count (R165). -/
structure MM where
  acc : Nat
  w : Nat
  aa : Nat
  wa : Nat
  wb : Nat
  kb : Nat
  rows : Nat
  cols : Nat
  lat : Nat
  am : Nat
deriving DecidableEq, Repr

/-- mx format ML: `sc` is AS, the scale address register. -/
structure ML where
  w : Nat
  aa : Nat
  sc : Nat
  wb : Nat
  kb : Nat
  cols : Nat
  lat : Nat
deriving DecidableEq, Repr

/-- mx format MR. -/
structure MR where
  acc : Nat
  vx : Nat
  vy : Nat
  fmt : Nat
  rows : Nat
  cols : Nat
  lat : Nat
deriving DecidableEq, Repr

/-- mx format MZ. -/
structure MZ where
  acc : Nat
  s : Nat
  opt : Nat
  lat : Nat
deriving DecidableEq, Repr

/-- mx format MV. -/
structure MV where
  acc : Nat
  v : Nat
  s : Nat
  fmt : Nat
  lat : Nat
deriving DecidableEq, Repr

/-- mx format MO. -/
structure MO where
  acc : Nat
  aw : Nat
  am1 : Nat
  am2 : Nat
  sh : Nat
  wfmt : Nat
  rm : Nat
  sb : Nat
  n : Nat
deriving DecidableEq, Repr

/-- mx format MS. -/
structure MS where
  aa : Nat
  s : Nat
  opt : Nat
  lat : Nat
deriving DecidableEq, Repr

/-- A request on the fabric as its owner sees it (R325, R330): who sent it, what it asks, its data. -/
structure FabReq where
  /-- requester accelerator -/
  src : Nat
  /-- requester key: 4 x CORE + STRAND of a strand, 1024 + 16 x DIE + ENG of a haul engine (R139) -/
  who : Nat
  /-- tag that the reply carries back -/
  tag : Nat
  cls : Nat
  /-- 0 read, 1 write, 2 atomic -/
  op : Nat
  /-- address in the owner's export space -/
  addr : Nat
  len : Nat
  /-- operand of an atomic: AOP, operand, compare value, format -/
  aop : Nat
  fmt : Nat
  data : Nat
  cmp : Nat
  /-- the write data carry the poison indication (R428) -/
  poison : Bool
  /-- the sender is a DX940 part (R331) -/
  dxp : Bool
  /-- the station at which it has come in, or 24 + d for a request of die d of the device itself (R327) -/
  port : Nat := 0
  /-- byte mask of a write: bit i for its byte i (R325) -/
  mask : Nat := 2 ^ 256 - 1
deriving DecidableEq, Repr

/-- Whose request a peer's is, and where it has come in (R327, R331). -/
structure Requester where
  src : Nat
  who : Nat
  tag : Nat
  cls : Nat
  port : Nat
  dxp : Bool
deriving DecidableEq, Repr

/-- The data of a write, and its poison indication (R325, R428). -/
structure WriteData where
  len : Nat
  data : Nat
  poison : Bool
deriving DecidableEq, Repr

/-- Its read of `len` bytes. -/
def Requester.read (q : Requester) (addr len : Nat) : FabReq :=
  { src := q.src, who := q.who, tag := q.tag, cls := q.cls, op := 0, addr := addr, len := len, aop := 0, fmt := 0, data := 0, cmp := 0
    poison := false, dxp := q.dxp, port := q.port }

/-- Its write. -/
def Requester.write (q : Requester) (addr : Nat) (w : WriteData) : FabReq :=
  { src := q.src, who := q.who, tag := q.tag, cls := q.cls, op := 1, addr := addr, len := w.len, aop := 0, fmt := 0, data := w.data, cmp := 0
    poison := w.poison, dxp := q.dxp, port := q.port }

/-- A stack entry that goes to the tier: the writes that are sent again, and the sectors whose error remains (R247, R421). -/
structure EntrySpill where
  strand : Nat
  resent : Nat := 0
  failed : List Nat := []
deriving DecidableEq, Repr

/-- Where a page goes, and the same of its copy (R120, R421). -/
structure PageCopy where
  frame : Nat
  resent : Nat := 0
  failed : List Nat := []
deriving DecidableEq, Repr

/-- What the scrubber meets: the controller queue's occupancy, and what the line shows (R418). -/
structure ScrubSight where
  occupancy : Nat
  found : Nat
deriving DecidableEq, Repr

/-- A request for measurements: a block's index, and a nonce where it asks for a signature (R364). -/
structure MeasureReq where
  index : Nat
  nonce : Option Nat
deriving DecidableEq, Repr

/-- A vendor-defined message (R330, R345), decoded. -/
structure Msg where
  kind : Nat
  rk : Nat
  src : Nat
  core : Nat
  sel : Nat
  tnum : Nat
  val : Nat
  gid : Nat
  cause : Nat
  pitch : Nat
deriving DecidableEq, Repr

/-- The steps of the machine: every row of the opcode table. -/
inductive Instr where
  /-- NOP, R191. -/
  | nop
  /-- BR, R177. -/
  | br (f : CB)
  /-- JMP, R178. -/
  | jmp (f : CT)
  /-- JMPR, R179. -/
  | jmpr (f : CR)
  /-- CALL, R178. -/
  | call (f : CL)
  /-- CALLR, R179. -/
  | callr (f : CR)
  /-- RET, R179. -/
  | ret (f : CR)
  /-- LOOP, R182. -/
  | loop (f : CP)
  /-- BSWAP, R180. -/
  | bswap (f : CT)
  /-- JOIN, R186. -/
  | join (f : CJ)
  /-- DETACH, R185. -/
  | detach
  /-- IFENCE, R187. -/
  | ifence
  /-- YPOINT, R188. -/
  | ypoint
  /-- YIELD, R189. -/
  | yield
  /-- EXIT, R190. -/
  | exit
  /-- HOLD, R191. -/
  | hold (f : CI)
  /-- TRAP, R193. -/
  | trap (f : CI)
  /-- RTT, R194. -/
  | rtt
  /-- BKPT, R193. -/
  | bkpt (f : CI)
  /-- SVC_NULL, R300. -/
  | svcNull
  /-- SVC_EVENT, R300. -/
  | svcEvent
  /-- SVC_ABORT, R300. -/
  | svcAbort
  /-- SVC_RESIDE, R300. -/
  | svcReside
  /-- SVC_GROUPINFO, R300. -/
  | svcGroupinfo
  /-- SVC_UNASSIGNED, R404. -/
  | svcUnassigned (f : CI)
  /-- ADD, R196. -/
  | add (f : AR)
  /-- ADDI, R196. -/
  | addi (f : AI)
  /-- SUB, R196. -/
  | sub (f : AR)
  /-- MUL, R196. -/
  | mul (f : AR)
  /-- MULH, R196. -/
  | mulh (f : AR)
  /-- MULHN, R196. -/
  | mulhn (f : AR)
  /-- DIV, R197. -/
  | div (f : AR)
  /-- DIVN, R197. -/
  | divn (f : AR)
  /-- REM, R197. -/
  | rem (f : AR)
  /-- REMN, R197. -/
  | remn (f : AR)
  /-- AND, R196. -/
  | and (f : AR)
  /-- OR, R196. -/
  | or (f : AR)
  /-- XOR, R196. -/
  | xor (f : AR)
  /-- ANDN, R196. -/
  | andn (f : AR)
  /-- SHL, R196. -/
  | shl (f : AR)
  /-- SHR, R196. -/
  | shr (f : AR)
  /-- SAR, R196. -/
  | sar (f : AR)
  /-- ROL, R196. -/
  | rol (f : AR)
  /-- MIN, R196. -/
  | min (f : AR)
  /-- MAX, R196. -/
  | max (f : AR)
  /-- MINN, R196. -/
  | minn (f : AR)
  /-- MAXN, R196. -/
  | maxn (f : AR)
  /-- CMP, R196. -/
  | cmp (f : AR)
  /-- SEL, R196. -/
  | sel (f : AR)
  /-- MOV, R196. -/
  | mov (f : AR)
  /-- MOVI, R196. -/
  | movi (f : AM)
  /-- MOVHI, R196. -/
  | movhi (f : AM)
  /-- CLZ, R196. -/
  | clz (f : AR)
  /-- CTZ, R196. -/
  | ctz (f : AR)
  /-- POPC, R196. -/
  | popc (f : AR)
  /-- BREV, R196. -/
  | brev (f : AR)
  /-- BEXT, R198. -/
  | bext (f : AB)
  /-- BINS, R198. -/
  | bins (f : AB)
  /-- LEA, R199. -/
  | lea (f : AR)
  /-- ADDA, R199. -/
  | adda (f : AR)
  /-- MOVA_TO_ADDRESS, R199. -/
  | movaToAddress (f : AR)
  /-- MOVA_TO_SCALAR, R199. -/
  | movaToScalar (f : AR)
  /-- MFS, R200. -/
  | mfs (f : AS)
  /-- MTS, R200. -/
  | mts (f : AS)
  /-- RDCYC, R200. -/
  | rdcyc (f : AR)
  /-- VADD, R206. -/
  | vadd (f : V3)
  /-- VSUB, R206. -/
  | vsub (f : V3)
  /-- VMUL, R206. -/
  | vmul (f : V3)
  /-- VFMA, R206. -/
  | vfma (f : V3)
  /-- VFMS, R206. -/
  | vfms (f : V3)
  /-- VFNMA, R206. -/
  | vfnma (f : V3)
  /-- VMIN, R207. -/
  | vmin (f : V3)
  /-- VMAX, R207. -/
  | vmax (f : V3)
  /-- VABS, R207. -/
  | vabs (f : V3)
  /-- VNEG, R207. -/
  | vneg (f : V3)
  /-- VCLAMP, R207. -/
  | vclamp (f : V3)
  /-- VRCP, R208. -/
  | vrcp (f : V3)
  /-- VRSQ, R208. -/
  | vrsq (f : V3)
  /-- VSQRT, R208. -/
  | vsqrt (f : V3)
  /-- VEXP2, R208. -/
  | vexp2 (f : V3)
  /-- VLOG2, R208. -/
  | vlog2 (f : V3)
  /-- VIADD, R209. -/
  | viadd (f : V3)
  /-- VISUB, R209. -/
  | visub (f : V3)
  /-- VIMUL, R209. -/
  | vimul (f : V3)
  /-- VIMAD, R209. -/
  | vimad (f : V3)
  /-- VIMIN, R209. -/
  | vimin (f : V3)
  /-- VIMAX, R209. -/
  | vimax (f : V3)
  /-- VAND, R209. -/
  | vand (f : V3)
  /-- VOR, R209. -/
  | vor (f : V3)
  /-- VXOR, R209. -/
  | vxor (f : V3)
  /-- VSHL, R209. -/
  | vshl (f : V3)
  /-- VSHR, R209. -/
  | vshr (f : V3)
  /-- VSAR, R209. -/
  | vsar (f : V3)
  /-- VCMP, R210. -/
  | vcmp (f : V3)
  /-- VSEL, R211. -/
  | vsel (f : V3)
  /-- VMOV, R213. -/
  | vmov (f : V3)
  /-- VMOVI, R213. -/
  | vmovi (f : VI)
  /-- VBCAST, R213. -/
  | vbcast (f : V3)
  /-- VINS, R213. -/
  | vins (f : V3)
  /-- VEXT, R213. -/
  | vext (f : V3)
  /-- VPERM, R214. -/
  | vperm (f : V3)
  /-- VSLIDE, R215. -/
  | vslide (f : V3)
  /-- VZIP, R216. -/
  | vzip (f : V3)
  /-- VUNZIP, R216. -/
  | vunzip (f : V3)
  /-- VRED, R217. -/
  | vred (f : V3)
  /-- VSCAN, R217. -/
  | vscan (f : V3)
  /-- VCVT, R219. -/
  | vcvt (f : VK)
  /-- VSRND, R220. -/
  | vsrnd (f : VK)
  /-- VBLOCK, R221. -/
  | vblock (f : VK)
  /-- VUNBLOCK, R222. -/
  | vunblock (f : VK)
  /-- VCOMPRESS, R223. -/
  | vcompress (f : V3)
  /-- VEXPAND, R224. -/
  | vexpand (f : V3)
  /-- VPCNT, R212. -/
  | vpcnt (f : V3)
  /-- PAND, R212. -/
  | pand (f : V3)
  /-- POR, R212. -/
  | por (f : V3)
  /-- PXOR, R212. -/
  | pxor (f : V3)
  /-- PNOT, R212. -/
  | pnot (f : V3)
  /-- VRAND, R226. -/
  | vrand (f : VK)
  /-- LD, R254. -/
  | ld (f : LA)
  /-- ST, R254. -/
  | st (f : LA)
  /-- VLD, R255. -/
  | vld (f : LA)
  /-- VST, R255. -/
  | vst (f : LA)
  /-- VLDT, R256. -/
  | vldt (f : LT)
  /-- VSTT, R256. -/
  | vstt (f : LT)
  /-- VGATH, R257. -/
  | vgath (f : LG)
  /-- VSCAT, R257. -/
  | vscat (f : LG)
  /-- LDF, R258. -/
  | ldf (f : LA)
  /-- LDFK, R258. -/
  | ldfk (f : LA)
  /-- STE, R258. -/
  | ste (f : LA)
  /-- FESET, R258. -/
  | feset (f : LA)
  /-- FEPROBE, R258. -/
  | feprobe (f : LA)
  /-- ATOM, R260. -/
  | atom (f : LX)
  /-- ATOMCAS, R260. -/
  | atomcas (f : LX)
  /-- SEMADD, R261. -/
  | semadd (f : LS)
  /-- SEMSET, R261. -/
  | semset (f : LS)
  /-- SEMWAIT, R262. -/
  | semwait (f : LS)
  /-- SEMRD, R262. -/
  | semrd (f : LS)
  /-- CNTWAIT, R263. -/
  | cntwait (f : LQ)
  /-- FENCE, R264. -/
  | fence (f : LF)
  /-- TOKACQ, R265. -/
  | tokacq (f : LK)
  /-- TOKPASS, R265. -/
  | tokpass (f : LK)
  /-- BUFACQ, R266. -/
  | bufacq (f : LK)
  /-- BUFREL, R266. -/
  | bufrel (f : LK)
  /-- DISCARD, R267. -/
  | discard (f : LA)
  /-- WBACK, R267. -/
  | wback (f : LA)
  /-- INVAL, R267. -/
  | inval (f : LA)
  /-- IINVAL, R268. -/
  | iinval (f : LA)
  /-- PREF, R267. -/
  | pref (f : LA)
  /-- RLD, R269. -/
  | rld (f : LA)
  /-- RST, R269. -/
  | rst (f : LA)
  /-- RATOM, R269. -/
  | ratom (f : LX)
  /-- TICKWAIT, R272. -/
  | tickwait (f : LQ)
  /-- REPLAY, R273. -/
  | replay (f : LQ)
  /-- SBIND, R275. -/
  | sbind (f : LQ)
  /-- SDONE, R276. -/
  | sdone (f : LQ)
  /-- HAUL, R284. -/
  | haul (f : LH)
  /-- HAULG, R292. -/
  | haulg (f : LH)
  /-- HGATH, R293. -/
  | hgath (f : LH)
  /-- HSCAT, R293. -/
  | hscat (f : LH)
  /-- HSTAT, R294. -/
  | hstat (f : LH)
  /-- PROTECT, R295. -/
  | protect (f : LH)
  /-- UNPROTECT, R296. -/
  | unprotect (f : LH)
  /-- BELAY, R297. -/
  | belay (f : LH)
  /-- BWAIT, R298. -/
  | bwait (f : LH)
  /-- PITCHRD, R299. -/
  | pitchrd (f : LH)
  /-- MLATCH, R232. -/
  | mlatch (f : ML)
  /-- MOP, R234. -/
  | mop (f : MM)
  /-- MOPS, R236. -/
  | mops (f : MM)
  /-- MOPR, R237. -/
  | mopr (f : MM)
  /-- MRANK1, R240. -/
  | mrank1 (f : MR)
  /-- MZERO, R241. -/
  | mzero (f : MZ)
  /-- MLOSS, R241. -/
  | mloss (f : MZ)
  /-- MDRAIN, R241. -/
  | mdrain (f : MZ)
  /-- MSTAT, R242. -/
  | mstat (f : MZ)
  /-- OREAD, R243. -/
  | oread (f : MV)
  /-- OWRITE, R243. -/
  | owrite (f : MV)
  /-- OMOM, R244. -/
  | omom (f : MO)
  /-- OADAM, R244. -/
  | oadam (f : MO)
  /-- PUSHT, R246. -/
  | pusht (f : MS)
  /-- POPT, R246. -/
  | popt (f : MS)
  /-- TSTK, R246. -/
  | tstk (f : MS)
  /-- HOLD_BUNDLE, R169. Index word 0xFFFE: occupies the strand's issue for one cycle. -/
  | holdBundle
  /-- EMPTY_BUNDLE, R144. A bundle with SV = 0 issues with only its header's effects. -/
  | emptyBundle
  /-- STREAM_READ, R23. A rope stream reads one index word, decodes it and delivers the bundle to its attached strands. -/
  | streamRead (rope : Nat) (slot : Nat)
  /-- PRIVATE_FETCH_READ, R31. The private fetch port grants one detached strand a read of one index word. -/
  | privateFetchRead (strand : Nat)
  /-- LEAD_OUTCOME, R28. The lead core's outcome of a data-dependent transfer reaches the rope head. -/
  | leadOutcome (rope : Nat) (slot : Nat)
  /-- JOIN_COMPLETE, R32. A pending join completes and the waiting strands are attached again. -/
  | joinComplete (rope : Nat) (slot : Nat)
  /-- RESULT_LAND, R34. A variable-latency result lands in its register and frees the scoreboard. -/
  | resultLand (strand : Nat) (idx : Nat)
  /-- POISON_AT_BOUND, R37. An exposed result that has not landed by its bound poisons its destination. -/
  | poisonAtBound (strand : Nat) (idx : Nat)
  /-- TRAP_ENTRY, R371. A trap detaches the strand, drains its results, writes the trap registers and vectors it. -/
  | trapEntry (strand : Nat)
  /-- ROLLBACK, R42. Restores shadowed registers, discards gated stores and restarts at the restart point. -/
  | rollback (strand : Nat) (kind : Nat) (loc : Nat)
  /-- RESERVE, R45. Dispatcher message asking a rope to hold it for a slot; the rope grants or denies. -/
  | reserve (slot : Nat) (rope : Nat)
  /-- COMMIT, R45. Dispatcher message that makes a held rope busy and starts loading code. -/
  | commit (slot : Nat) (rope : Nat)
  /-- RELEASE, R45. Dispatcher message that frees a held or not yet started rope. -/
  | release (slot : Nat) (rope : Nat)
  /-- ROPE_LOAD_DONE, R45. A rope finishes loading both banks and replies READY or FAIL. -/
  | ropeLoadDone (rope : Nat)
  /-- GANG_START, R45. At the start cycle, 512 CYC cycles after the last READY, every used stream starts reading. -/
  | gangStart (slot : Nat)
  /-- ROPE_PART_DONE, R45. A rope becomes Free once its strands are Exited or Idle and its engine queues are drained. -/
  | ropePartDone (rope : Nat)
  /-- PLACEMENT_RETRY, R317. The back-off delay after a denied placement ends and the slot retries its candidates. -/
  | placementRetry (slot : Nat)
  /-- PREEMPT_REQUEST, R46. The scheduler sets YREQ for every strand of a gang. -/
  | preemptRequest (slot : Nat)
  /-- FORCED_FREEZE, R47. At Y + PDL the scheduler stops fetch and freezes the strands, filling the replay buffers. -/
  | forcedFreeze (slot : Nat)
  /-- GANG_SAVE, R315. Once every strand is frozen, exited or idle, the gang is saved and FROZ is set. -/
  | gangSave (slot : Nat)
  /-- GANG_RESUME, R48. A saved gang resumes on its ropes, with the replay buffers acting at their offsets. -/
  | gangResume (slot : Nat)
  /-- MX_COMMAND_START, R228. An mx path starts its next queued command once the earlier operations allow it. -/
  | mxCommandStart (core : Nat) (path : Nat)
  /-- MX_COMMAND_LAND, R230. An mx command lands its tile, latch or register result. -/
  | mxCommandLand (core : Nat) (path : Nat)
  /-- MOPR_RENDEZVOUS_START, R238. All eight MOPR issues are present and the operation starts on one cycle. -/
  | moprRendezvousStart (rope : Nat) (slot : Nat)
  /-- SPILL_ENTRY, R247. The spill engine moves a bottom stack entry to the low-power tier. -/
  | spillEntry (copy : EntrySpill)
  /-- FILL_ENTRY, R247. The spill engine brings a spilled entry back into the window. -/
  | fillEntry (strand : Nat)
  /-- STREAM_PORT_FILL, R275. The serving haul engine delivers the next vector into a read-bound port. -/
  | streamPortFill (strand : Nat) (port : Nat)
  /-- STREAM_PORT_DRAIN, R135. The serving engine performs a vector written to a write-bound port. -/
  | streamPortDrain (strand : Nat) (port : Nat)
  /-- HAUL_COMMAND_START, R285. A buffered haul command starts when CYC reaches its time, its fork is met and a run slot is
  free. -/
  | haulCommandStart (engine : Nat)
  /-- HAUL_COMPLETION, R287. A finished command adds to its mark counter and semaphore and pushes its report. -/
  | haulCompletion (engine : Nat) (idx : Nat)
  /-- ENGINE_TICKET_REPLAY, R289. A haul engine re-issues its ticketed accesses after a replay notice. -/
  | engineTicketReplay (engine : Nat)
  /-- TOKEN_ARRIVAL, R265. A passed write token arrives at its destination core after the drain. -/
  | tokenArrival (die : Nat) (tok : Nat)
  /-- RELOAD_COMPLETE, R268. An IINVAL reload of a rope-head copy ends, marking failed words bad. -/
  | reloadComplete (rope : Nat) (idx : Nat)
  /-- REMOTE_REPLY, R270. A fabric reply lands a remote result or acknowledges a store. -/
  | remoteReply (requester : Nat) (tag : Nat) (status : Nat) (data : Nat)
  /-- FAULT_TICKET, R271. An owner's ticket arrives and ticket-poisons the destination. -/
  | faultTicket (requester : Nat) (tag : Nat) (tnum : Nat)
  /-- FABRIC_REQUEST_SERVE, R138. The owner's ingress takes a request, translates it, and performs, tickets or errors it. -/
  | fabricRequestServe (req : FabReq)
  /-- INGRESS_WALK_COMPLETE, R408. An ingress page walk ends, and the request performs or is ticketed. -/
  | ingressWalkComplete (idx : Nat)
  /-- REPLAY_NOTICE_POST, R408. The owner posts a replay notice once the stalled pair's page is ready. -/
  | replayNoticePost (idx : Nat)
  /-- REPLAY_NOTICE, R330. Control message that readies the requester's tickets up to TNUM. -/
  | replayNotice (msg : Msg)
  /-- SEM_MESSAGE, R330. Vendor message carrying a remote SEMADD or SEMSET arrives. -/
  | semMessage (msg : Msg)
  /-- NOTICE_RESEND, R428. Every 2^22 cycles the owner re-sends the notice of a stalled pair. -/
  | noticeResend (idx : Nat)
  /-- STALL_ENTRY_EXPIRE, R428. An owner frees a stall entry whose pair has been silent for 2^28 cycles. -/
  | stallEntryExpire (idx : Nat)
  /-- TICKET_TIMEOUT, R410. A ticket with no notice for 2^26 CYC cycles fails its entry. -/
  | ticketTimeout (requester : Nat) (tag : Nat)
  /-- REQUEST_DEADLINE, R427. A remote request with no answer by its deadline fails. -/
  | requestDeadline (requester : Nat) (tag : Nat)
  /-- REPLY_EGRESS_DISCARD, R430. A reply or control message stuck in egress for a deadline is discarded. -/
  | replyEgressDiscard (idx : Nat)
  /-- BEFORE_IMAGE_CAPTURE, R339. The cairn engine copies a line's before-image into the undo area on the first write of a
  pitch. -/
  | beforeImageCapture (line : Nat)
  /-- BELAY_OPEN, R297. BELAY performs and opens the commit of pitch N; the cairn engines start tracking N + 1. -/
  | belayOpen (grp : Nat)
  /-- MEMBER_VOTE, R346. A member whose deltas are all acknowledged, or have failed, votes. -/
  | memberVote (grp : Nat)
  /-- VOTE, R345. Belay VOTE message reaches the coordinator, which may decide. -/
  | vote (msg : Msg)
  /-- BELAY_COMMIT_MSG, R346. COMMIT(N) message: the member applies staged parity and advances PITCHNO. -/
  | belayCommitMsg (msg : Msg)
  /-- BELAY_ABORT_MSG, R346. ABORT(N) message: the member restores its lines from the undo entries. -/
  | belayAbortMsg (msg : Msg)
  /-- BELAY_TIMEOUT, R346. The coordinator's GTO timer expires and it decides abort. -/
  | belayTimeout (grp : Nat)
  /-- QUERY, R437. Belay QUERY message that makes the recovery coordinator start settling. -/
  | query (msg : Msg)
  /-- DECISION, R441. Settling DECISION message that commits or aborts the open pitch. -/
  | decision (msg : Msg)
  /-- ESTIMATOR_WINDOW, R348. Every 2^30 CYC cycles the pacing estimator updates E, T, M and PACE. -/
  | estimatorWindow
  /-- PROBE_PERIOD, R436. Each probe period a member sends record reads to the live members. -/
  | probePeriod (grp : Nat)
  /-- PACKET_ACCEPT, R305. A slot reads the packet at QHEAD and accepts it, or stops the queue. -/
  | packetAccept (slot : Nat)
  /-- DEPENDENCE_MET, R307. The DEPA counter reaches DEPT and the launch proceeds to placement. -/
  | dependenceMet (slot : Nat)
  /-- GANG_COMPLETE, R308. A finished gang adds DONEI, writes its completion record, sets LDONE and signals. -/
  | gangComplete (slot : Nat)
  /-- GROUP_ZEROING_DONE, R336. Zeroing of the parity area and belay record ends and EN reads 1. -/
  | groupZeroingDone (grp : Nat)
  /-- REGION_REGISTERED, R295. The cairn engines finish registering a region that PROTECT or UNPROTECT named, which ends the
  bundle's belay wait. -/
  | regionRegistered (strand : Nat)
  /-- EGRESS_PAIR_SWITCH, R329. A destination-and-class pair switches once its old-generation requests are answered. -/
  | egressPairSwitch (dest : Nat) (cls : Nat)
  /-- REGISTER_WRITE, R9. Write to a register with no behaviour of its own, applied under its access codes. -/
  | registerWrite (off : Nat) (width : Nat) (value : Nat)
  /-- LINE_REPAIR, R416. A cairn engine rebuilds a protected line with an uncorrectable error from its stripe row. -/
  | lineRepair (stack : Nat) (line : Nat)
  /-- GCTL_ENABLE, R336. Writing GCTL.EN = 1 runs the enable checks and starts zeroing the areas. -/
  | gctlEnable (grp : Nat)
  /-- GCTL_DISABLE, R335. Writing GCTL.EN = 0 disables a group that holds no region. -/
  | gctlDisable (grp : Nat)
  /-- GOWN_WRITE, R347. Clearing GOWN.V ends the context's protection once any commit has an outcome. -/
  | gownWrite (grp : Nat) (value : Nat)
  /-- KICK, R303. Write of a queue's kick register that sets QTAIL and may set PEND. -/
  | kick (queue : Nat) (tail : Nat)
  /-- EPRIO_AGEING, R313. A pending queue's effective priority rises with its waiting time. -/
  | eprioAgeing (queue : Nat)
  /-- MAPPING_DECISION, R314. The firmware maps, unmaps or evicts queues for the best pending queue. -/
  | mappingDecision
  /-- WATCHDOG_CHECK, R318. Every WDINT cycles PROG is compared with PLAST, and a stalled queue is evicted. -/
  | watchdogCheck (slot : Nat)
  /-- SAVE_TIMEOUT, R380. A pre-emption not saved by its bound kills the context. -/
  | saveTimeout (slot : Nat)
  /-- QUEUE_RECORD_WRITE, R458. Write to a queue control block, applied to the slot's copy when mapped, with fields dropped
  when mapped or frozen. -/
  | queueRecordWrite (queue : Nat) (off : Nat) (width : Nat) (value : Nat)
  /-- QCTL_ERR_CLEAR, R311. W1C clear of QCTL.ERR restarts the queue at QHEAD. -/
  | qctlErrClear (queue : Nat)
  /-- EVACK_WRITE, R309. The runtime acknowledges events, freeing room in the event ring. -/
  | evackWrite (value : Nat)
  /-- EVENT_RING_CONFIG_WRITE, R322. Write to EVBASE or EVSIZE, dropped unless the ring is drained and the size is valid. -/
  | eventRingConfigWrite (size : Bool) (value : Nat)
  /-- FLOGSIZE_WRITE, R384. Write to the fault-log ring size, dropped for invalid values. -/
  | flogsizeWrite (value : Nat)
  /-- EGRESS_SWITCH, R329. Writing EGCTL.CUR starts a switch of the egress-map generation. -/
  | egressSwitch (gen : Nat)
  /-- D2D_ROUTE_SWITCH, R333. The firmware switches the die-to-die routing table's generation. -/
  | d2dRouteSwitch (link : Nat) (cls : Nat)
  /-- MULTICAST_FORWARD, R332. A fan-out point forwards a held multicast once every destination link has space. -/
  | multicastForward (die : Nat)
  /-- FLIT_REPLAY, R423. A flit that fails its check is resent from the station's replay buffer. -/
  | flitReplay (station : Nat)
  /-- STATION_RETRAIN, R423. After three failed replays a station retrains and raises its bucket. -/
  | stationRetrain (station : Nat)
  /-- RETRAIN_COMPLETE, R423. The link comes up; the station resends its replay buffer and clears DOWN. -/
  | retrainComplete (station : Nat)
  /-- RETRAIN_TIMEOUT, R423. A link not up 2^24 cycles after its retrain began retires the station. -/
  | retrainTimeout (station : Nat)
  /-- BUCKET_LEAK, R424. Every LEAK × 2^20 cycles a station's bucket falls by one. -/
  | bucketLeak (station : Nat)
  /-- STATION_RET_CLEAR, R424. Writing 1 to RET clears retirement and starts a retrain. -/
  | stationRetClear (station : Nat)
  /-- FABRIC_ENABLE_WRITE, R424. Writing LNKCFG.FEN trains the stations or takes them all down. -/
  | fabricEnableWrite (value : Nat)
  /-- D2D_LANE_RETRAIN, R431. A die-to-die lane group retrains or retires; losing a whole link stops the device. -/
  | d2dLaneRetrain (link : Nat) (group : Nat)
  /-- HEARTBEAT_CHECK, R383. Base camp cores check heartbeats; two misses stop the device. -/
  | heartbeatCheck (beats : Nat)
  /-- POWER_COMPARE, R365. Every 250,000 CYC cycles average power is compared with PLIM and the clock is stepped. -/
  | powerCompare (watts : Nat)
  /-- ZONE_WARN, R367. A thermal zone reaches WARN, which throttles the clock or doubles refresh. -/
  | zoneWarn (zone : Nat) (temp : Nat)
  /-- ZONE_CRIT, R367. A zone reaches CRIT: a stack enters self-refresh, a die stops the device. -/
  | zoneCrit (zone : Nat) (temp : Nat)
  /-- SELF_REFRESH_EXIT, R420. A stack leaves critical self-refresh and completes its held requests. -/
  | selfRefreshExit (stack : Nat) (temp : Nat)
  /-- BANK_REFRESH, R419. Per-bank refresh delays requests to the bank. -/
  | bankRefresh (stack : Nat) (bank : Nat)
  /-- SCRUB_ISSUE, R418. The scrubber reads and corrects the next line, escalating when behind. -/
  | scrubIssue (stack : Nat) (sight : ScrubSight)
  /-- PAGE_MIGRATION, R120. The firmware moves a page between the tier and HBM. -/
  | pageMigration (pte : Nat) (copy : PageCopy)
  /-- TLB_INVALIDATION, R104. The firmware invalidates a range; it completes after old-translation accesses perform. -/
  | tlbInvalidation (space : Nat) (va : Nat) (len : Nat)
  /-- PAGE_WALK_COMPLETE, R102. A page walk ends and fills the TLB, or faults. -/
  | pageWalkComplete (die : Nat) (space : Nat) (va : Nat)
  /-- ATS_COMPLETION, R105. An ATS translation completion arrives for a host-shared miss. -/
  | atsCompletion (strand : Nat) (status : Nat) (frame : Nat) (large : Bool)
  /-- ATS_RETRY, R407. A failed ATS request is sent once more after 2^16 cycles. -/
  | atsRetry (strand : Nat)
  /-- PRI_RESPONSE, R320. A page request is answered; the strand retries or the context is killed. -/
  | priResponse (strand : Nat) (success : Bool)
  /-- PRI_TIMEOUT, R407. A page request unanswered for 2^28 CYC cycles kills the context. -/
  | priTimeout (strand : Nat)
  /-- ATS_INVALIDATION, R105. A host ATS invalidation request is completed under R104. -/
  | atsInvalidation (pasid : Nat) (va : Nat) (len : Nat)
  /-- BAR2_WRITE, R321. A host write through BAR2 to device memory. -/
  | bar2Write (off : Nat) (data : List Byte)
  /-- BAR2_READ, R321. A host read through BAR2, completed after earlier posted writes. -/
  | bar2Read (off : Nat) (len : Nat)
  /-- PCIE_CORRECTABLE_ERROR, R432. A correctable link error is corrected by PCIe replay and counted. -/
  | pcieCorrectableError (kind : Nat)
  /-- PCIE_POISONED_TLP, R432. A poisoned BAR2 write stores its data as poisoned sectors. -/
  | pciePoisonedTlp (off : Nat) (data : List Byte)
  /-- PCIE_COMPLETION_ERROR, R432. A timeout, Unsupported Request or Completer Abort on a device read of host memory. -/
  | pcieCompletionError (strand : Nat) (ats : Bool)
  /-- UNEXPECTED_COMPLETION, R432. An unexpected completion is discarded and logged. -/
  | unexpectedCompletion (tag : Nat)
  /-- PCIE_FATAL_ERROR, R432. A fatal protocol error is logged and the device runs on until reset. -/
  | pcieFatalError (kind : Nat)
  /-- PCIE_LINK_DOWN, R432. DL_Down or surprise down acts as a hot reset. -/
  | pcieLinkDown
  /-- COLD_RESET, R368. Cold reset clears all state except fuses and the certificate store. -/
  | coldReset
  /-- FUNDAMENTAL_RESET, R368. Fundamental or hot reset clears everything but memory contents. -/
  | fundamentalReset
  /-- FUNCTION_LEVEL_RESET, R368. FLR kills running gangs and clears the queue, event and MSI-X registers. -/
  | functionLevelReset
  /-- BOOT_TRAINING_DONE, R360. The boot ROM finishes training HBM and PCIe and waits for an image. -/
  | bootTrainingDone
  /-- BOOTCTL_GO, R362. Writing BOOTCTL.GO starts copying the firmware image. -/
  | bootctlGo (len : Nat)
  /-- BOOT_VERIFY, R361. The copied image is verified, and the firmware starts or ERR is set. -/
  | bootVerify
  /-- DOE_DISCOVERY, R319. DOE discovery request on the mailbox. -/
  | doeDiscovery (index : Nat)
  /-- GET_DIGESTS, R364. SPDM GET_DIGESTS request. -/
  | getDigests
  /-- GET_CERTIFICATE, R364. SPDM GET_CERTIFICATE request. -/
  | getCertificate (off : Nat) (len : Nat)
  /-- CHALLENGE, R364. SPDM CHALLENGE request, signed with the alias key. -/
  | challenge (nonce : Nat)
  /-- GET_MEASUREMENTS, R364. SPDM GET_MEASUREMENTS request returning measurement blocks 1 to 4. -/
  | getMeasurements (req : MeasureReq)
  /-- KEY_EXCHANGE, R364. SPDM KEY_EXCHANGE request opening a secured session. -/
  | keyExchange (share : Nat)
  /-- FINISH, R364. SPDM FINISH request completing a secured session. -/
  | finish (mac : Nat)
  /-- IDE_KM, R319. IDE_KM message over a secured session that sets link IDE keys. -/
  | ideKm (stream : Nat) (key : Nat)
  /-- STAGING_SPLIT_WRITE, R115. The runtime sets an L2 slice's staging/cache split through the management window, and the
  firmware first writes back and empties the slice's cache. -/
  | stagingSplitWrite (die : Nat) (slice : Nat) (mib : Nat)
  /-- EXPORT_SPACE_DESIGNATION, R98. At the runtime's request the firmware designates, or withdraws, the device-local space
  that the fabric ingress translates for a pod job. -/
  | exportSpaceDesignation (on : Bool) (root : Nat)
  /-- ZONE_BELOW_WARN, R367. A thermal zone's temperature falls back below WARN, or 5 °C below it, which ends doubled
  refresh for a stack and allows the die clock to rise again. -/
  | zoneBelowWarn (zone : Nat) (temp : Nat)
  /-- D2D_LANE_GROUP_UP, R431. A die-to-die lane group that was retraining comes up again and can be returned to the routing
  table. -/
  | d2dLaneGroupUp (link : Nat) (group : Nat)
  /-- RECORD_READ, R435. A record read arrives, applies its fence mask and is answered with the belay record. -/
  | recordRead (who : Requester) (addr : Nat)
  /-- RECORD_READ_REPLY, R437. A probe or settling read is answered or misses, driving loss declaration and rebuild progress. -/
  | recordReadReply (grp : Nat) (member : Nat) (status : Nat) (data : Nat)
  /-- REBUILD_UNIT, R445. A builder reconstructs one lost data or parity unit and writes it to the reserve. -/
  | rebuildUnit (grp : Nat) (unit : Nat) (parity : Bool) (member : Nat)
  /-- REBUILD_WINDOW_READ, R443. A read of the data or parity window returns committed line values. -/
  | rebuildWindowRead (who : Requester) (addr : Nat)
  /-- REBUILD_WRITE, R443. A rebuild write arrives at the reserve's data or parity window. -/
  | rebuildWrite (who : Requester) (addr : Nat) (data : WriteData)
  /-- REBUILD_END, R446. The reserve, fully written, adopts the pitch and becomes a live member. -/
  | rebuildEnd (grp : Nat) (pitch : Nat) (live : Nat)
  /-- DELTA_WRITE, R342. A parity delta arrives in the cairn window and is XORed into staging. -/
  | deltaWrite (who : Requester) (addr : Nat) (data : WriteData)
deriving DecidableEq, Repr

end Sys2Proof
end

