-- ==== Sys2Proof/Machine/Check.lean ====
section
/-! DEFINITION. The encoding-stage checks of one slot instruction (R387, R389): which fields it admits. An illegal
operand is cause 0x03, a reserved field value cause 0x04; the lower code is recorded (R372). -/

namespace Sys2Proof

/-- The causes of TCAUSE (R374), by name. -/
inductive Cause where
  | reservedEncoding
  | unassignedOpcode
  | illegalOperand
  | reservedField
  | destinationConflict
  | unassignedIndexWord
  | fetchOverrun
  | badTarget
  | badLoop
  | badUse
  | joinMismatch
  | privilege
  | badAddress
  | badLatchOrTile
  | badTensor
  | badEngineCommand
  | badStreamOrPort
  | badTokenOrRing
  | badGroup
  | programTrap
  | breakpoint
  | serviceCall
  | unresolvedTranslation
  | softError
  | lateResult
  | ticketPending
deriving DecidableEq, Repr

/-- The code of a cause (R374). -/
def Cause.code : Cause → Nat
  | .reservedEncoding => 0x01 | .unassignedOpcode => 0x02 | .illegalOperand => 0x03 | .reservedField => 0x04
  | .destinationConflict => 0x05 | .unassignedIndexWord => 0x06 | .fetchOverrun => 0x07 | .badTarget => 0x08
  | .badLoop => 0x09 | .badUse => 0x0A | .joinMismatch => 0x0B | .privilege => 0x0C | .badAddress => 0x0D
  | .badLatchOrTile => 0x0E | .badTensor => 0x0F | .badEngineCommand => 0x10 | .badStreamOrPort => 0x11
  | .badTokenOrRing => 0x12 | .badGroup => 0x13 | .programTrap => 0x14 | .breakpoint => 0x15
  | .serviceCall => 0x16 | .unresolvedTranslation => 0x18 | .softError => 0x19 | .lateResult => 0x20
  | .ticketPending => 0x21

/-- The opcode spaces of a bundle (R142, R145); va and vb share one. -/
inductive SlotKind where
  | ctl
  | alu
  | vec
  | mem
  | mx
deriving DecidableEq, Repr

/-- A vector source code: 448 to 511 name nothing (R146). -/
def badSrc (x : Nat) : Bool := decide (448 ≤ x)

/-- A vector destination code: e24 to e31 (440 to 447) admit no write (R55). -/
def badDst (x : Nat) : Bool := decide (440 ≤ x)

/-- f32, f16, bf16 (R201). -/
def isFloatFmt (f : Nat) : Bool := decide (f ≤ 2)

/-- i8 to i64 and n8 to n64 (R201). -/
def isIntFmt (f : Nat) : Bool := decide (8 ≤ f ∧ f ≤ 15)

/-- The lane formats of R201. -/
def isLaneFmt (f : Nat) : Bool := decide (f ≤ 4) || isIntFmt f

/-- The formats of VRED and VSCAN (R217). -/
def isRedFmt (f : Nat) : Bool := isFloatFmt f || (isIntFmt f && f != 11 && f != 15)

/-- i32, i64, n32, n64 (R162). -/
def isAtomFmt (f : Nat) : Bool := f == 10 || f == 11 || f == 14 || f == 15

/-- The element width of a format code (R108). -/
def fmtWidth (f : Nat) : Nat :=
  match f with
  | 0 => 32 | 1 => 16 | 2 => 16 | 3 => 8 | 4 => 8 | 5 => 6 | 6 => 6 | 7 => 4
  | 8 => 8 | 9 => 16 | 10 => 32 | 11 => 64
  | 12 => 8 | 13 => 16 | 14 => 32 | 15 => 64
  | 16 => 32
  | n => n - 15

/-- Elements in a vector register (R201). -/
def lanes (f : Nat) : Nat := 1024 / fmtWidth f

/-- Registers that 128 elements of a format fill (R240). -/
def mrankRegs (f : Nat) : Nat := cdiv (128 * fmtWidth f) 1024

/-- The special-register numbers that name a register (R61, R392). -/
def srAssigned (n : Nat) : Bool :=
  decide (n ≤ 0x06) || decide (0x08 ≤ n ∧ n ≤ 0x0D) || decide (0x10 ≤ n ∧ n ≤ 0x1C) ||
  decide (0x20 ≤ n ∧ n ≤ 0x24) || n == 0x28 || n == 0x29 || decide (0x40 ≤ n ∧ n ≤ 0x6F)

/-- The attribute block against R250: the admitted ORD values, and whether SC, CLS and LAT may be non-zero.
NM is used with SC = 7 alone, and an unused field must be zero (R161, R399; log entry 106). -/
def Attr.admits (x : Attr) (ords : List Nat) (sc cls lat : Bool) : Bool :=
  ords.contains x.ord && (sc || x.sc == 0) && (x.sc == 7 || x.nm == 0) && (cls || x.cls == 0) && (lat || x.lat == 0)

/-- The cause of a slot's own fields: 0x03 before 0x04 (R372, R389). -/
def causeOf (operands fields : List Bool) : Option Cause :=
  if operands.any id then some .illegalOperand else if fields.any id then some .reservedField else none

/-- The encoding cause of an instruction's fields, if it has one (R389, R392, R395, R397, R398, R399). MLATCH admits AA = 31:
R248 lists it with MOP's limit, R398 gives no cause for it, and it reads one address (log entry 128). -/
def Instr.encCause : Instr → Option Cause
  | .nop => none
  | .br f => causeOf [] [decide (6 ≤ f.cc)]
  | .jmp _ => none
  | .jmpr f => causeOf [] [f.lk != 0]
  | .call _ => none
  | .callr _ => none
  | .ret f => causeOf [] [f.lk != 0]
  | .loop f => causeOf [] [decide (6 ≤ f.lv)]
  | .bswap _ => none
  | .join _ => none
  | .detach => none
  | .ifence => none
  | .ypoint => none
  | .yield => none
  | .exit => none
  | .hold _ => none
  | .trap _ => none
  | .rtt => none
  | .bkpt _ => none
  | .svcNull => none
  | .svcEvent => none
  | .svcAbort => none
  | .svcReside => none
  | .svcGroupinfo => none
  | .svcUnassigned f => causeOf [] [decide (f.imm < 5)]
  | .add f => causeOf [] [f.f != 0, f.c != 0]
  | .addi _ => none
  | .sub f => causeOf [] [f.f != 0, f.c != 0]
  | .mul f => causeOf [] [f.f != 0, f.c != 0]
  | .mulh f => causeOf [] [f.f != 0, f.c != 0]
  | .mulhn f => causeOf [] [f.f != 0, f.c != 0]
  | .div f => causeOf [] [f.f != 0, f.c != 0]
  | .divn f => causeOf [] [f.f != 0, f.c != 0]
  | .rem f => causeOf [] [f.f != 0, f.c != 0]
  | .remn f => causeOf [] [f.f != 0, f.c != 0]
  | .and f => causeOf [] [f.f != 0, f.c != 0]
  | .or f => causeOf [] [f.f != 0, f.c != 0]
  | .xor f => causeOf [] [f.f != 0, f.c != 0]
  | .andn f => causeOf [] [f.f != 0, f.c != 0]
  | .shl f => causeOf [] [f.f != 0, f.c != 0]
  | .shr f => causeOf [] [f.f != 0, f.c != 0]
  | .sar f => causeOf [] [f.f != 0, f.c != 0]
  | .rol f => causeOf [] [f.f != 0, f.c != 0]
  | .min f => causeOf [] [f.f != 0, f.c != 0]
  | .max f => causeOf [] [f.f != 0, f.c != 0]
  | .minn f => causeOf [] [f.f != 0, f.c != 0]
  | .maxn f => causeOf [] [f.f != 0, f.c != 0]
  | .cmp f => causeOf [] [decide (6 ≤ f.f), f.c != 0]
  | .sel f => causeOf [] [f.f != 0]
  | .mov f => causeOf [] [f.b != 0, f.f != 0, f.c != 0]
  | .movi _ => none
  | .movhi _ => none
  | .clz f => causeOf [] [f.b != 0, f.f != 0, f.c != 0]
  | .ctz f => causeOf [] [f.b != 0, f.f != 0, f.c != 0]
  | .popc f => causeOf [] [f.b != 0, f.f != 0, f.c != 0]
  | .brev f => causeOf [] [f.b != 0, f.f != 0, f.c != 0]
  | .bext f => causeOf [decide (64 < f.pos + f.len + 1)] []
  | .bins f => causeOf [decide (64 < f.pos + f.len + 1)] []
  | .lea f => causeOf [decide (32 ≤ f.d), decide (32 ≤ f.a)] [f.c != 0]
  | .adda f => causeOf [decide (32 ≤ f.d), decide (32 ≤ f.a)] [f.f != 0, f.c != 0]
  | .movaToAddress f => causeOf [decide (32 ≤ f.d)] [f.b != 0, f.c != 0, f.f != 0]
  | .movaToScalar f => causeOf [decide (32 ≤ f.a)] [f.b != 0, f.c != 0, f.f != 1]
  | .mfs f => causeOf [] [!srAssigned f.reg]
  | .mts f => causeOf [] [!srAssigned f.reg]
  | .rdcyc f => causeOf [] [f.a != 0, f.b != 0, f.f != 0, f.c != 0]
  | .vadd f => causeOf [badDst f.d, badSrc f.a, badSrc f.b] [!isFloatFmt f.fmt, decide (4 ≤ f.rm), f.c != 0, f.xf != 0]
  | .vsub f => causeOf [badDst f.d, badSrc f.a, badSrc f.b] [!isFloatFmt f.fmt, decide (4 ≤ f.rm), f.c != 0, f.xf != 0]
  | .vmul f => causeOf [badDst f.d, badSrc f.a, badSrc f.b] [!isFloatFmt f.fmt, decide (4 ≤ f.rm), f.c != 0, f.xf != 0]
  | .vfma f => causeOf [badDst f.d, badSrc f.a, badSrc f.b, badSrc f.c] [!isFloatFmt f.fmt, decide (4 ≤ f.rm), f.xf != 0]
  | .vfms f => causeOf [badDst f.d, badSrc f.a, badSrc f.b, badSrc f.c] [!isFloatFmt f.fmt, decide (4 ≤ f.rm), f.xf != 0]
  | .vfnma f => causeOf [badDst f.d, badSrc f.a, badSrc f.b, badSrc f.c] [!isFloatFmt f.fmt, decide (4 ≤ f.rm), f.xf != 0]
  | .vmin f => causeOf [badDst f.d, badSrc f.a, badSrc f.b] [!isFloatFmt f.fmt, decide (4 ≤ f.rm), f.c != 0, f.xf != 0]
  | .vmax f => causeOf [badDst f.d, badSrc f.a, badSrc f.b] [!isFloatFmt f.fmt, decide (4 ≤ f.rm), f.c != 0, f.xf != 0]
  | .vabs f => causeOf [badDst f.d, badSrc f.a] [!isFloatFmt f.fmt, f.b != 0, f.c != 0, f.rm != 0, f.xf != 0]
  | .vneg f => causeOf [badDst f.d, badSrc f.a] [!isFloatFmt f.fmt, f.b != 0, f.c != 0, f.rm != 0, f.xf != 0]
  | .vclamp f => causeOf [badDst f.d, badSrc f.a, badSrc f.b, badSrc f.c] [!isFloatFmt f.fmt, decide (4 ≤ f.rm), f.xf != 0]
  | .vrcp f => causeOf [badDst f.d, badSrc f.a] [!isFloatFmt f.fmt, f.b != 0, f.c != 0, f.rm != 0, f.xf != 0]
  | .vrsq f => causeOf [badDst f.d, badSrc f.a] [!isFloatFmt f.fmt, f.b != 0, f.c != 0, f.rm != 0, f.xf != 0]
  | .vsqrt f => causeOf [badDst f.d, badSrc f.a] [!isFloatFmt f.fmt, f.b != 0, f.c != 0, f.rm != 0, f.xf != 0]
  | .vexp2 f => causeOf [badDst f.d, badSrc f.a] [!isFloatFmt f.fmt, f.b != 0, f.c != 0, f.rm != 0, f.xf != 0]
  | .vlog2 f => causeOf [badDst f.d, badSrc f.a] [!isFloatFmt f.fmt, f.b != 0, f.c != 0, f.rm != 0, f.xf != 0]
  | .viadd f => causeOf [badDst f.d, badSrc f.a, badSrc f.b] [!isIntFmt f.fmt, f.c != 0, f.rm != 0, f.xf != 0]
  | .visub f => causeOf [badDst f.d, badSrc f.a, badSrc f.b] [!isIntFmt f.fmt, f.c != 0, f.rm != 0, f.xf != 0]
  | .vimul f => causeOf [badDst f.d, badSrc f.a, badSrc f.b] [!isIntFmt f.fmt, f.c != 0, f.rm != 0, f.xf != 0]
  | .vimad f => causeOf [badDst f.d, badSrc f.a, badSrc f.b, badSrc f.c] [!isIntFmt f.fmt, f.rm != 0, f.xf != 0]
  | .vimin f => causeOf [badDst f.d, badSrc f.a, badSrc f.b] [!isIntFmt f.fmt, f.c != 0, f.rm != 0, f.xf != 0]
  | .vimax f => causeOf [badDst f.d, badSrc f.a, badSrc f.b] [!isIntFmt f.fmt, f.c != 0, f.rm != 0, f.xf != 0]
  | .vand f => causeOf [badDst f.d, badSrc f.a, badSrc f.b] [!isIntFmt f.fmt, f.c != 0, f.rm != 0, f.xf != 0]
  | .vor f => causeOf [badDst f.d, badSrc f.a, badSrc f.b] [!isIntFmt f.fmt, f.c != 0, f.rm != 0, f.xf != 0]
  | .vxor f => causeOf [badDst f.d, badSrc f.a, badSrc f.b] [!isIntFmt f.fmt, f.c != 0, f.rm != 0, f.xf != 0]
  | .vshl f => causeOf [badDst f.d, badSrc f.a, badSrc f.b] [!isIntFmt f.fmt, f.c != 0, f.rm != 0, f.xf != 0]
  | .vshr f => causeOf [badDst f.d, badSrc f.a, badSrc f.b] [!isIntFmt f.fmt, f.c != 0, f.rm != 0, f.xf != 0]
  | .vsar f => causeOf [badDst f.d, badSrc f.a, badSrc f.b] [!isIntFmt f.fmt, f.c != 0, f.rm != 0, f.xf != 0]
  | .vcmp f => causeOf [decide (16 ≤ f.d), badSrc f.a, badSrc f.b] [!(isFloatFmt f.fmt || isIntFmt f.fmt), decide (8 ≤ f.xf), f.c != 0, f.rm != 0]
  | .vsel f => causeOf [badDst f.d, badSrc f.a, badSrc f.b] [!isLaneFmt f.fmt, f.c != 0, f.rm != 0, f.xf != 0]
  | .vmov f => causeOf [badDst f.d, badSrc f.a] [!isLaneFmt f.fmt, f.b != 0, f.c != 0, f.rm != 0, f.xf != 0]
  | .vmovi f => causeOf [badDst f.d] [!(isFloatFmt f.fmt || isIntFmt f.fmt)]
  | .vbcast f => causeOf [badDst f.d, decide (64 ≤ f.a)] [!isLaneFmt f.fmt, f.b != 0, f.c != 0, f.rm != 0, f.xf != 0]
  | .vins f => causeOf [badDst f.d, decide (64 ≤ f.a)] [!isLaneFmt f.fmt, decide (lanes f.fmt ≤ f.xf), f.b != 0, f.c != 0, f.rm != 0, f.p != 0]
  | .vext f => causeOf [decide (64 ≤ f.d), badSrc f.a] [!isLaneFmt f.fmt, decide (lanes f.fmt ≤ f.xf), f.b != 0, f.c != 0, f.rm != 0, f.p != 0]
  | .vperm f => causeOf [badDst f.d, badSrc f.a, badSrc f.b] [!isLaneFmt f.fmt, f.c != 0, f.rm != 0, f.xf != 0]
  | .vslide f => causeOf [badDst f.d, badSrc f.a, badSrc f.b] [!isLaneFmt f.fmt, decide (lanes f.fmt < f.xf), f.c != 0, f.rm != 0]
  | .vzip f => causeOf [badDst f.d, badSrc f.a, badSrc f.b] [!isLaneFmt f.fmt, decide (2 ≤ f.xf), f.c != 0, f.rm != 0]
  | .vunzip f => causeOf [badDst f.d, badSrc f.a, badSrc f.b] [!isLaneFmt f.fmt, decide (2 ≤ f.xf), f.c != 0, f.rm != 0]
  | .vred f => causeOf [badDst f.d, badSrc f.a] [!isRedFmt f.fmt, decide (7 ≤ f.xf), decide (4 ≤ f.xf) && isFloatFmt f.fmt, f.b != 0, f.c != 0, f.rm != 0]
  | .vscan f => causeOf [badDst f.d, badSrc f.a] [!isRedFmt f.fmt, decide (7 ≤ f.xf), decide (4 ≤ f.xf) && isFloatFmt f.fmt, f.b != 0, f.c != 0, f.rm != 0]
  | .vcvt f => causeOf [badDst f.d, badSrc f.a] [decide (15 < f.sfmt), decide (15 < f.dfmt), decide (4 < f.rm), f.rm != 4 && (f.sb != 0 || f.n != 0), f.pw != 0]
  | .vsrnd f => causeOf [badDst f.d, badSrc f.a] [!isFloatFmt f.sfmt, !((decide (3 ≤ f.dfmt) && decide (f.dfmt ≤ 7)) || ((f.dfmt == 1 || f.dfmt == 2) && f.sfmt == 0)), decide (4 < f.rm), f.rm != 4 && (f.sb != 0 || f.n != 0), f.pw != 0]
  | .vblock f => causeOf [decide (382 < f.d), decide (382 < f.a)] [!isFloatFmt f.sfmt, decide (f.dfmt < 17), decide (4 < f.rm), f.rm != 4 && (f.sb != 0 || f.n != 0)]
  | .vunblock f => causeOf [decide (382 < f.d), decide (382 < f.a)] [!isFloatFmt f.dfmt, decide (f.sfmt < 17), decide (3 < f.rm), f.pw != 0, f.sb != 0, f.n != 0]
  | .vcompress f => causeOf [badDst f.d, decide (384 ≤ f.c), f.d == f.c, badSrc f.a] [!isLaneFmt f.fmt, f.b != 0, f.p != 0, f.rm != 0, f.xf != 0]
  | .vexpand f => causeOf [badDst f.d, badSrc f.a, badSrc f.b] [!isLaneFmt f.fmt, f.c != 0, f.p != 0, f.rm != 0, f.xf != 0]
  | .vpcnt f => causeOf [decide (64 ≤ f.d), decide (16 ≤ f.a)] [!isLaneFmt f.fmt, f.b != 0, f.c != 0, f.p != 0, f.rm != 0, f.xf != 0]
  | .pand f => causeOf [decide (16 ≤ f.d), decide (16 ≤ f.a), decide (16 ≤ f.b)] [f.c != 0, f.p != 0, f.fmt != 0, f.rm != 0, f.xf != 0]
  | .por f => causeOf [decide (16 ≤ f.d), decide (16 ≤ f.a), decide (16 ≤ f.b)] [f.c != 0, f.p != 0, f.fmt != 0, f.rm != 0, f.xf != 0]
  | .pxor f => causeOf [decide (16 ≤ f.d), decide (16 ≤ f.a), decide (16 ≤ f.b)] [f.c != 0, f.p != 0, f.fmt != 0, f.rm != 0, f.xf != 0]
  | .pnot f => causeOf [decide (16 ≤ f.d), decide (16 ≤ f.a)] [f.b != 0, f.c != 0, f.p != 0, f.fmt != 0, f.rm != 0, f.xf != 0]
  | .vrand f => causeOf [badDst f.d] [!(f.dfmt == 14 || f.dfmt == 0), f.a != 0, f.sfmt != 0, f.rm != 0, f.pw != 0]
  | .ld f => causeOf [decide (64 ≤ f.d)] [!isIntFmt f.fmt, !Attr.admits f.at_ [0, 1] true true true]
  | .st f => causeOf [decide (64 ≤ f.d)] [!isIntFmt f.fmt, !Attr.admits f.at_ [0, 2] true true false]
  | .vld f => causeOf [badDst f.d] [f.fmt != 0, !Attr.admits f.at_ [0, 1] true true true]
  | .vst f => causeOf [badSrc f.d] [f.fmt != 0, !Attr.admits f.at_ [0, 2] true true false]
  | .vldt f => causeOf [badDst f.d] [!Attr.admits f.at_ [0, 1] true true true]
  | .vstt f => causeOf [badSrc f.d] [!Attr.admits f.at_ [0, 2] true true false]
  | .vgath f => causeOf [badDst f.d, decide (384 ≤ f.ix)] [!isLaneFmt f.fmt, !Attr.admits f.at_ [0, 1] true true true]
  | .vscat f => causeOf [badSrc f.d, decide (384 ≤ f.ix)] [!isLaneFmt f.fmt, !Attr.admits f.at_ [0, 2] true true false]
  | .ldf f => causeOf [decide (64 ≤ f.d)] [f.fmt != 0, !Attr.admits f.at_ [0] false false true]
  | .ldfk f => causeOf [decide (64 ≤ f.d)] [f.fmt != 0, !Attr.admits f.at_ [0] false false true]
  | .ste f => causeOf [decide (64 ≤ f.d)] [f.fmt != 0, !Attr.admits f.at_ [0] false false false]
  | .feset f => causeOf [decide (64 ≤ f.d)] [f.fmt != 0, !Attr.admits f.at_ [0] false false false]
  | .feprobe f => causeOf [decide (64 ≤ f.d)] [f.fmt != 0, !Attr.admits f.at_ [0] false false true]
  | .atom f => causeOf [] [!isAtomFmt f.fmt, decide (8 < f.k), !Attr.admits f.at_ [0, 1, 2, 3] true true true]
  | .atomcas f => causeOf [] [!isAtomFmt f.fmt, !Attr.admits f.at_ [0, 1, 2, 3] true true true]
  | .semadd f => causeOf [] [f.far == 0 && f.dev != 0, !Attr.admits f.at_ [0, 2] true true false]
  | .semset f => causeOf [] [f.far == 0 && f.dev != 0, !Attr.admits f.at_ [0, 2] true true false]
  | .semwait f => causeOf [] [f.far != 0, f.core != 0, f.dev != 0, !Attr.admits f.at_ [0, 1] true true false]
  | .semrd f => causeOf [] [f.far != 0, f.core != 0, f.dev != 0, !Attr.admits f.at_ [0, 1] true true true]
  | .cntwait f => causeOf [] [f.q != 0, f.dir != 0, !Attr.admits f.at_ [0, 1] true true false]
  | .fence f => causeOf [] [!Attr.admits f.at_ [0, 1, 2, 3] true false false, f.at_.ev != 0]
  | .tokacq f => causeOf [] [f.core != 0, f.ad != 0, f.ring != 0, !Attr.admits f.at_ [0] false false false]
  | .tokpass f => causeOf [] [f.ad != 0, f.ring != 0, !Attr.admits f.at_ [0] false false false]
  | .bufacq f => causeOf [] [f.tok != 0, f.core != 0, !Attr.admits f.at_ [0] false false true]
  | .bufrel f => causeOf [] [f.tok != 0, f.core != 0, f.ad != 0, !Attr.admits f.at_ [0] false false false]
  | .discard f => causeOf [decide (64 ≤ f.d)] [f.fmt != 0, !Attr.admits f.at_ [0] true true false]
  | .wback f => causeOf [decide (64 ≤ f.d)] [f.fmt != 0, !Attr.admits f.at_ [0] true true false]
  | .inval f => causeOf [decide (64 ≤ f.d)] [f.fmt != 0, !Attr.admits f.at_ [0] true true false]
  | .iinval f => causeOf [decide (64 ≤ f.d)] [f.fmt != 0, !Attr.admits f.at_ [0] true true false]
  | .pref f => causeOf [decide (64 ≤ f.d)] [f.fmt != 0, !Attr.admits f.at_ [0] true true false]
  | .rld f => causeOf [if f.fmt == 0 then badDst f.d else decide (64 ≤ f.d)] [!(f.fmt == 0 || isIntFmt f.fmt), f.at_.ord != 0 && f.at_.sc != 6, !Attr.admits f.at_ [0, 1] true true true]
  | .rst f => causeOf [if f.fmt == 0 then badSrc f.d else decide (64 ≤ f.d)] [!(f.fmt == 0 || isIntFmt f.fmt), f.at_.ord != 0 && f.at_.sc != 6, !Attr.admits f.at_ [0, 2] true true false]
  | .ratom f => causeOf [f.k == 9 && decide (62 < f.sb)] [!isAtomFmt f.fmt, decide (9 < f.k), f.at_.ord != 0 && f.at_.sc != 6, !Attr.admits f.at_ [0, 1, 3] true true true]
  | .tickwait f => causeOf [] [f.ab != 0, f.q != 0, f.dir != 0, !Attr.admits f.at_ [0] false false true]
  | .replay f => causeOf [] [f.s != 0, f.ab != 0, f.q != 0, f.dir != 0, !Attr.admits f.at_ [0] false false false]
  | .sbind f => causeOf [] [f.s != 0, !Attr.admits f.at_ [0] true true false]
  | .sdone f => causeOf [] [f.s != 0, f.ab != 0, f.dir != 0, !Attr.admits f.at_ [0] false false false]
  | .haul f => causeOf [] [f.s2 != 0, !Attr.admits f.at_ [0] true true false]
  | .haulg f => causeOf [] [f.s2 != 0, !Attr.admits f.at_ [0] true true false]
  | .hgath f => causeOf [] [f.s2 != 0, !Attr.admits f.at_ [0] true true false]
  | .hscat f => causeOf [] [f.s2 != 0, !Attr.admits f.at_ [0] true true false]
  | .hstat f => causeOf [] [f.ab != 0, f.rpt != 0, f.rv != 0, f.s2 != 0, !Attr.admits f.at_ [0] false false true, f.at_.ev != 0]
  | .protect f => causeOf [] [f.eng != 0, f.rpt != 0, f.rv != 0, !Attr.admits f.at_ [0] false false false, f.at_.ev != 0]
  | .unprotect f => causeOf [] [f.eng != 0, f.rpt != 0, f.rv != 0, !Attr.admits f.at_ [0] false false false, f.at_.ev != 0]
  | .belay f => causeOf [] [f.s != 0, f.ab != 0, f.eng != 0, f.rpt != 0, f.rv != 0, f.s2 != 0, !Attr.admits f.at_ [0] false false false, f.at_.ev != 0]
  | .bwait f => causeOf [] [f.ab != 0, f.eng != 0, f.rpt != 0, f.rv != 0, !Attr.admits f.at_ [0] false false true, f.at_.ev != 0]
  | .pitchrd f => causeOf [] [f.ab != 0, f.eng != 0, f.rpt != 0, f.rv != 0, f.s2 != 0, !Attr.admits f.at_ [0] false false true, f.at_.ev != 0]
  | .mlatch f => causeOf [] [f.wb == 0]
  | .mop f => causeOf [decide (30 < f.aa)] [f.wa == 0, f.wb == 0, f.am != 0]
  | .mops f => causeOf [decide (30 < f.aa)] [f.wa == 0, f.wb == 0]
  | .mopr f => causeOf [decide (30 < f.aa)] [f.wa == 0, f.wb == 0, f.am != 0]
  | .mrank1 f => causeOf [decide (383 < f.vx + mrankRegs f.fmt - 1), decide (383 < f.vy + mrankRegs f.fmt - 1)] [decide (4 < f.fmt)]
  | .mzero f => causeOf [] [f.s != 0, decide (1 < f.opt)]
  | .mloss f => causeOf [] [f.opt != 0]
  | .mdrain f => causeOf [] [f.s != 0, f.opt != 0, f.lat != 0]
  | .mstat f => causeOf [] [f.opt != 0]
  | .oread f => causeOf [badDst f.v] [!isLaneFmt f.fmt]
  | .owrite f => causeOf [badSrc f.v] [!(isFloatFmt f.fmt || isIntFmt f.fmt)]
  | .omom f => causeOf [] [decide (2 < f.wfmt), decide (4 < f.rm), f.rm != 4 && (f.sb != 0 || f.n != 0), f.am2 != 0]
  | .oadam f => causeOf [decide (61 < f.sh)] [decide (2 < f.wfmt), decide (4 < f.rm), f.rm != 4 && (f.sb != 0 || f.n != 0)]
  | .pusht f => causeOf [] [f.opt != 0, f.lat != 0]
  | .popt f => causeOf [] [decide (1 < f.opt), f.lat != 0]
  | .tstk f => causeOf [] [f.aa != 0, decide (4 < f.opt)]
  | .holdBundle => none
  | .emptyBundle => none
  | .streamRead _ _ => none
  | .privateFetchRead _ => none
  | .leadOutcome _ _ => none
  | .joinComplete _ _ => none
  | .resultLand _ _ => none
  | .poisonAtBound _ _ => none
  | .trapEntry _ => none
  | .rollback _ _ _ => none
  | .reserve _ _ => none
  | .commit _ _ => none
  | .release _ _ => none
  | .ropeLoadDone _ => none
  | .gangStart _ => none
  | .ropePartDone _ => none
  | .placementRetry _ => none
  | .preemptRequest _ => none
  | .forcedFreeze _ => none
  | .gangSave _ => none
  | .gangResume _ => none
  | .mxCommandStart _ _ => none
  | .mxCommandLand _ _ => none
  | .moprRendezvousStart _ _ => none
  | .spillEntry _ => none
  | .fillEntry _ => none
  | .streamPortFill _ _ => none
  | .streamPortDrain _ _ => none
  | .haulCommandStart _ => none
  | .haulCompletion _ _ => none
  | .engineTicketReplay _ => none
  | .tokenArrival _ _ => none
  | .reloadComplete _ _ => none
  | .remoteReply _ _ _ _ => none
  | .faultTicket _ _ _ => none
  | .fabricRequestServe _ => none
  | .ingressWalkComplete _ => none
  | .replayNoticePost _ => none
  | .replayNotice _ => none
  | .semMessage _ => none
  | .noticeResend _ => none
  | .stallEntryExpire _ => none
  | .ticketTimeout _ _ => none
  | .requestDeadline _ _ => none
  | .replyEgressDiscard _ => none
  | .beforeImageCapture _ => none
  | .belayOpen _ => none
  | .deltaWrite _ _ _ => none
  | .memberVote _ => none
  | .vote _ => none
  | .belayCommitMsg _ => none
  | .belayAbortMsg _ => none
  | .belayTimeout _ => none
  | .query _ => none
  | .decision _ => none
  | .estimatorWindow => none
  | .probePeriod _ => none
  | .recordRead _ _ => none
  | .recordReadReply _ _ _ _ => none
  | .rebuildUnit _ _ _ _ => none
  | .rebuildWindowRead _ _ => none
  | .rebuildWrite _ _ _ => none
  | .rebuildEnd _ _ _ => none
  | .lineRepair _ _ => none
  | .gctlEnable _ => none
  | .gctlDisable _ => none
  | .groupZeroingDone _ => none
  | .gownWrite _ _ => none
  | .kick _ _ => none
  | .packetAccept _ => none
  | .dependenceMet _ => none
  | .gangComplete _ => none
  | .eprioAgeing _ => none
  | .mappingDecision => none
  | .watchdogCheck _ => none
  | .saveTimeout _ => none
  | .queueRecordWrite _ _ _ _ => none
  | .qctlErrClear _ => none
  | .evackWrite _ => none
  | .eventRingConfigWrite _ _ => none
  | .flogsizeWrite _ => none
  | .egressSwitch _ => none
  | .egressPairSwitch _ _ => none
  | .d2dRouteSwitch _ _ => none
  | .multicastForward _ => none
  | .flitReplay _ => none
  | .stationRetrain _ => none
  | .retrainComplete _ => none
  | .retrainTimeout _ => none
  | .bucketLeak _ => none
  | .stationRetClear _ => none
  | .fabricEnableWrite _ => none
  | .d2dLaneRetrain _ _ => none
  | .heartbeatCheck _ => none
  | .powerCompare _ => none
  | .zoneWarn _ _ => none
  | .zoneCrit _ _ => none
  | .selfRefreshExit _ _ => none
  | .bankRefresh _ _ => none
  | .scrubIssue _ _ => none
  | .pageMigration _ _ => none
  | .tlbInvalidation _ _ _ => none
  | .pageWalkComplete _ _ _ => none
  | .atsCompletion _ _ _ _ => none
  | .atsRetry _ => none
  | .priResponse _ _ => none
  | .priTimeout _ => none
  | .atsInvalidation _ _ _ => none
  | .bar2Write _ _ => none
  | .bar2Read _ _ => none
  | .pcieCorrectableError _ => none
  | .pciePoisonedTlp _ _ => none
  | .pcieCompletionError _ _ => none
  | .unexpectedCompletion _ => none
  | .pcieFatalError _ => none
  | .pcieLinkDown => none
  | .coldReset => none
  | .fundamentalReset => none
  | .functionLevelReset => none
  | .bootTrainingDone => none
  | .bootctlGo _ => none
  | .bootVerify => none
  | .doeDiscovery _ => none
  | .getDigests => none
  | .getCertificate _ _ => none
  | .challenge _ => none
  | .getMeasurements _ => none
  | .keyExchange _ => none
  | .finish _ => none
  | .ideKm _ _ => none
  | .registerWrite _ _ _ => none
  | .regionRegistered _ => none
  | .stagingSplitWrite _ _ _ => none
  | .exportSpaceDesignation _ _ => none
  | .zoneBelowWarn _ _ => none
  | .d2dLaneGroupUp _ _ => none

end Sys2Proof
end

