-- ==== Sys2Proof/Decode.lean ====
section
/-! DEFINITION. Reading a slot's bits (R142, R145, R152 to R166), writing them, and reading index words and bundles
(R143, R144, R167). Decoding is total: what names no instruction is refused by its cause (R389, R390). -/

namespace Sys2Proof

/-- The slot opcode (R145). -/
def opcodeOf (w : Nat) : Nat := fld w 0 8

/-- The attribute block at slot bits [63:39] (R161). -/
def Attr.ofBits (w : Nat) : Attr :=
  { cls := fld w 39 4, ord := fld w 43 2, sc := fld w 45 3, nm := fld w 48 3, ev := fld w 51 3, lat := fld w 54 10 }

/-- The attribute block in its place. -/
def Attr.bits (x : Attr) : Nat :=
  x.cls * 2 ^ 39 + x.ord * 2 ^ 43 + x.sc * 2 ^ 45 + x.nm * 2 ^ 48 + x.ev * 2 ^ 51 + x.lat * 2 ^ 54

/-- Format CT: the fields of a slot word. -/
def CT.ofBits (w : Nat) : CT :=
  { word := fld w 8 15 }

/-- Format CT: its fields in their places. -/
def CT.bits (x : CT) : Nat :=
  x.word * 2 ^ 8

/-- Format CL: the fields of a slot word. -/
def CL.ofBits (w : Nat) : CL :=
  { word := fld w 8 15, lk := fld w 23 5 }

/-- Format CL: its fields in their places. -/
def CL.bits (x : CL) : Nat :=
  x.word * 2 ^ 8 + x.lk * 2 ^ 23

/-- Format CB: the fields of a slot word. -/
def CB.ofBits (w : Nat) : CB :=
  { word := fld w 8 15, cc := fld w 23 3, ss := fld w 26 6 }

/-- Format CB: its fields in their places. -/
def CB.bits (x : CB) : Nat :=
  x.word * 2 ^ 8 + x.cc * 2 ^ 23 + x.ss * 2 ^ 26

/-- Format CR: the fields of a slot word. -/
def CR.ofBits (w : Nat) : CR :=
  { tgt := fld w 8 5, lk := fld w 13 5 }

/-- Format CR: its fields in their places. -/
def CR.bits (x : CR) : Nat :=
  x.tgt * 2 ^ 8 + x.lk * 2 ^ 13

/-- Format CP: the fields of a slot word. -/
def CP.ofBits (w : Nat) : CP :=
  { last := fld w 8 15, lv := fld w 23 3, ss := fld w 26 6 }

/-- Format CP: its fields in their places. -/
def CP.bits (x : CP) : Nat :=
  x.last * 2 ^ 8 + x.lv * 2 ^ 23 + x.ss * 2 ^ 26

/-- Format CJ: the fields of a slot word. -/
def CJ.ofBits (w : Nat) : CJ :=
  { mask := fld w 8 8 }

/-- Format CJ: its fields in their places. -/
def CJ.bits (x : CJ) : Nat :=
  x.mask * 2 ^ 8

/-- Format CI: the fields of a slot word. -/
def CI.ofBits (w : Nat) : CI :=
  { imm := fld w 8 16 }

/-- Format CI: its fields in their places. -/
def CI.bits (x : CI) : Nat :=
  x.imm * 2 ^ 8

/-- Format AR: the fields of a slot word. -/
def AR.ofBits (w : Nat) : AR :=
  { d := fld w 8 6, a := fld w 14 6, b := fld w 20 6, f := fld w 26 4, c := fld w 30 6 }

/-- Format AR: its fields in their places. -/
def AR.bits (x : AR) : Nat :=
  x.d * 2 ^ 8 + x.a * 2 ^ 14 + x.b * 2 ^ 20 + x.f * 2 ^ 26 + x.c * 2 ^ 30

/-- Format AB: the fields of a slot word. -/
def AB.ofBits (w : Nat) : AB :=
  { d := fld w 8 6, a := fld w 14 6, pos := fld w 20 6, len := fld w 26 6 }

/-- Format AB: its fields in their places. -/
def AB.bits (x : AB) : Nat :=
  x.d * 2 ^ 8 + x.a * 2 ^ 14 + x.pos * 2 ^ 20 + x.len * 2 ^ 26

/-- Format AI: the fields of a slot word. -/
def AI.ofBits (w : Nat) : AI :=
  { d := fld w 8 6, a := fld w 14 6, imm := sgn 28 (fld w 20 28) }

/-- Format AI: its fields in their places. -/
def AI.bits (x : AI) : Nat :=
  x.d * 2 ^ 8 + x.a * 2 ^ 14 + wrap 28 x.imm * 2 ^ 20

/-- Format AM: the fields of a slot word. -/
def AM.ofBits (w : Nat) : AM :=
  { d := fld w 8 6, imm := fld w 14 32 }

/-- Format AM: its fields in their places. -/
def AM.bits (x : AM) : Nat :=
  x.d * 2 ^ 8 + x.imm * 2 ^ 14

/-- Format AS: the fields of a slot word. -/
def AS.ofBits (w : Nat) : AS :=
  { s := fld w 8 6, reg := fld w 14 8 }

/-- Format AS: its fields in their places. -/
def AS.bits (x : AS) : Nat :=
  x.s * 2 ^ 8 + x.reg * 2 ^ 14

/-- Format V3: the fields of a slot word. -/
def V3.ofBits (w : Nat) : V3 :=
  { d := fld w 8 9, a := fld w 17 9, b := fld w 26 9, c := fld w 35 9, p := fld w 44 4, fmt := fld w 48 5, rm := fld w 53 3, xf := fld w 56 8 }

/-- Format V3: its fields in their places. -/
def V3.bits (x : V3) : Nat :=
  x.d * 2 ^ 8 + x.a * 2 ^ 17 + x.b * 2 ^ 26 + x.c * 2 ^ 35 + x.p * 2 ^ 44 + x.fmt * 2 ^ 48 + x.rm * 2 ^ 53 + x.xf * 2 ^ 56

/-- Format VI: the fields of a slot word. -/
def VI.ofBits (w : Nat) : VI :=
  { d := fld w 8 9, p := fld w 17 4, fmt := fld w 21 5, imm := fld w 26 32 }

/-- Format VI: its fields in their places. -/
def VI.bits (x : VI) : Nat :=
  x.d * 2 ^ 8 + x.p * 2 ^ 17 + x.fmt * 2 ^ 21 + x.imm * 2 ^ 26

/-- Format VK: the fields of a slot word. -/
def VK.ofBits (w : Nat) : VK :=
  { d := fld w 8 9, a := fld w 17 9, sfmt := fld w 26 5, dfmt := fld w 31 5, rm := fld w 36 3, pw := fld w 39 1, sb := fld w 40 6, n := fld w 48 16 }

/-- Format VK: its fields in their places. -/
def VK.bits (x : VK) : Nat :=
  x.d * 2 ^ 8 + x.a * 2 ^ 17 + x.sfmt * 2 ^ 26 + x.dfmt * 2 ^ 31 + x.rm * 2 ^ 36 + x.pw * 2 ^ 39 + x.sb * 2 ^ 40 + x.n * 2 ^ 48

/-- Format LA: the fields of a slot word. -/
def LA.ofBits (w : Nat) : LA :=
  { d := fld w 8 9, ab := fld w 17 5, off := sgn 12 (fld w 22 12), fmt := fld w 34 5, at_ := Attr.ofBits w }

/-- Format LA: its fields in their places. -/
def LA.bits (x : LA) : Nat :=
  x.d * 2 ^ 8 + x.ab * 2 ^ 17 + wrap 12 x.off * 2 ^ 22 + x.fmt * 2 ^ 34 + x.at_.bits

/-- Format LG: the fields of a slot word. -/
def LG.ofBits (w : Nat) : LG :=
  { d := fld w 8 9, ab := fld w 17 5, ix := fld w 22 9, fmt := fld w 34 5, at_ := Attr.ofBits w }

/-- Format LG: its fields in their places. -/
def LG.bits (x : LG) : Nat :=
  x.d * 2 ^ 8 + x.ab * 2 ^ 17 + x.ix * 2 ^ 22 + x.fmt * 2 ^ 34 + x.at_.bits

/-- Format LT: the fields of a slot word. -/
def LT.ofBits (w : Nat) : LT :=
  { d := fld w 8 9, sx := fld w 17 6, tid := fld w 23 12, at_ := Attr.ofBits w }

/-- Format LT: its fields in their places. -/
def LT.bits (x : LT) : Nat :=
  x.d * 2 ^ 8 + x.sx * 2 ^ 17 + x.tid * 2 ^ 23 + x.at_.bits

/-- Format LX: the fields of a slot word. -/
def LX.ofBits (w : Nat) : LX :=
  { d := fld w 8 6, ab := fld w 17 5, sb := fld w 22 6, k := fld w 28 6, fmt := fld w 34 5, at_ := Attr.ofBits w }

/-- Format LX: its fields in their places. -/
def LX.bits (x : LX) : Nat :=
  x.d * 2 ^ 8 + x.ab * 2 ^ 17 + x.sb * 2 ^ 22 + x.k * 2 ^ 28 + x.fmt * 2 ^ 34 + x.at_.bits

/-- Format LS: the fields of a slot word. -/
def LS.ofBits (w : Nat) : LS :=
  { sem := fld w 8 6, core := fld w 14 8, dev := fld w 22 10, far := fld w 32 1, sn := fld w 33 6, at_ := Attr.ofBits w }

/-- Format LS: its fields in their places. -/
def LS.bits (x : LS) : Nat :=
  x.sem * 2 ^ 8 + x.core * 2 ^ 14 + x.dev * 2 ^ 22 + x.far * 2 ^ 32 + x.sn * 2 ^ 33 + x.at_.bits

/-- Format LF: the fields of a slot word. -/
def LF.ofBits (w : Nat) : LF :=
  { mask := fld w 8 16, at_ := Attr.ofBits w }

/-- Format LF: its fields in their places. -/
def LF.bits (x : LF) : Nat :=
  x.mask * 2 ^ 8 + x.at_.bits

/-- Format LK: the fields of a slot word. -/
def LK.ofBits (w : Nat) : LK :=
  { tok := fld w 8 10, core := fld w 18 8, ad := fld w 26 5, ring := fld w 31 4, at_ := Attr.ofBits w }

/-- Format LK: its fields in their places. -/
def LK.bits (x : LK) : Nat :=
  x.tok * 2 ^ 8 + x.core * 2 ^ 18 + x.ad * 2 ^ 26 + x.ring * 2 ^ 31 + x.at_.bits

/-- Format LQ: the fields of a slot word. -/
def LQ.ofBits (w : Nat) : LQ :=
  { s := fld w 8 6, ab := fld w 14 5, q := fld w 19 5, dir := fld w 24 1, at_ := Attr.ofBits w }

/-- Format LQ: its fields in their places. -/
def LQ.bits (x : LQ) : Nat :=
  x.s * 2 ^ 8 + x.ab * 2 ^ 14 + x.q * 2 ^ 19 + x.dir * 2 ^ 24 + x.at_.bits

/-- Format LH: the fields of a slot word. -/
def LH.ofBits (w : Nat) : LH :=
  { s := fld w 8 6, ab := fld w 14 5, eng := fld w 19 4, rpt := fld w 23 3, rv := fld w 26 1, s2 := fld w 27 6, at_ := Attr.ofBits w }

/-- Format LH: its fields in their places. -/
def LH.bits (x : LH) : Nat :=
  x.s * 2 ^ 8 + x.ab * 2 ^ 14 + x.eng * 2 ^ 19 + x.rpt * 2 ^ 23 + x.rv * 2 ^ 26 + x.s2 * 2 ^ 27 + x.at_.bits

/-- Format MM: the fields of a slot word. -/
def MM.ofBits (w : Nat) : MM :=
  { acc := fld w 8 3, w := fld w 11 3, aa := fld w 14 5, wa := fld w 19 4, wb := fld w 23 4, kb := fld w 27 8, rows := fld w 35 7, cols := fld w 42 7, lat := fld w 49 10, am := fld w 59 5 }

/-- Format MM: its fields in their places. -/
def MM.bits (x : MM) : Nat :=
  x.acc * 2 ^ 8 + x.w * 2 ^ 11 + x.aa * 2 ^ 14 + x.wa * 2 ^ 19 + x.wb * 2 ^ 23 + x.kb * 2 ^ 27 + x.rows * 2 ^ 35 + x.cols * 2 ^ 42 + x.lat * 2 ^ 49 + x.am * 2 ^ 59

/-- Format ML: the fields of a slot word. -/
def ML.ofBits (w : Nat) : ML :=
  { w := fld w 11 3, aa := fld w 14 5, sc := fld w 19 5, wb := fld w 24 4, kb := fld w 28 3, cols := fld w 31 7, lat := fld w 38 10 }

/-- Format ML: its fields in their places. -/
def ML.bits (x : ML) : Nat :=
  x.w * 2 ^ 11 + x.aa * 2 ^ 14 + x.sc * 2 ^ 19 + x.wb * 2 ^ 24 + x.kb * 2 ^ 28 + x.cols * 2 ^ 31 + x.lat * 2 ^ 38

/-- Format MR: the fields of a slot word. -/
def MR.ofBits (w : Nat) : MR :=
  { acc := fld w 8 3, vx := fld w 11 9, vy := fld w 20 9, fmt := fld w 29 5, rows := fld w 34 7, cols := fld w 41 7, lat := fld w 48 10 }

/-- Format MR: its fields in their places. -/
def MR.bits (x : MR) : Nat :=
  x.acc * 2 ^ 8 + x.vx * 2 ^ 11 + x.vy * 2 ^ 20 + x.fmt * 2 ^ 29 + x.rows * 2 ^ 34 + x.cols * 2 ^ 41 + x.lat * 2 ^ 48

/-- Format MZ: the fields of a slot word. -/
def MZ.ofBits (w : Nat) : MZ :=
  { acc := fld w 8 3, s := fld w 11 6, opt := fld w 17 8, lat := fld w 25 10 }

/-- Format MZ: its fields in their places. -/
def MZ.bits (x : MZ) : Nat :=
  x.acc * 2 ^ 8 + x.s * 2 ^ 11 + x.opt * 2 ^ 17 + x.lat * 2 ^ 25

/-- Format MV: the fields of a slot word. -/
def MV.ofBits (w : Nat) : MV :=
  { acc := fld w 8 3, v := fld w 11 9, s := fld w 20 6, fmt := fld w 26 5, lat := fld w 31 10 }

/-- Format MV: its fields in their places. -/
def MV.bits (x : MV) : Nat :=
  x.acc * 2 ^ 8 + x.v * 2 ^ 11 + x.s * 2 ^ 20 + x.fmt * 2 ^ 26 + x.lat * 2 ^ 31

/-- Format MO: the fields of a slot word. -/
def MO.ofBits (w : Nat) : MO :=
  { acc := fld w 8 3, aw := fld w 11 5, am1 := fld w 16 5, am2 := fld w 21 5, sh := fld w 26 6, wfmt := fld w 32 5, rm := fld w 37 3, sb := fld w 40 6, n := fld w 46 16 }

/-- Format MO: its fields in their places. -/
def MO.bits (x : MO) : Nat :=
  x.acc * 2 ^ 8 + x.aw * 2 ^ 11 + x.am1 * 2 ^ 16 + x.am2 * 2 ^ 21 + x.sh * 2 ^ 26 + x.wfmt * 2 ^ 32 + x.rm * 2 ^ 37 + x.sb * 2 ^ 40 + x.n * 2 ^ 46

/-- Format MS: the fields of a slot word. -/
def MS.ofBits (w : Nat) : MS :=
  { aa := fld w 8 5, s := fld w 13 6, opt := fld w 19 8, lat := fld w 27 10 }

/-- Format MS: its fields in their places. -/
def MS.bits (x : MS) : Nat :=
  x.aa * 2 ^ 8 + x.s * 2 ^ 13 + x.opt * 2 ^ 19 + x.lat * 2 ^ 27

/-- The ctl opcode map. -/
def decodeCtl (w : Nat) : Option Instr :=
  match opcodeOf w with
  | 0 => some .nop
  | 1 => some (.br (CB.ofBits w))
  | 2 => some (.jmp (CT.ofBits w))
  | 3 => some (.jmpr (CR.ofBits w))
  | 4 => some (.call (CL.ofBits w))
  | 5 => some (.callr (CR.ofBits w))
  | 6 => some (.ret (CR.ofBits w))
  | 7 => some (.loop (CP.ofBits w))
  | 8 => some (.bswap (CT.ofBits w))
  | 9 => some (.join (CJ.ofBits w))
  | 10 => some .detach
  | 11 => some .ifence
  | 12 => some .ypoint
  | 13 => some .yield
  | 14 => some .exit
  | 15 => some (.hold (CI.ofBits w))
  | 16 => some (.trap (CI.ofBits w))
  | 17 => some .rtt
  | 18 => some (.bkpt (CI.ofBits w))
  | 19 =>
    match (CI.ofBits w).imm with
    | 0 => some .svcNull
    | 1 => some .svcEvent
    | 2 => some .svcAbort
    | 3 => some .svcReside
    | 4 => some .svcGroupinfo
    | n + 5 => some (.svcUnassigned { imm := n + 5 })
  | _ => none

/-- The alu opcode map. -/
def decodeAlu (w : Nat) : Option Instr :=
  match opcodeOf w with
  | 0 => some (.add (AR.ofBits w))
  | 1 => some (.addi (AI.ofBits w))
  | 2 => some (.sub (AR.ofBits w))
  | 3 => some (.mul (AR.ofBits w))
  | 4 => some (.mulh (AR.ofBits w))
  | 5 => some (.mulhn (AR.ofBits w))
  | 6 => some (.div (AR.ofBits w))
  | 7 => some (.divn (AR.ofBits w))
  | 8 => some (.rem (AR.ofBits w))
  | 9 => some (.remn (AR.ofBits w))
  | 10 => some (.and (AR.ofBits w))
  | 11 => some (.or (AR.ofBits w))
  | 12 => some (.xor (AR.ofBits w))
  | 13 => some (.andn (AR.ofBits w))
  | 14 => some (.shl (AR.ofBits w))
  | 15 => some (.shr (AR.ofBits w))
  | 16 => some (.sar (AR.ofBits w))
  | 17 => some (.rol (AR.ofBits w))
  | 18 => some (.min (AR.ofBits w))
  | 19 => some (.max (AR.ofBits w))
  | 20 => some (.minn (AR.ofBits w))
  | 21 => some (.maxn (AR.ofBits w))
  | 22 => some (.cmp (AR.ofBits w))
  | 23 => some (.sel (AR.ofBits w))
  | 24 => some (.mov (AR.ofBits w))
  | 25 => some (.movi (AM.ofBits w))
  | 26 => some (.movhi (AM.ofBits w))
  | 27 => some (.clz (AR.ofBits w))
  | 28 => some (.ctz (AR.ofBits w))
  | 29 => some (.popc (AR.ofBits w))
  | 30 => some (.brev (AR.ofBits w))
  | 31 => some (.bext (AB.ofBits w))
  | 32 => some (.bins (AB.ofBits w))
  | 33 => some (.lea (AR.ofBits w))
  | 34 => some (.adda (AR.ofBits w))
  | 35 =>
    match (AR.ofBits w).f with
    | 0 => some (.movaToAddress (AR.ofBits w))
    | 1 => some (.movaToScalar (AR.ofBits w))
    | _ => none
  | 36 => some (.mfs (AS.ofBits w))
  | 37 => some (.mts (AS.ofBits w))
  | 38 => some (.rdcyc (AR.ofBits w))
  | _ => none

/-- The va or vb opcode map. -/
def decodeVec (w : Nat) : Option Instr :=
  match opcodeOf w with
  | 0 => some (.vadd (V3.ofBits w))
  | 1 => some (.vsub (V3.ofBits w))
  | 2 => some (.vmul (V3.ofBits w))
  | 3 => some (.vfma (V3.ofBits w))
  | 4 => some (.vfms (V3.ofBits w))
  | 5 => some (.vfnma (V3.ofBits w))
  | 6 => some (.vmin (V3.ofBits w))
  | 7 => some (.vmax (V3.ofBits w))
  | 8 => some (.vabs (V3.ofBits w))
  | 9 => some (.vneg (V3.ofBits w))
  | 10 => some (.vclamp (V3.ofBits w))
  | 16 => some (.vrcp (V3.ofBits w))
  | 17 => some (.vrsq (V3.ofBits w))
  | 18 => some (.vsqrt (V3.ofBits w))
  | 19 => some (.vexp2 (V3.ofBits w))
  | 20 => some (.vlog2 (V3.ofBits w))
  | 32 => some (.viadd (V3.ofBits w))
  | 33 => some (.visub (V3.ofBits w))
  | 34 => some (.vimul (V3.ofBits w))
  | 35 => some (.vimad (V3.ofBits w))
  | 36 => some (.vimin (V3.ofBits w))
  | 37 => some (.vimax (V3.ofBits w))
  | 38 => some (.vand (V3.ofBits w))
  | 39 => some (.vor (V3.ofBits w))
  | 40 => some (.vxor (V3.ofBits w))
  | 41 => some (.vshl (V3.ofBits w))
  | 42 => some (.vshr (V3.ofBits w))
  | 43 => some (.vsar (V3.ofBits w))
  | 48 => some (.vcmp (V3.ofBits w))
  | 49 => some (.vsel (V3.ofBits w))
  | 64 => some (.vmov (V3.ofBits w))
  | 65 => some (.vmovi (VI.ofBits w))
  | 66 => some (.vbcast (V3.ofBits w))
  | 67 => some (.vins (V3.ofBits w))
  | 68 => some (.vext (V3.ofBits w))
  | 69 => some (.vperm (V3.ofBits w))
  | 70 => some (.vslide (V3.ofBits w))
  | 71 => some (.vzip (V3.ofBits w))
  | 72 => some (.vunzip (V3.ofBits w))
  | 80 => some (.vred (V3.ofBits w))
  | 81 => some (.vscan (V3.ofBits w))
  | 96 => some (.vcvt (VK.ofBits w))
  | 97 => some (.vsrnd (VK.ofBits w))
  | 98 => some (.vblock (VK.ofBits w))
  | 99 => some (.vunblock (VK.ofBits w))
  | 112 => some (.vcompress (V3.ofBits w))
  | 113 => some (.vexpand (V3.ofBits w))
  | 128 => some (.vpcnt (V3.ofBits w))
  | 129 => some (.pand (V3.ofBits w))
  | 130 => some (.por (V3.ofBits w))
  | 131 => some (.pxor (V3.ofBits w))
  | 132 => some (.pnot (V3.ofBits w))
  | 144 => some (.vrand (VK.ofBits w))
  | _ => none

/-- The mem opcode map. -/
def decodeMem (w : Nat) : Option Instr :=
  match opcodeOf w with
  | 0 => some (.ld (LA.ofBits w))
  | 1 => some (.st (LA.ofBits w))
  | 2 => some (.vld (LA.ofBits w))
  | 3 => some (.vst (LA.ofBits w))
  | 4 => some (.vldt (LT.ofBits w))
  | 5 => some (.vstt (LT.ofBits w))
  | 6 => some (.vgath (LG.ofBits w))
  | 7 => some (.vscat (LG.ofBits w))
  | 16 => some (.ldf (LA.ofBits w))
  | 17 => some (.ldfk (LA.ofBits w))
  | 18 => some (.ste (LA.ofBits w))
  | 19 => some (.feset (LA.ofBits w))
  | 20 => some (.feprobe (LA.ofBits w))
  | 32 => some (.atom (LX.ofBits w))
  | 33 => some (.atomcas (LX.ofBits w))
  | 34 => some (.semadd (LS.ofBits w))
  | 35 => some (.semset (LS.ofBits w))
  | 36 => some (.semwait (LS.ofBits w))
  | 37 => some (.semrd (LS.ofBits w))
  | 48 => some (.cntwait (LQ.ofBits w))
  | 49 => some (.fence (LF.ofBits w))
  | 50 => some (.tokacq (LK.ofBits w))
  | 51 => some (.tokpass (LK.ofBits w))
  | 52 => some (.bufacq (LK.ofBits w))
  | 53 => some (.bufrel (LK.ofBits w))
  | 64 => some (.discard (LA.ofBits w))
  | 65 => some (.wback (LA.ofBits w))
  | 66 => some (.inval (LA.ofBits w))
  | 67 => some (.iinval (LA.ofBits w))
  | 68 => some (.pref (LA.ofBits w))
  | 80 => some (.rld (LA.ofBits w))
  | 81 => some (.rst (LA.ofBits w))
  | 82 => some (.ratom (LX.ofBits w))
  | 83 => some (.tickwait (LQ.ofBits w))
  | 84 => some (.replay (LQ.ofBits w))
  | 96 => some (.sbind (LQ.ofBits w))
  | 97 => some (.sdone (LQ.ofBits w))
  | 112 => some (.haul (LH.ofBits w))
  | 113 => some (.haulg (LH.ofBits w))
  | 114 => some (.hgath (LH.ofBits w))
  | 115 => some (.hscat (LH.ofBits w))
  | 116 => some (.hstat (LH.ofBits w))
  | 128 => some (.protect (LH.ofBits w))
  | 129 => some (.unprotect (LH.ofBits w))
  | 130 => some (.belay (LH.ofBits w))
  | 131 => some (.bwait (LH.ofBits w))
  | 132 => some (.pitchrd (LH.ofBits w))
  | _ => none

/-- The mx opcode map. -/
def decodeMx (w : Nat) : Option Instr :=
  match opcodeOf w with
  | 0 => some (.mlatch (ML.ofBits w))
  | 1 => some (.mop (MM.ofBits w))
  | 2 => some (.mops (MM.ofBits w))
  | 3 => some (.mopr (MM.ofBits w))
  | 4 => some (.mrank1 (MR.ofBits w))
  | 5 => some (.mzero (MZ.ofBits w))
  | 6 => some (.mloss (MZ.ofBits w))
  | 7 => some (.mdrain (MZ.ofBits w))
  | 8 => some (.mstat (MZ.ofBits w))
  | 16 => some (.oread (MV.ofBits w))
  | 17 => some (.owrite (MV.ofBits w))
  | 18 => some (.omom (MO.ofBits w))
  | 19 => some (.oadam (MO.ofBits w))
  | 32 => some (.pusht (MS.ofBits w))
  | 33 => some (.popt (MS.ofBits w))
  | 34 => some (.tstk (MS.ofBits w))
  | _ => none

/-- The slot an instruction belongs to (R142, R145). -/
def Instr.slotKind : Instr → Option SlotKind
  | .nop => some .ctl
  | .br _ => some .ctl
  | .jmp _ => some .ctl
  | .jmpr _ => some .ctl
  | .call _ => some .ctl
  | .callr _ => some .ctl
  | .ret _ => some .ctl
  | .loop _ => some .ctl
  | .bswap _ => some .ctl
  | .join _ => some .ctl
  | .detach => some .ctl
  | .ifence => some .ctl
  | .ypoint => some .ctl
  | .yield => some .ctl
  | .exit => some .ctl
  | .hold _ => some .ctl
  | .trap _ => some .ctl
  | .rtt => some .ctl
  | .bkpt _ => some .ctl
  | .svcNull => some .ctl
  | .svcEvent => some .ctl
  | .svcAbort => some .ctl
  | .svcReside => some .ctl
  | .svcGroupinfo => some .ctl
  | .svcUnassigned _ => some .ctl
  | .add _ => some .alu
  | .addi _ => some .alu
  | .sub _ => some .alu
  | .mul _ => some .alu
  | .mulh _ => some .alu
  | .mulhn _ => some .alu
  | .div _ => some .alu
  | .divn _ => some .alu
  | .rem _ => some .alu
  | .remn _ => some .alu
  | .and _ => some .alu
  | .or _ => some .alu
  | .xor _ => some .alu
  | .andn _ => some .alu
  | .shl _ => some .alu
  | .shr _ => some .alu
  | .sar _ => some .alu
  | .rol _ => some .alu
  | .min _ => some .alu
  | .max _ => some .alu
  | .minn _ => some .alu
  | .maxn _ => some .alu
  | .cmp _ => some .alu
  | .sel _ => some .alu
  | .mov _ => some .alu
  | .movi _ => some .alu
  | .movhi _ => some .alu
  | .clz _ => some .alu
  | .ctz _ => some .alu
  | .popc _ => some .alu
  | .brev _ => some .alu
  | .bext _ => some .alu
  | .bins _ => some .alu
  | .lea _ => some .alu
  | .adda _ => some .alu
  | .movaToAddress _ => some .alu
  | .movaToScalar _ => some .alu
  | .mfs _ => some .alu
  | .mts _ => some .alu
  | .rdcyc _ => some .alu
  | .vadd _ => some .vec
  | .vsub _ => some .vec
  | .vmul _ => some .vec
  | .vfma _ => some .vec
  | .vfms _ => some .vec
  | .vfnma _ => some .vec
  | .vmin _ => some .vec
  | .vmax _ => some .vec
  | .vabs _ => some .vec
  | .vneg _ => some .vec
  | .vclamp _ => some .vec
  | .vrcp _ => some .vec
  | .vrsq _ => some .vec
  | .vsqrt _ => some .vec
  | .vexp2 _ => some .vec
  | .vlog2 _ => some .vec
  | .viadd _ => some .vec
  | .visub _ => some .vec
  | .vimul _ => some .vec
  | .vimad _ => some .vec
  | .vimin _ => some .vec
  | .vimax _ => some .vec
  | .vand _ => some .vec
  | .vor _ => some .vec
  | .vxor _ => some .vec
  | .vshl _ => some .vec
  | .vshr _ => some .vec
  | .vsar _ => some .vec
  | .vcmp _ => some .vec
  | .vsel _ => some .vec
  | .vmov _ => some .vec
  | .vmovi _ => some .vec
  | .vbcast _ => some .vec
  | .vins _ => some .vec
  | .vext _ => some .vec
  | .vperm _ => some .vec
  | .vslide _ => some .vec
  | .vzip _ => some .vec
  | .vunzip _ => some .vec
  | .vred _ => some .vec
  | .vscan _ => some .vec
  | .vcvt _ => some .vec
  | .vsrnd _ => some .vec
  | .vblock _ => some .vec
  | .vunblock _ => some .vec
  | .vcompress _ => some .vec
  | .vexpand _ => some .vec
  | .vpcnt _ => some .vec
  | .pand _ => some .vec
  | .por _ => some .vec
  | .pxor _ => some .vec
  | .pnot _ => some .vec
  | .vrand _ => some .vec
  | .ld _ => some .mem
  | .st _ => some .mem
  | .vld _ => some .mem
  | .vst _ => some .mem
  | .vldt _ => some .mem
  | .vstt _ => some .mem
  | .vgath _ => some .mem
  | .vscat _ => some .mem
  | .ldf _ => some .mem
  | .ldfk _ => some .mem
  | .ste _ => some .mem
  | .feset _ => some .mem
  | .feprobe _ => some .mem
  | .atom _ => some .mem
  | .atomcas _ => some .mem
  | .semadd _ => some .mem
  | .semset _ => some .mem
  | .semwait _ => some .mem
  | .semrd _ => some .mem
  | .cntwait _ => some .mem
  | .fence _ => some .mem
  | .tokacq _ => some .mem
  | .tokpass _ => some .mem
  | .bufacq _ => some .mem
  | .bufrel _ => some .mem
  | .discard _ => some .mem
  | .wback _ => some .mem
  | .inval _ => some .mem
  | .iinval _ => some .mem
  | .pref _ => some .mem
  | .rld _ => some .mem
  | .rst _ => some .mem
  | .ratom _ => some .mem
  | .tickwait _ => some .mem
  | .replay _ => some .mem
  | .sbind _ => some .mem
  | .sdone _ => some .mem
  | .haul _ => some .mem
  | .haulg _ => some .mem
  | .hgath _ => some .mem
  | .hscat _ => some .mem
  | .hstat _ => some .mem
  | .protect _ => some .mem
  | .unprotect _ => some .mem
  | .belay _ => some .mem
  | .bwait _ => some .mem
  | .pitchrd _ => some .mem
  | .mlatch _ => some .mx
  | .mop _ => some .mx
  | .mops _ => some .mx
  | .mopr _ => some .mx
  | .mrank1 _ => some .mx
  | .mzero _ => some .mx
  | .mloss _ => some .mx
  | .mdrain _ => some .mx
  | .mstat _ => some .mx
  | .oread _ => some .mx
  | .owrite _ => some .mx
  | .omom _ => some .mx
  | .oadam _ => some .mx
  | .pusht _ => some .mx
  | .popt _ => some .mx
  | .tstk _ => some .mx
  | .holdBundle => none
  | .emptyBundle => none
  | .streamRead _ _ => none
  | .privateFetchRead _ => none
  | .leadOutcome _ _ => none
  | .joinComplete _ _ => none
  | .resultLand _ _ => none
  | .poisonAtBound _ _ => none
  | .trapEntry _ => none
  | .rollback _ _ _ => none
  | .reserve _ _ => none
  | .commit _ _ => none
  | .release _ _ => none
  | .ropeLoadDone _ => none
  | .gangStart _ => none
  | .ropePartDone _ => none
  | .placementRetry _ => none
  | .preemptRequest _ => none
  | .forcedFreeze _ => none
  | .gangSave _ => none
  | .gangResume _ => none
  | .mxCommandStart _ _ => none
  | .mxCommandLand _ _ => none
  | .moprRendezvousStart _ _ => none
  | .spillEntry _ => none
  | .fillEntry _ => none
  | .streamPortFill _ _ => none
  | .streamPortDrain _ _ => none
  | .haulCommandStart _ => none
  | .haulCompletion _ _ => none
  | .engineTicketReplay _ => none
  | .tokenArrival _ _ => none
  | .reloadComplete _ _ => none
  | .remoteReply _ _ _ _ => none
  | .faultTicket _ _ _ => none
  | .fabricRequestServe _ => none
  | .ingressWalkComplete _ => none
  | .replayNoticePost _ => none
  | .replayNotice _ => none
  | .semMessage _ => none
  | .noticeResend _ => none
  | .stallEntryExpire _ => none
  | .ticketTimeout _ _ => none
  | .requestDeadline _ _ => none
  | .replyEgressDiscard _ => none
  | .beforeImageCapture _ => none
  | .belayOpen _ => none
  | .deltaWrite _ _ _ => none
  | .memberVote _ => none
  | .vote _ => none
  | .belayCommitMsg _ => none
  | .belayAbortMsg _ => none
  | .belayTimeout _ => none
  | .query _ => none
  | .decision _ => none
  | .estimatorWindow => none
  | .probePeriod _ => none
  | .recordRead _ _ => none
  | .recordReadReply _ _ _ _ => none
  | .rebuildUnit _ _ _ _ => none
  | .rebuildWindowRead _ _ => none
  | .rebuildWrite _ _ _ => none
  | .rebuildEnd _ _ _ => none
  | .lineRepair _ _ => none
  | .gctlEnable _ => none
  | .gctlDisable _ => none
  | .groupZeroingDone _ => none
  | .gownWrite _ _ => none
  | .kick _ _ => none
  | .packetAccept _ => none
  | .dependenceMet _ => none
  | .gangComplete _ => none
  | .eprioAgeing _ => none
  | .mappingDecision => none
  | .watchdogCheck _ => none
  | .saveTimeout _ => none
  | .queueRecordWrite _ _ _ _ => none
  | .qctlErrClear _ => none
  | .evackWrite _ => none
  | .eventRingConfigWrite _ _ => none
  | .flogsizeWrite _ => none
  | .egressSwitch _ => none
  | .egressPairSwitch _ _ => none
  | .d2dRouteSwitch _ _ => none
  | .multicastForward _ => none
  | .flitReplay _ => none
  | .stationRetrain _ => none
  | .retrainComplete _ => none
  | .retrainTimeout _ => none
  | .bucketLeak _ => none
  | .stationRetClear _ => none
  | .fabricEnableWrite _ => none
  | .d2dLaneRetrain _ _ => none
  | .heartbeatCheck _ => none
  | .powerCompare _ => none
  | .zoneWarn _ _ => none
  | .zoneCrit _ _ => none
  | .selfRefreshExit _ _ => none
  | .bankRefresh _ _ => none
  | .scrubIssue _ _ => none
  | .pageMigration _ _ => none
  | .tlbInvalidation _ _ _ => none
  | .pageWalkComplete _ _ _ => none
  | .atsCompletion _ _ _ _ => none
  | .atsRetry _ => none
  | .priResponse _ _ => none
  | .priTimeout _ => none
  | .atsInvalidation _ _ _ => none
  | .bar2Write _ _ => none
  | .bar2Read _ _ => none
  | .pcieCorrectableError _ => none
  | .pciePoisonedTlp _ _ => none
  | .pcieCompletionError _ _ => none
  | .unexpectedCompletion _ => none
  | .pcieFatalError _ => none
  | .pcieLinkDown => none
  | .coldReset => none
  | .fundamentalReset => none
  | .functionLevelReset => none
  | .bootTrainingDone => none
  | .bootctlGo _ => none
  | .bootVerify => none
  | .doeDiscovery _ => none
  | .getDigests => none
  | .getCertificate _ _ => none
  | .challenge _ => none
  | .getMeasurements _ => none
  | .keyExchange _ => none
  | .finish _ => none
  | .ideKm _ _ => none
  | .registerWrite _ _ _ => none
  | .regionRegistered _ => none
  | .stagingSplitWrite _ _ _ => none
  | .exportSpaceDesignation _ _ => none
  | .zoneBelowWarn _ _ => none
  | .d2dLaneGroupUp _ _ => none

/-- The slot bits of an instruction, written from the encoding tables; a device step has none. -/
def Instr.encode : Instr → Nat
  | .nop => 0
  | .br f => 1 + f.bits
  | .jmp f => 2 + f.bits
  | .jmpr f => 3 + f.bits
  | .call f => 4 + f.bits
  | .callr f => 5 + f.bits
  | .ret f => 6 + f.bits
  | .loop f => 7 + f.bits
  | .bswap f => 8 + f.bits
  | .join f => 9 + f.bits
  | .detach => 10
  | .ifence => 11
  | .ypoint => 12
  | .yield => 13
  | .exit => 14
  | .hold f => 15 + f.bits
  | .trap f => 16 + f.bits
  | .rtt => 17
  | .bkpt f => 18 + f.bits
  | .svcNull => 19
  | .svcEvent => 275
  | .svcAbort => 531
  | .svcReside => 787
  | .svcGroupinfo => 1043
  | .svcUnassigned f => 19 + f.bits
  | .add f => 0 + f.bits
  | .addi f => 1 + f.bits
  | .sub f => 2 + f.bits
  | .mul f => 3 + f.bits
  | .mulh f => 4 + f.bits
  | .mulhn f => 5 + f.bits
  | .div f => 6 + f.bits
  | .divn f => 7 + f.bits
  | .rem f => 8 + f.bits
  | .remn f => 9 + f.bits
  | .and f => 10 + f.bits
  | .or f => 11 + f.bits
  | .xor f => 12 + f.bits
  | .andn f => 13 + f.bits
  | .shl f => 14 + f.bits
  | .shr f => 15 + f.bits
  | .sar f => 16 + f.bits
  | .rol f => 17 + f.bits
  | .min f => 18 + f.bits
  | .max f => 19 + f.bits
  | .minn f => 20 + f.bits
  | .maxn f => 21 + f.bits
  | .cmp f => 22 + f.bits
  | .sel f => 23 + f.bits
  | .mov f => 24 + f.bits
  | .movi f => 25 + f.bits
  | .movhi f => 26 + f.bits
  | .clz f => 27 + f.bits
  | .ctz f => 28 + f.bits
  | .popc f => 29 + f.bits
  | .brev f => 30 + f.bits
  | .bext f => 31 + f.bits
  | .bins f => 32 + f.bits
  | .lea f => 33 + f.bits
  | .adda f => 34 + f.bits
  | .movaToAddress f => 35 + f.bits
  | .movaToScalar f => 35 + f.bits
  | .mfs f => 36 + f.bits
  | .mts f => 37 + f.bits
  | .rdcyc f => 38 + f.bits
  | .vadd f => 0 + f.bits
  | .vsub f => 1 + f.bits
  | .vmul f => 2 + f.bits
  | .vfma f => 3 + f.bits
  | .vfms f => 4 + f.bits
  | .vfnma f => 5 + f.bits
  | .vmin f => 6 + f.bits
  | .vmax f => 7 + f.bits
  | .vabs f => 8 + f.bits
  | .vneg f => 9 + f.bits
  | .vclamp f => 10 + f.bits
  | .vrcp f => 16 + f.bits
  | .vrsq f => 17 + f.bits
  | .vsqrt f => 18 + f.bits
  | .vexp2 f => 19 + f.bits
  | .vlog2 f => 20 + f.bits
  | .viadd f => 32 + f.bits
  | .visub f => 33 + f.bits
  | .vimul f => 34 + f.bits
  | .vimad f => 35 + f.bits
  | .vimin f => 36 + f.bits
  | .vimax f => 37 + f.bits
  | .vand f => 38 + f.bits
  | .vor f => 39 + f.bits
  | .vxor f => 40 + f.bits
  | .vshl f => 41 + f.bits
  | .vshr f => 42 + f.bits
  | .vsar f => 43 + f.bits
  | .vcmp f => 48 + f.bits
  | .vsel f => 49 + f.bits
  | .vmov f => 64 + f.bits
  | .vmovi f => 65 + f.bits
  | .vbcast f => 66 + f.bits
  | .vins f => 67 + f.bits
  | .vext f => 68 + f.bits
  | .vperm f => 69 + f.bits
  | .vslide f => 70 + f.bits
  | .vzip f => 71 + f.bits
  | .vunzip f => 72 + f.bits
  | .vred f => 80 + f.bits
  | .vscan f => 81 + f.bits
  | .vcvt f => 96 + f.bits
  | .vsrnd f => 97 + f.bits
  | .vblock f => 98 + f.bits
  | .vunblock f => 99 + f.bits
  | .vcompress f => 112 + f.bits
  | .vexpand f => 113 + f.bits
  | .vpcnt f => 128 + f.bits
  | .pand f => 129 + f.bits
  | .por f => 130 + f.bits
  | .pxor f => 131 + f.bits
  | .pnot f => 132 + f.bits
  | .vrand f => 144 + f.bits
  | .ld f => 0 + f.bits
  | .st f => 1 + f.bits
  | .vld f => 2 + f.bits
  | .vst f => 3 + f.bits
  | .vldt f => 4 + f.bits
  | .vstt f => 5 + f.bits
  | .vgath f => 6 + f.bits
  | .vscat f => 7 + f.bits
  | .ldf f => 16 + f.bits
  | .ldfk f => 17 + f.bits
  | .ste f => 18 + f.bits
  | .feset f => 19 + f.bits
  | .feprobe f => 20 + f.bits
  | .atom f => 32 + f.bits
  | .atomcas f => 33 + f.bits
  | .semadd f => 34 + f.bits
  | .semset f => 35 + f.bits
  | .semwait f => 36 + f.bits
  | .semrd f => 37 + f.bits
  | .cntwait f => 48 + f.bits
  | .fence f => 49 + f.bits
  | .tokacq f => 50 + f.bits
  | .tokpass f => 51 + f.bits
  | .bufacq f => 52 + f.bits
  | .bufrel f => 53 + f.bits
  | .discard f => 64 + f.bits
  | .wback f => 65 + f.bits
  | .inval f => 66 + f.bits
  | .iinval f => 67 + f.bits
  | .pref f => 68 + f.bits
  | .rld f => 80 + f.bits
  | .rst f => 81 + f.bits
  | .ratom f => 82 + f.bits
  | .tickwait f => 83 + f.bits
  | .replay f => 84 + f.bits
  | .sbind f => 96 + f.bits
  | .sdone f => 97 + f.bits
  | .haul f => 112 + f.bits
  | .haulg f => 113 + f.bits
  | .hgath f => 114 + f.bits
  | .hscat f => 115 + f.bits
  | .hstat f => 116 + f.bits
  | .protect f => 128 + f.bits
  | .unprotect f => 129 + f.bits
  | .belay f => 130 + f.bits
  | .bwait f => 131 + f.bits
  | .pitchrd f => 132 + f.bits
  | .mlatch f => 0 + f.bits
  | .mop f => 1 + f.bits
  | .mops f => 2 + f.bits
  | .mopr f => 3 + f.bits
  | .mrank1 f => 4 + f.bits
  | .mzero f => 5 + f.bits
  | .mloss f => 6 + f.bits
  | .mdrain f => 7 + f.bits
  | .mstat f => 8 + f.bits
  | .oread f => 16 + f.bits
  | .owrite f => 17 + f.bits
  | .omom f => 18 + f.bits
  | .oadam f => 19 + f.bits
  | .pusht f => 32 + f.bits
  | .popt f => 33 + f.bits
  | .tstk f => 34 + f.bits
  | .holdBundle => 0
  | .emptyBundle => 0
  | .streamRead _ _ => 0
  | .privateFetchRead _ => 0
  | .leadOutcome _ _ => 0
  | .joinComplete _ _ => 0
  | .resultLand _ _ => 0
  | .poisonAtBound _ _ => 0
  | .trapEntry _ => 0
  | .rollback _ _ _ => 0
  | .reserve _ _ => 0
  | .commit _ _ => 0
  | .release _ _ => 0
  | .ropeLoadDone _ => 0
  | .gangStart _ => 0
  | .ropePartDone _ => 0
  | .placementRetry _ => 0
  | .preemptRequest _ => 0
  | .forcedFreeze _ => 0
  | .gangSave _ => 0
  | .gangResume _ => 0
  | .mxCommandStart _ _ => 0
  | .mxCommandLand _ _ => 0
  | .moprRendezvousStart _ _ => 0
  | .spillEntry _ => 0
  | .fillEntry _ => 0
  | .streamPortFill _ _ => 0
  | .streamPortDrain _ _ => 0
  | .haulCommandStart _ => 0
  | .haulCompletion _ _ => 0
  | .engineTicketReplay _ => 0
  | .tokenArrival _ _ => 0
  | .reloadComplete _ _ => 0
  | .remoteReply _ _ _ _ => 0
  | .faultTicket _ _ _ => 0
  | .fabricRequestServe _ => 0
  | .ingressWalkComplete _ => 0
  | .replayNoticePost _ => 0
  | .replayNotice _ => 0
  | .semMessage _ => 0
  | .noticeResend _ => 0
  | .stallEntryExpire _ => 0
  | .ticketTimeout _ _ => 0
  | .requestDeadline _ _ => 0
  | .replyEgressDiscard _ => 0
  | .beforeImageCapture _ => 0
  | .belayOpen _ => 0
  | .deltaWrite _ _ _ => 0
  | .memberVote _ => 0
  | .vote _ => 0
  | .belayCommitMsg _ => 0
  | .belayAbortMsg _ => 0
  | .belayTimeout _ => 0
  | .query _ => 0
  | .decision _ => 0
  | .estimatorWindow => 0
  | .probePeriod _ => 0
  | .recordRead _ _ => 0
  | .recordReadReply _ _ _ _ => 0
  | .rebuildUnit _ _ _ _ => 0
  | .rebuildWindowRead _ _ => 0
  | .rebuildWrite _ _ _ => 0
  | .rebuildEnd _ _ _ => 0
  | .lineRepair _ _ => 0
  | .gctlEnable _ => 0
  | .gctlDisable _ => 0
  | .groupZeroingDone _ => 0
  | .gownWrite _ _ => 0
  | .kick _ _ => 0
  | .packetAccept _ => 0
  | .dependenceMet _ => 0
  | .gangComplete _ => 0
  | .eprioAgeing _ => 0
  | .mappingDecision => 0
  | .watchdogCheck _ => 0
  | .saveTimeout _ => 0
  | .queueRecordWrite _ _ _ _ => 0
  | .qctlErrClear _ => 0
  | .evackWrite _ => 0
  | .eventRingConfigWrite _ _ => 0
  | .flogsizeWrite _ => 0
  | .egressSwitch _ => 0
  | .egressPairSwitch _ _ => 0
  | .d2dRouteSwitch _ _ => 0
  | .multicastForward _ => 0
  | .flitReplay _ => 0
  | .stationRetrain _ => 0
  | .retrainComplete _ => 0
  | .retrainTimeout _ => 0
  | .bucketLeak _ => 0
  | .stationRetClear _ => 0
  | .fabricEnableWrite _ => 0
  | .d2dLaneRetrain _ _ => 0
  | .heartbeatCheck _ => 0
  | .powerCompare _ => 0
  | .zoneWarn _ _ => 0
  | .zoneCrit _ _ => 0
  | .selfRefreshExit _ _ => 0
  | .bankRefresh _ _ => 0
  | .scrubIssue _ _ => 0
  | .pageMigration _ _ => 0
  | .tlbInvalidation _ _ _ => 0
  | .pageWalkComplete _ _ _ => 0
  | .atsCompletion _ _ _ _ => 0
  | .atsRetry _ => 0
  | .priResponse _ _ => 0
  | .priTimeout _ => 0
  | .atsInvalidation _ _ _ => 0
  | .bar2Write _ _ => 0
  | .bar2Read _ _ => 0
  | .pcieCorrectableError _ => 0
  | .pciePoisonedTlp _ _ => 0
  | .pcieCompletionError _ _ => 0
  | .unexpectedCompletion _ => 0
  | .pcieFatalError _ => 0
  | .pcieLinkDown => 0
  | .coldReset => 0
  | .fundamentalReset => 0
  | .functionLevelReset => 0
  | .bootTrainingDone => 0
  | .bootctlGo _ => 0
  | .bootVerify => 0
  | .doeDiscovery _ => 0
  | .getDigests => 0
  | .getCertificate _ _ => 0
  | .challenge _ => 0
  | .getMeasurements _ => 0
  | .keyExchange _ => 0
  | .finish _ => 0
  | .ideKm _ _ => 0
  | .registerWrite _ _ _ => 0
  | .regionRegistered _ => 0
  | .stagingSplitWrite _ _ _ => 0
  | .exportSpaceDesignation _ _ => 0
  | .zoneBelowWarn _ _ => 0
  | .d2dLaneGroupUp _ _ => 0

/-- Bits of an assigned opcode whose sub-field names no instruction: MOVA with F above 1 (R156). -/
def subFieldReserved (k : SlotKind) (w : Nat) : Bool := k == .alu && opcodeOf w == 0x23

/-- The decoder of one opcode space. -/
def decodeIn : SlotKind → Nat → Option Instr
  | .ctl => decodeCtl
  | .alu => decodeAlu
  | .vec => decodeVec
  | .mem => decodeMem
  | .mx => decodeMx

/-- Read one slot: its instruction, or the cause for which it is illegal (R151, R389, R390). Bits outside the
format's fields must be zero, so a word that is not the encoding of its own reading holds a reserved field. -/
def decodeSlot (k : SlotKind) (w : Nat) : Except Cause Instr :=
  match decodeIn k w with
  | none => .error (if subFieldReserved k w then .reservedField else .unassignedOpcode)
  | some i =>
    match i.encCause with
    | some .illegalOperand => .error .illegalOperand
    | some c => .error c
    | none => if i.encode = w then .ok i else .error .reservedField

/-- The bundle header (R143). -/
structure Header where
  dly : Nat
  x : Bool
  mark : Bool
  sv : Nat
  /-- bits [31:12] -/
  rest : Nat
deriving DecidableEq, Repr

/-- The header of a bundle. -/
def headerOf (w : Nat) : Header :=
  { dly := fld w 8 4, x := bitAt w 7, mark := bitAt w 6, sv := fld w 0 6, rest := fld w 12 20 }

/-- Where slot `n` lies: its opcode space, its lowest bundle bit and its width (R142). -/
def slotPlace (n : Nat) : SlotKind × Nat × Nat :=
  match n with
  | 0 => (.ctl, 32, 48)
  | 1 => (.alu, 80, 48)
  | 2 => (.vec, 128, 64)
  | 3 => (.vec, 192, 64)
  | 4 => (.mem, 256, 64)
  | _ => (.mx, 320, 64)

/-- The bits of slot `n` of a bundle. -/
def slotBits (w n : Nat) : Nat := fld w (slotPlace n).2.1 (slotPlace n).2.2

/-- The slots whose SV bit is set, in bundle order (R64, R144). -/
def validSlots (w : Nat) : List Nat := [0, 1, 2, 3, 4, 5].filter (fun n => bitAt w n)

/-- The slots of a bundle, each with its number, its bits and its reading. -/
def bundleSlots (w : Nat) : List (Nat × Nat × Except Cause Instr) :=
  (validSlots w).map (fun n => (n, slotBits w n, decodeSlot (slotPlace n).1 (slotBits w n)))

/-- A bundle that holds one instruction, in its own slot (va for a vector instruction), with X, MK and DLY clear. -/
def bundleOf (i : Instr) : Nat :=
  match i.slotKind with
  | none => 0
  | some .ctl => 1 + i.encode * 2 ^ 32
  | some .alu => 2 + i.encode * 2 ^ 80
  | some .vec => 4 + i.encode * 2 ^ 128
  | some .mem => 16 + i.encode * 2 ^ 256
  | some .mx => 32 + i.encode * 2 ^ 320

/-- What a 16-bit index word is (R167). -/
inductive IndexWord where
  | entry (n : Nat)
  | unassigned (w : Nat)
  | hold
  | escape
deriving DecidableEq, Repr

/-- Read an index word. -/
def decodeIndexWord (w : Nat) : IndexWord :=
  if w < 0x1000 then .entry w
  else if w = 0xFFFE then .hold
  else if w = 0xFFFF then .escape
  else .unassigned w

/-- The one instruction of a bundle: the empty bundle when SV is zero (R144), the slot's instruction when one slot
is valid. -/
def decodeBundle (w : Nat) : Option Instr :=
  if (headerOf w).rest ≠ 0 then none
  else
    match bundleSlots w with
    | [] => some .emptyBundle
    | [(_, _, .ok i)] => some i
    | _ => none

/-- An instruction numbered as the opcode table numbers it: a 16-bit index word, or a bundle of up to 384 bits. -/
def decodeTableWord (nbits w : Nat) : Option Instr :=
  if nbits ≤ 16 then
    match decodeIndexWord (w % 2 ^ 16) with
    | .hold => some .holdBundle
    | _ => none
  else decodeBundle (w % 2 ^ 384)

end Sys2Proof
end

