-- ==== Sys2Proof/Config.lean ====
section
/-! DEFINITION. What one DX940 fixes and the manual does not give: free values (R2), of which nothing is known, and
the vendor's keys and algorithms behind the boot checks (R361 to R364). No definition here has a body that a proof
could look into, but for the constants that the manual states. -/

namespace Sys2Proof.Config

/-- The undefined contents of a register (R2): the model's counter and the register's code (log entry 3). -/
opaque freeReg : Nat → Nat → BitVec 1024

/-- The undefined contents of a tile element (R2, R241, R415): counter and element (log entry 3). -/
opaque freeElem : Nat → Nat → BitVec 32

/-- The undefined contents of a byte of memory (R2, R284, R347): counter and location (log entry 3). -/
opaque freeByte : Nat → Nat → Byte

/-- Of two rows or points of a haul command that write one byte, whether the later one's value stays (R284, R286): counter and
location (log entry 9). -/
opaque laterRow : Nat → Nat → Bool

/-- The undefined contents of a latch element (R415): counter and element (log entry 3). -/
opaque freeLatch : Nat → Nat → BitVec 16

/-- SHA-384 (R361); the manual names the algorithm and does not define it (log entry 13). -/
opaque sha384 : List Byte → BitVec 384

/-- The vendor's keys, 0 P-384 and 1 LMS (R361; log entry 13). -/
opaque vendorKey : Nat → List Byte

/-- Their SHA-384 hashes as the fuses hold them (R361; log entry 13). -/
opaque fuseKeyHash : Nat → BitVec 384

/-- ECDSA P-384 verification under a key of a signature over a digest (R361; log entry 13). -/
opaque ecdsaVerifies : List Byte → List Byte → BitVec 384 → Bool

/-- LMS verification under a key of a signature over a digest (R361; log entry 13). -/
opaque lmsVerifies : List Byte → List Byte → BitVec 384 → Bool

/-- The security version held in fuses (R361; log entry 13). -/
opaque fuseSvn : Nat

/-- The digests of the certificate chain and the alias certificate of a firmware digest (R363; log entry 13). -/
opaque certificate : BitVec 384 → List Byte

/-- The signature made with the alias key of a firmware digest over a transcript (R363, R364; log entry 13). -/
opaque aliasSign : BitVec 384 → Nat → Nat

/-- The responder's share of a key exchange (R364; log entry 13). -/
opaque exchangeShare : Nat → Nat

/-- The HMAC that closes a session's key exchange is the expected one (R364; log entry 13). -/
opaque finishVerifies : Nat → Bool

/-- The measurement of the boot ROM (R364 index 1; log entry 13). -/
opaque romMeasurement : BitVec 384

/-- The bytes of the firmware's handler by offset in the bank-0 image (R72): the manual does not give them (log
entry 11). -/
opaque handlerByte : Nat → Byte

/-- The effective priority that an ageing period of zero gives (R313 divides by it): wait so far (log entry 3). -/
opaque ageByZero : Nat → Nat

/-- Whether an access to a page whose table sets CG against R103's condition reaches the page's own frame: the model's
counter and the entry's address (log entry 3). -/
opaque ownFrame : Nat → Nat → Bool

/-- The places of a set of a cache, beyond its first: the manual gives no associativity (R118; log entry 3). -/
opaque cacheWays : Nat

/-- Which set of a cache a line falls into, before the number of sets bounds it (R118; log entry 3). -/
opaque cacheIndex : Nat → Nat

/-- One less than the page requests that the host allows to be outstanding at once (R319; log entry 3). -/
opaque pageRequests : Nat

/-- The bytes of a saved gang at SAVEA, in the firmware's form (R315; log entry 72). -/
opaque saveSize : Nat

/-- How many of the latest flits that a station has sent have not been acknowledged as it begins to retrain, by the model's
counter: the manual does not say when a peer acknowledges a flit (R423; log entry 59). -/
opaque unacked : Nat → Nat

/-- Lane groups of each die-to-die link: the manual gives no number (R431; log entry 3). -/
opaque laneGroups : Nat

/-- The DATA of an event of kind 3 (R322 gives none): the model's counter (log entry 3). -/
opaque freeEvent : Nat → BitVec 64

/-- The PA of the handler's entry that the firmware writes into TVEC at a launch (R72), in R63 form: the manual
gives the range of index words from 0xF800 up and no entry in it (log entry 11). -/
opaque handlerEntry : BitVec 11

end Sys2Proof.Config
end

