-- ==== Sys2Proof/Machine/State.lean ====
section
/-! DEFINITION. The state of a DX940 as plain data (chapters 02 to 23; INVENTORY.md lists every piece with its rule).
Every numbered collection is a sparse table or list; what is not listed holds the value its structure names. -/

namespace Sys2Proof.Machine

/-- Why the machine stops. -/
inductive Fault where
  /-- Raised by `step` when the agenda names a rope, core, strand, die, station or other unit that the DX940 does not
  have (R13 to R15). Safe: no such step exists on the hardware. -/
  | noSuchUnit
deriving DecidableEq, Repr

/-- Why an instruction has no meaning. -/
inductive Refusal where
  /-- Raised by `exec` for an instruction whose meaning is not written. Safe: the machine stops. -/
  | notModelled (mnemonic : String)
deriving DecidableEq, Repr

/-! ## Strands -/

/-- The states of R49. -/
inductive StrandState where
  | idle
  | attached
  | detached
  | waiting
  | joining
  | trapped
  | frozen
  | exited
deriving DecidableEq, Repr

/-- The handler state (R192). -/
inductive Handler where
  | none
  | replay
  | sup
deriving DecidableEq, Repr

/-- Where a result goes: a register, or an entry reserved in a port's queue (R148). -/
inductive Dest where
  | s (n : Nat)
  | a (n : Nat)
  | v (n : Nat)
  | p (n : Nat)
  | push (port id : Nat)
  /-- a tile, whose late result poisons it (R37, R48) -/
  | tile (n : Nat)
deriving DecidableEq, Repr

/-- A loop register (R181). -/
structure LoopReg where
  act : Bool := false
  bank : Nat := 0
  start : Nat := 0
  last : Nat := 0
  left : Nat := 0
deriving DecidableEq, Repr

/-- Where an in-flight result comes from. -/
inductive Source where
  /-- fixed latency: lands exactly on its cycle (R150) -/
  | fixed
  /-- a local access or engine read: lands by RESULT_LAND -/
  | memory
  /-- a command on an mx path: lands with the command (R230) -/
  | mx
  /-- a remote access: lands with its reply (R270) -/
  | remote
deriving DecidableEq, Repr

/-- A result in flight (R34 to R37, R271). -/
structure InFlight where
  dest : Dest
  /-- absent until the producer has it -/
  value : Option Nat
  source : Source
  exposed : Bool := false
  /-- the cycle of the bound (exposed) -/
  due : Nat := 0
  /-- the cycle on which it lands by itself; none: an event lands it -/
  lands : Option Nat := none
  /-- exposed and not landed by its bound (R37) -/
  late : Bool := false
  /-- answered by a fault ticket (R271) -/
  ticketed : Bool := false
  /-- landed before its bound: reads stay undefined until the bound (R34) -/
  landed : Bool := false
  /-- a younger write by the strand has replaced its destination, and that write's count of restart points (R34, R39) -/
  dead : Bool := false
  killer : Nat := 0
  /-- the strand's count of restart points when it issued (R39) -/
  epoch : Nat := 0
  /-- names the producer: ticket-table tag or mx command number -/
  tag : Nat := 0
  /-- put back from the replay buffer for a first bundle that has not issued (R48) -/
  replayed : Bool := false
deriving DecidableEq, Repr

/-- A place in a queue: reserved until its value is filled in (R148). -/
structure Place where
  id : Nat
  val : Option Vec
deriving DecidableEq, Repr

/-- A store: the issuing core, the locations written with their bytes, and the sectors of cacheable HBM pages that
they touch, those in a shared region whose token the core holds apart, with its ev field (R116, R118). -/
structure Store where
  core : Nat
  cells : List (Nat × Byte)
  cached : List Nat := []
  held : List Nat := []
  ev : Nat := 0
deriving DecidableEq, Repr

/-- A bundle as it is delivered (R23, R167). -/
inductive Delivered where
  /-- a bundle of 384 bits -/
  | bits (w : Nat)
  /-- a hold bundle (R169) -/
  | hold
  /-- a word that traps its strand at issue: cause and TINFO (R167, R168, R268) -/
  | trap (c : Cause) (info : Nat)
deriving DecidableEq, Repr

/-- A delivered bundle with its program counter, its bank and its successor's program counter (R175). -/
structure Fetched where
  pc : Nat
  bank : Nat
  succ : Nat
  what : Delivered
  /-- the first cycle on which it can issue (R23, R31) -/
  at_ : Nat := 0
deriving DecidableEq, Repr

/-- A slot's recorded fault: slot number (6 for none), cause, TINFO. -/
structure SlotFault where
  slot : Nat
  cause : Cause
  info : Nat
deriving DecidableEq, Repr

/-- A local access that cannot perform (R400, R406, R415): the page's failure with the code it kills the context with
and the flat address; a host-shared miss with the PASID's address; or a read of a poisoned sector with its TINFO. -/
inductive Miss where
  | page (code addr : Nat)
  | hostMiss (addr : Nat)
  | poisoned (slot : Nat) (info : Nat)
deriving DecidableEq, Repr

/-- A trap whose entry is under way (R371). -/
structure TrapRec where
  toRvec : Bool
  tba : Nat
  tfm : Nat
  tcause : Nat
  tinfo : Nat
deriving DecidableEq, Repr

/-- What the Henvar firmware owes a strand (R374, R300, R373, R400, R406). -/
inductive FwTask where
  /-- serve the strand's trap to TVEC by the cause table of R374 -/
  | serveTrap
  /-- return from a breakpoint once its queue's eviction has ended in a resume (R374) -/
  | afterBreak
  /-- kill the context with a code, for a double fault or an unresolved translation: kind, code, TBA, TCAUSE, TINFO -/
  | kill (kind code tba tfm tcause tinfo detail : Nat)
deriving DecidableEq, Repr

/-- What a blocked bundle waits for (R26, R252). -/
inductive Wait where
  | portRead
  | engineFull
  | semaphore
  /-- a mark counter at these locations, and the value that it has to reach (R263) -/
  | counter (locs : List Nat) (target : Nat)
  | ring
  | belay
  | ticket
  | join
  | fullEmpty
  | scoreboard
  | drain
  | walk
  /-- a page walk of a page of a space (R102) -/
  | walking (root page : Nat)
  /-- the end of a page's move (R120) -/
  | moving (root page : Nat)
  /-- a remote access finds its core's ticket table full (R270, R411) -/
  | ticketTable
  /-- a PROTECT or UNPROTECT waits for its region's registration (R295) -/
  | register
  /-- a BWAIT waits for the outcome of a group's open commit (R298) -/
  | outcome (grp : Nat)
deriving DecidableEq, Repr

/-- A stream port's binding (R54, R274, R275). -/
structure StreamPort where
  /-- true: bound for writing -/
  write : Bool
  base : Nat
  eng : Nat
  counts : List Nat
  strides : List Int
  at_ : Attr
  /-- vectors that the engine has moved -/
  moved : Nat := 0
  /-- vectors that the program has popped or pushed -/
  used : Nat := 0
  buf : List Place := []
  /-- earlier remote accesses that hold a pod-scope stream's fork (R133, R135) -/
  fork : List Nat := []
deriving DecidableEq, Repr

/-- An entry of the activation stack (R245): its size z, and whether it is spilled or marked bad (R421). -/
structure StackEntry where
  z : Nat
  spilled : Bool := false
  bad : Bool := false
deriving DecidableEq, Repr

/-- A replay-buffer entry (R47). -/
structure ReplayEntry where
  dest : Dest
  value : Nat
  d : Int
  e : Int
deriving DecidableEq, Repr

/-- A copied register in a shadow slot (R39). -/
inductive Shadow where
  | reg (r : Dest) (old : Nat)
  | loop (n : Nat) (old : LoopReg) (lix : Nat)
deriving DecidableEq, Repr

/-- A recorded outcome of a data-dependent transfer, of LOOP or of YPOINT (R28, R29, R188). -/
inductive StreamOutcome where
  /-- BR: taken or not, and the next program counter -/
  | branch (taken : Bool) (next : Nat)
  /-- JMPR, CALLR, RET: bits [16:0] of the target -/
  | jump (target : Nat)
  /-- LOOP: its trip count -/
  | loop (trip : Nat) (level : Nat) (reg : LoopReg) (next : Nat)
  /-- an IFENCE has been issued -/
  | ifence
  /-- a YPOINT has been issued, with YREQ as it stood -/
  | ypoint (yreq : Bool)
deriving DecidableEq, Repr

/-- A FENCE, or an acquire remote access, that is not complete (R129, R264): the classes that it orders, whether it holds
later stores only, the remote accesses and reloads that it waits for, the number below which the strand's mx stores have
to land first (R231), whether it acts as an acquire and as a release when it completes, and its scope's level as it stood
at issue (R59). -/
structure Fence where
  mask : Nat
  storesOnly : Bool := false
  tags : List Nat := []
  mx : Nat := 0
  acq : Bool := false
  rel : Bool := false
  level : Nat := 0
deriving DecidableEq, Repr

/-- The stream states of R50. -/
inductive StreamState where
  | idle
  | loading
  | streaming
  | stalled
  | resolving
  | pausing
  | joining
  | parked
  | frozen
deriving DecidableEq, Repr

/-- A pending join (R32, R184). -/
structure Join where
  pc : Nat
  bank : Nat
  succ : Nat
  loops : Table LoopReg
  members : List Nat
  arrived : List Nat
deriving DecidableEq, Repr

/-- A rope stream (R23, R50), or what the private fetch port reads for a strand that runs by itself (R31). -/
structure Stream where
  st : StreamState := .idle
  pc : Nat := 0
  bank : Nat := 0
  loops : Table LoopReg := []
  join : Option Join := none
  /-- reloads that an IFENCE waits for (R187) -/
  fence : Option (List Nat) := none
  /-- what a pausing stream waits for has been issued with YREQ set (R50) -/
  yielding : Bool := false
  /-- the first cycle of its next read (R23, R28) -/
  readAt : Nat := 0
  /-- within an escape: the literal words still to be read, those read so far, and the first bad mark among them (R168) -/
  lits : Nat := 0
  bits : Nat := 0
  bad : Option (Nat × Nat) := none
deriving DecidableEq, Repr

/-- A TLB entry (R103): die, root of the space, a virtual page, the pages of its group of 16 that the entry covers, the
page's level-3 entry and that entry's address. A group's pages lie in successive frames. One that an ATS completion gives
(R105) has the PASID for the root, a page of 4 KiB, 1 for the mask where it covers the 64 KiB around the page, and the frame in
units of 4 KiB for the level-3 entry. -/
structure TlbEntry where
  die : Nat
  root : Nat
  page : Nat
  mask : Nat
  pte : Nat
  place : Nat := 0
  host : Bool := false
deriving DecidableEq, Repr

/-- One strand (R23 to R49, R51, R61, R192, R245). -/
structure Strand where
  st : StrandState := .idle
  /-- the state that a waiting strand left, or a frozen one returns to -/
  wasAttached : Bool := false
  wait : Option Wait := none
  s : Table Word := []
  a : Table Word := []
  v : Table Vec := []
  p : Table Pred := []
  pc : Nat := 0
  bank : Nat := 0
  lastX : Bool := false
  /-- earliest cycle of the next issue (DLY, HOLD) -/
  ready : Nat := 0
  lastIssue : Nat := 0
  /-- cycle of the last attempt that blocked -/
  tried : Option Nat := none
  /-- cycle on which the full/empty operation or the registration of its head bundle first waited (R259, R295) -/
  since : Option Nat := none
  queue : List Fetched := []
  /-- a strand that runs by itself: the first cycle of its next grant of the private fetch port, and where the port reads
  for it, which none says is at its own program counter (R31) -/
  readAt : Nat := 0
  port : Option Stream := none
  tvec : Nat := 0
  rvec : Nat := 0
  tba : Nat := 0
  tfm : Nat := 0
  tcause : Nat := 0
  tinfo : Nat := 0
  flags : Nat := 0
  lscale : Nat := 0
  srseed : Word := 0
  yreq : Bool := false
  pdl : Nat := 0
  stkbase : Nat := 0
  stklim : Nat := 0
  stkspill : Nat := 0
  stkmark : Nat := 0
  img : Table Nat := []
  lix : Table Nat := []
  loops : Table LoopReg := []
  handler : Handler := .none
  /-- own outcome that the stream has not compared yet -/
  outcome : Option StreamOutcome := none
  /-- the lead's outcomes for transfers that this strand has still to issue -/
  expect : List StreamOutcome := []
  ports : Table StreamPort := []
  reports : Table (List Place) := []
  inflight : List InFlight := []
  gate : List Store := []
  shadows : List Shadow := []
  epoch : Nat := 0
  restartPc : Nat := 0
  restartBank : Nat := 0
  restartX : Bool := false
  /-- it has been rolled back, and its restart bundle has not issued again: its region goes on (R376) -/
  redo : Bool := false
  replayBuf : List ReplayEntry := []
  trapping : Option TrapRec := none
  softErrs : List (Nat × Nat) := []
  fw : Option FwTask := none
  /-- the depth D and the sizes of the entries from the bottom up, as issued PUSHT and POPT have set them (R245) -/
  depth : Nat := 0
  sizes : List Nat := []
  /-- the entries as performed PUSHT and POPT have left them, and the resident bytes Rs -/
  stack : List StackEntry := []
  resident : Nat := 0
  /-- the next bundle waits for REPLAY's accesses (R273) -/
  replayHold : Bool := false
  /-- a BELAY of this strand waits to perform, and its group (R297) -/
  belay : Option Nat := none
  /-- region registration that holds the bundle (R295): done once true -/
  registering : Option Bool := none
  /-- outcome of the commit that a BWAIT waits for (R298) -/
  decided : Option Bool := none
  /-- the address of a host-shared miss that the strand waits for (R105, R407) -/
  pri : Option Nat := none
  /-- flags of landed mx commands, ORed in at the next commit (R230) -/
  mxFlags : Nat := 0
  /-- a landed mx command met poisoned memory: the TINFO of the trap before the next bundle (R415) -/
  mxBad : Option Nat := none
  /-- reloads that the strand's last IFENCE waits for (R187) -/
  reloadWait : List Nat := []
  /-- a rollback waits for the strand's results to land (R42) -/
  rolling : Bool := false
  fences : List Fence := []
  /-- a YPOINT or YIELD has stopped it, and it freezes once it has drained (R46) -/
  freezing : Bool := false
  /-- cycle F of a forced freeze (R47), and CYC on the cycle on which it froze (R290) -/
  frozenAt : Option Nat := none
  frozenCyc : Nat := 0
  /-- its bundle has found a page of a space on the move, and the cycle on which it first did (R120) -/
  moved : Option (Nat × Nat × Nat) := none
  /-- the access of its waiting bundle has performed, with what it brings (R252) -/
  met : Option Nat := none
  /-- the translations that its bundle has waited for: it uses them even where a TLB has given them up since (R102, R103) -/
  found : List TlbEntry := []
  /-- resumed from a forced freeze, and its first bundle has not issued: cycle G is not yet (R48) -/
  resumed : Bool := false
deriving DecidableEq, Repr

/-! ## Cores -/

/-- An accumulator tile (R57, R242). Element (i, j) is at 128 i + j; unlisted elements are +0. -/
structure Tile where
  int : Bool := false
  tag : Int := 0
  abn : Bool := false
  poison : Bool := false
  elems : Table (BitVec 32) := []
deriving DecidableEq, Repr

/-- A stationary latch (R56): mantissa (column j, k) at 256 j + k, scale (j, block b) at 8 j + b. -/
structure Latch where
  fmt : Nat := 0
  mant : Table (BitVec 16) := []
  scale : Table (BitVec 24) := []
deriving DecidableEq, Repr

/-- A run of successive locations that an operand covers: its start, its length, whether L2 caches it, and whether it
lies in a shared region whose token the core holds (R112, R116). -/
structure Span where
  loc : Nat
  len : Nat
  cached : Bool := false
  held : Bool := false
deriving DecidableEq, Repr

/-- A command on an mx path (R228): the instruction and what its bundle read. -/
structure MxCmd where
  strand : Nat
  num : Nat
  i : Instr
  /-- address and scalar operands -/
  ops : List Nat := []
  /-- vector operands -/
  vecs : List Nat := []
  /-- memory operands, each as the runs that its translation at issue gave (R104) -/
  mem : List (List Span) := []
  lscale : Int := 0
  seed : Nat := 0
  lat : Nat := 0
  /-- cycle of issue, from which the bound counts -/
  issued : Nat := 0
  exposed : Bool := false
  /-- the tiles that it reads or writes, and whether they form an integer pair (R229, R398) -/
  tiles : List Nat := []
  int : Bool := false
  /-- cycle on which it started, and the latches that its blocks read: from a block number on (R233, R235) -/
  startedAt : Nat := 0
  views : List (Nat × Table Latch) := []
  /-- the strand has exited: its register result is discarded (R190) -/
  orphan : Bool := false
  /-- a MOPR whose rendezvous was abandoned (R239) -/
  abandoned : Bool := false
deriving DecidableEq, Repr

/-- An entry of the ticket table (R270). -/
structure Ticket where
  strand : Nat
  i : Instr
  addr : Nat
  data : Nat := 0
  cmp : Nat := 0
  cls : Nat := 0
  dest : Option Dest := none
  ticketed : Bool := false
  ready : Bool := false
  /-- re-issued and not answered yet (R273) -/
  replaying : Bool := false
  owner : Nat := 0
  tnum : Nat := 0
  chain : Nat := 0
  /-- when the ticket came, or how long it has been held while the gang is saved or has not issued again (R410) -/
  ticketAt : Nat := 0
  paused : Bool := false
  /-- the latest notice of its owner and class since it was sent, whose ticket may still be on its way (R454) -/
  told : Option Nat := none
  /-- an earlier access of the strand to the same bytes in another class, with a ticket: this one takes its turn after it
  (R124) -/
  behind : Option Nat := none
  /-- a release at core scope has made it visible to the strands of its core (R127, R130) -/
  published : Bool := false
deriving DecidableEq, Repr

/-- An invalidation that other dies receive as a multicast (R104, R332): a range of a device-local space, or the page of a
level-3 entry. -/
inductive Stale where
  | range (root va len : Nat)
  | entry (place : Nat)
deriving DecidableEq, Repr

/-- A page walk (R102): its die, the pages that it is for, by the root of their space, who waits for it (a strand k, 1024 + an
engine, 2048 + a slot, 8192 + a rope head), and whether it has ended without an entry for the TLB. -/
structure Walk where
  die : Nat
  pages : List (Nat × Nat)
  who : List Nat := []
  failed : Bool := false
deriving DecidableEq, Repr

/-- A line of 256 bytes that a cache holds, with the ev field of its latest access, and for an L2 slice the sectors of it that
are not Invalid, a bit each (R112, R118). -/
structure CacheLine where
  line : Nat
  ev : Nat
  sectors : Nat := 0
deriving DecidableEq, Repr

/-- One core: what its four strands share (R51, R55 to R60, R67, R228, R270). -/
structure Core where
  tiles : Table Tile := []
  /-- the format of the most recently issued MZERO: true for integer (R398) -/
  tileFmt : Table Bool := []
  latches : Table Latch := []
  /-- the latches as they stood before the latest MLATCH landed, and its cycle L (R233) -/
  latchOld : Table Latch := []
  latchAt : Nat := 0
  sems : Table (BitVec 32) := []
  rings : Table Word := []
  cq : Table (List Place) := []
  /-- inbound queue from rope position `j` for context slot `k`, at 8 k + j -/
  inq : Table (List Place) := []
  split : Nat := 4
  /-- its TLB, the latest filled first (R103) -/
  tlb : List TlbEntry := []
  /-- the tile-table entries that its layout unit holds, by flat address, the latest read first (R111) -/
  tileTable : List (Nat × Nat) := []
  tickets : Table Ticket := []
  mxq : Table (List MxCmd) := []
  /-- started commands by path; an array operation that has ended its steps, before it lands, under 8 + its number -/
  mxRun : Table MxCmd := []
  mxNum : Nat := 0
  /-- the context slot that its spill engine served last (R247) -/
  spilled : Nat := 0
  /-- L1: the sectors that it holds, those of them that are Dirty, and its lines, the latest used first (R112, R118) -/
  l1 : Table Sector := []
  l1Dirty : List Nat := []
  lines : List CacheLine := []
  sel : Nat := 0
  /-- the turn of that strand has ended: it blocked, exited, froze or trapped, and the selector looks for another; and its
  turn ends on the next cycle, as it has trapped or been rolled back (R26) -/
  gave : Bool := false
  ends : Bool := false
deriving DecidableEq, Repr

/-! ## Ropes and streams -/

/-- The reservation states of R45. -/
inductive Reservation where
  | free
  | held (slot : Nat)
  | busy (slot : Nat)
deriving DecidableEq, Repr

/-- A reload of a rope head's copy that an IINVAL started (R268): image offsets [lo, lo + len) of a bank. -/
structure Reload where
  /-- number of the IINVAL that started it -/
  num : Nat
  /-- the strand that issued it; its context's images are read -/
  strand : Nat
  cls : Nat
  bank : Nat
  lo : Nat
  len : Nat
  /-- the strand's earlier remote accesses of the class, which perform first, and the pages that the host has refused -/
  after : List Nat := []
  refused : List Nat := []
deriving DecidableEq, Repr

/-- One rope head (R45, R70, R71). -/
structure Rope where
  res : Reservation := .free
  ready : Bool := false
  /-- bytes of the copies: bank b, image offset o at b x 2^18 + o -/
  copy : Table Byte := []
  /-- entries and words marked bad: 1 with a flat address for a failed page, 2 with a physical one for poison -/
  bad : Table (Nat × Nat) := []
  reloads : List Reload := []
  streams : Table Stream := []
  /-- strand that the private fetch port granted last, and the first cycle of its next grant (R31) -/
  granted : Nat := 0
  portAt : Nat := 0
  /-- MOPR rendezvous: per context slot, the positions that have issued it -/
  mopr : Table (List Nat) := []
  /-- a forced freeze has stopped its reads (R47) -/
  stopped : Bool := false
deriving DecidableEq, Repr

/-! ## Queues and gangs -/

/-- A region-table entry (R116, R306). -/
structure TokenRegion where
  tok : Nat
  die : Nat
  holder : Nat
  base : Nat
  size : Nat
deriving DecidableEq, Repr

/-- A kernel descriptor's fields (R306). -/
structure Desc where
  img0 : Nat := 0
  img1 : Nat := 0
  entry : List Nat := []
  smask : Nat := 0
  gdies : Nat := 1
  gropes : Nat := 1
  split : Nat := 4
  acc : List Nat := []
  hshare : Nat := 16
  latch : List Nat := []
  ttab : Nat := 0
  stkb : Nat := 0
  stksz : Nat := 0
  stkmark : Nat := 0
  spillb : Nat := 0
  spillsz : Nat := 0
  /-- kind (0 absent, 1 T, 2 C, 3 D) and trip of the six levels -/
  loop : List (Nat × Nat) := []
  ring : List Nat := []
  regions : List TokenRegion := []
  prots : List (Nat × Nat × Nat) := []
deriving DecidableEq, Repr

/-- A launch packet's fields (R304). -/
structure Launch where
  seq : Nat := 0
  kdesc : Nat := 0
  args : Nat := 0
  seed : Nat := 0
  depa : Nat := 0
  dept : Nat := 0
  donea : Nat := 0
  donei : Nat := 0
  irq : Bool := false
deriving DecidableEq, Repr

/-- How far a launch has come (R307, R316, R45 to R48, R308). -/
inductive Phase where
  | waiting
  | placing
  | reserving
  | backoff
  | loading
  | starting
  | running
  | freezing
  | saved
  | resuming
  | finished
  /-- it has ended, and its completion record waits for a page (R308) -/
  | closing
deriving DecidableEq, Repr

/-! ## Haul engines -/

/-- A fabric access that an engine has in flight or holds ticketed (R289). -/
structure EngAccess where
  tag : Nat
  write : Bool
  addr : Nat
  data : Nat
  len : Nat
  atomic : Bool := false
  /-- it has left the engine -/
  sent : Bool := false
  ticket : Option Nat := none
  ready : Bool := false
  /-- when its ticket came, and how many it has had in a row (R410) -/
  ticketAt : Nat := 0
  chain : Nat := 0
  /-- the latest notice of its owner and class since it was sent (R454) -/
  told : Option Nat := none
deriving DecidableEq, Repr

/-- A haul command (R281, R285). -/
structure Haul where
  /-- its engine's number -/
  eng : Nat := 0
  strand : Nat
  slot : Nat
  /-- 0 HAUL, 1 HAULG, 2 HGATH, 3 HSCAT -/
  kind : Nat
  block : List Byte
  t : Nat
  late : Bool
  at_ : Attr
  /-- report port and the reserved place -/
  report : Option (Nat × Nat) := none
  /-- destination bytes written (over the fabric, acknowledged), flags of a combine, fault end -/
  bytes : Nat := 0
  fl : Nat := 0
  failed : Bool := false
  pend : List EngAccess := []
  /-- earlier remote accesses that hold a pod-scope command's fork (R133) -/
  fork : List Nat := []
  /-- its reads over the fabric have been requested, and what they have returned: address and bytes -/
  asked : Bool := false
  got : List (Nat × List Byte) := []
  /-- its accesses have been made -/
  moved : Bool := false
  /-- its mark-counter add has performed, or been sent over the fabric (R287) -/
  marked : Bool := false
  /-- a host-shared miss that it waits for: the address (R289) -/
  missing : Option Nat := none
  /-- CYC at which a resume re-entered it: its time counts from its strand's cycle G (R290) -/
  resumedAt : Option Nat := none
  /-- it has found a page of a space on the move, and the cycle on which it first did (R120) -/
  stalledAt : Option (Nat × Nat × Nat) := none
deriving DecidableEq, Repr

/-- A haul engine (R279, R294). -/
structure Engine where
  buf : List Haul := []
  run : List Haul := []
  late : Table Nat := []
  flt : Table Nat := []
deriving DecidableEq, Repr

/-- What a freeze saves with the gang (R47, R51, R412). -/
structure Saved where
  strands : Table Strand := []
  cores : Table Core := []
  streams : Table Stream := []
  spm : List Host.Cell := []
  full : List Nat := []
  /-- waiting haul commands by engine, with t - C_F for t (R290) -/
  hauls : List (Nat × Haul) := []
  /-- engine, LATE and FLT (R294) -/
  counts : List (Nat × Nat × Nat) := []
  /-- rendezvous that have not started (R239), and token holders (R265) -/
  mopr : Table (List Nat) := []
  tokens : List (Nat × Nat) := []
deriving DecidableEq, Repr

/-- A gang (R18, R45, R307). -/
structure Gang where
  launch : Launch := {}
  desc : Desc := {}
  phase : Phase := .waiting
  /-- ropes in use or reserved, in increasing number -/
  ropes : List Nat := []
  granted : List Nat := []
  ready : List Nat := []
  nsm : Table Word := []
  startAt : Nat := 0
  retryAt : Nat := 0
  /-- CYC on the cycle of the pre-emption request, and the cycle on which its deadline came (R46, R47) -/
  yAt : Option Nat := none
  forcedAt : Option Nat := none
  pdl : Nat := 0
  byYield : Bool := false
  /-- the dependence is met; the locations of its counter; the read of one on another device that is out, and the status and
  value that the latest has brought (R307, R327) -/
  depMet : Bool := false
  depLocs : List Nat := []
  depTag : Option Nat := none
  depGot : Option (Nat × Nat) := none
  /-- the handler stands in the image (R72); pages of the images that the host refuses (R71) -/
  handled : Bool := false
  refused : List Nat := []
  /-- the host refuses a page of the save area (R315) -/
  lostArea : Bool := false
  status : Nat := 0
  code : Nat := 0
  saved : Option Saved := none
  /-- CYC of the latest watchdog comparison, and whether one found no progress (R318) -/
  checkedAt : Nat := 0
  stalled : Bool := false
  /-- the RATOM that adds DONEI is out (R308) -/
  doneTag : Option Nat := none
  doneSent : Bool := false
deriving DecidableEq, Repr

/-- A queue control block (R310, R311). -/
structure Queue where
  qbase : Nat := 0
  qsize : Nat := 0
  qhead : Nat := 0
  qtail : Nat := 0
  en : Bool := false
  hs : Bool := false
  bprio : Nat := 0
  eprio : Nat := 0
  pend : Bool := false
  err : Bool := false
  bke : Bool := false
  froz : Bool := false
  lacc : Nat := 0
  ldone : Nat := 0
  crbase : Nat := 0
  crsize : Nat := 0
  pdlv : Nat := 0
  xlat : Nat := 0
  prog : Nat := 0
  plast : Nat := 0
  wdint : Nat := 0
  wstart : Nat := 0
  mapc : Nat := 0
  savea : Nat := 0
  ropes : Nat := 0
  /-- bytes 120 to 255: firmware use -/
  fw : Table Byte := []
  /-- accepted launches that are not dispatched (R305, R307), and the gang that is frozen at SAVEA (R315) -/
  accepted : List Launch := []
  frozen : Option Gang := none
deriving DecidableEq, Repr

/-- A hardware queue slot (R307, R314, R317). -/
structure Slot where
  queue : Option Nat := none
  gang : Option Gang := none
  attempt : Nat := 0
  evicting : Bool := false
deriving DecidableEq, Repr

/-! ## Protected state -/

/-- The states of a protected region (R295, R296). -/
inductive RegionState where
  | joining
  | prot
  | leaving
deriving DecidableEq, Repr

/-- A protected region: base and size in the flat space, its group, data-space offset in units, frames of its pages. -/
structure Region where
  queue : Nat
  base : Nat
  size : Nat
  grp : Nat
  st : RegionState
  unit : Nat
  frames : List Nat
  /-- pitch that was tracked when it was registered -/
  pitch : Nat
deriving DecidableEq, Repr

/-- An undo entry (R340): a line, the pitch it belongs to, and its number in the undo area of the line's stack, which holds
the before-image. -/
structure Undo where
  grp : Nat
  line : Nat
  pitch : Nat
  place : Nat
deriving DecidableEq, Repr

/-- A staging entry (R340, R342): a parity line of a group for a pitch parity bit, and its number in the staging area,
which holds the sum of the deltas. -/
structure Stage where
  grp : Nat
  bit : Nat
  off : Nat
  place : Nat
deriving DecidableEq, Repr

/-- An open commit (R346). -/
structure Commit where
  pitch : Nat
  openedAt : Nat
  /-- dirty lines of the pitch -/
  lines : List Nat
  overflow : Bool
  /-- lines whose deltas wait, their stack being in critical self-refresh (R420) -/
  unsent : List Nat := []
  /-- outstanding delta tags -/
  deltas : List Nat := []
  /-- first failure among the deltas: cause -/
  failed : Nat := 0
  voted : Bool := false
deriving DecidableEq, Repr

/-- A group slot (R335, R344, R436, R444). The registers are held by offset. -/
structure Group where
  regs : Table Word := []
  /-- the areas, base and bytes, whose zeroing is under way (R336) -/
  zeroing : List (Nat × Nat) := []
  pitch : Nat := 0
  dirty : List Nat := []
  overflow : Bool := false
  commit : Option Commit := none
  lastAbort : Option Nat := none
  /-- coordinator: members that have voted ready, and when the first vote came (R346) -/
  votes : List Nat := []
  timer : Option Nat := none
  /-- a kill whose abort waits for settling (R449), and a GOWN.V clear that waits for a commit's outcome (R347) -/
  killed : Bool := false
  ending : Bool := false
  /-- consecutive misses of each member (R436) -/
  miss : Table Nat := []
  /-- recovery coordinator: answers of the present settling round (PITCH, PEND, DEC) -/
  settle : Option (Table (Nat × Nat × Nat)) := none
  /-- accelerator that each lost member was (R445, R450) -/
  lostAcc : Table Nat := []
  /-- when the last probe period began; the member has been expelled and probes no more (R436, R438) -/
  probeAt : Nat := 0
  expelled : Bool := false
  /-- rebuild target: lines received, data space then parity area -/
  received : List Nat := []
  /-- record reads sent and not answered: member, tag, cycle (R426, R436) -/
  asked : List (Nat × Nat × Nat) := []
  /-- accelerators that have been declared lost and are no members again (R437) -/
  gone : List Nat := []
  /-- rebuild target: the members whose record read at the end has missed, and the reply of the one that has answered
  (R446) -/
  tried : List Nat := []
  endReply : Option Nat := none
  /-- survivor: next data unit and parity unit to build (R445) -/
  rebuild : Option Nat := none
deriving DecidableEq, Repr

/-- A read of a member's line in a stripe row: the member, the line within the unit, the tag of the request, and the bytes that
it has brought (R416, R445). -/
structure RowRead where
  member : Nat
  line : Nat
  tag : Nat
  data : Option (List Byte) := none
deriving DecidableEq, Repr

/-- A line under repair, or the unit that is being rebuilt, and the reads of its row; members whose units cannot be read
(R416, R445). -/
structure RowJob where
  grp : Nat
  line : Option Nat
  reads : List RowRead := []
  bad : List Nat := []
deriving DecidableEq, Repr

/-- The device's protected-state units (R339 to R348). -/
structure Cairn where
  regions : List Region := []
  undo : List Undo := []
  stage : List Stage := []
  request : Bool := false
  /-- estimator (R348) -/
  e : Nat := 0
  t : Nat := 0
  m : Nat := 17179869184
  c : Int := 2097152
  pace : Nat := 268435456
  prior : Nat := 16384
  rwt : Nat := 16
  decay : Nat := 4
  /-- accelerators declared lost and not rebuilt, those of this window, and when the window began (R348, R450) -/
  losses : List Nat := []
  lossCount : Nat := 0
  windowAt : Nat := 0
  recoverable : Nat := 0
  cshare : Nat := 32
  jobs : List RowJob := []
deriving DecidableEq, Repr

/-! ## Fabric -/

/-- What the device sends over the fabric, through a station. -/
inductive Sent where
  | request (dest station : Nat) (r : FabReq)
  /-- status: 0 data, 1 ticket, 2 error, 3 poison -/
  | reply (dest station who tag status data : Nat)
  | message (dest station : Nat) (m : Msg)
deriving DecidableEq, Repr

/-- What waits in an egress queue of a station, or before the link to it: the die that sends it, and the cycle on which it
was queued (R326, R332, R423, R430). -/
structure Outgoing where
  die : Nat
  item : Sent
  at_ : Nat
deriving DecidableEq, Repr

/-- A station (R423, R424). -/
structure Station where
  down : Bool := true
  ret : Bool := false
  bkt : Nat := 0
  rtr : Nat := 0
  rpl : Nat := 0
  /-- cycle on which a retrain began -/
  training : Option Nat := none
  /-- cycle from which the bucket's leak counts -/
  leakFrom : Nat := 0
  /-- what its replay buffer keeps while it retrains -/
  replay : List Sent := []
deriving DecidableEq, Repr

/-- A stalled pair at the owner (R139, R409). -/
structure Stall where
  src : Nat
  who : Nat
  cls : Nat
  /-- the die of the ingress that has stalled it -/
  die : Nat := 0
  /-- the tickets not yet replayed, in the order of their numbers, with their requests' tags -/
  open_ : List (Nat × Nat) := []
  /-- the ticket of the latest request that could not perform by itself: what holds an older one follows it -/
  again : Option Nat := none
  /-- why: 0 full buffer, 1 moving page, 2 failed walk; the export page, the place of its level-3 entry, and whether the
  request writes -/
  why : Nat
  page : Nat
  place : Nat := 0
  write : Bool := false
  /-- the export space has been invalidated since the latest walk -/
  look : Bool := false
  /-- the notice for what the pair waits for is still to be posted -/
  owed : Bool := true
  /-- a notice of the pair has been posted; a replay has arrived since the latest one -/
  posted : Bool := false
  heard : Bool := false
  /-- cycles of the latest notice, of its latest repetition, and of the pair's latest request -/
  noticeAt : Nat := 0
  resentAt : Nat := 0
  heardAt : Nat := 0
deriving DecidableEq, Repr

/-- What a requester sends over its path to another accelerator (R327): a request that is answered, or a message, with the
requester and the class that choose the path. -/
inductive Parcel where
  | request (r : FabReq)
  | message (who cls : Nat) (m : Msg)
deriving DecidableEq, Repr

/-- What a multicast between dies says (R332): an invalidation of translations; an INVAL's of cache sectors and tile-table
entries in cores; an IINVAL's reloads in ropes; a gang's start cycle, YREQ or freeze, by its slot. Those that a strand has
asked for carry its number and their class. -/
inductive Note where
  | stale (w : Stale)
  | caches (num strand cls : Nat) (parts : List (Nat × Nat)) (lo len : Nat) (cores : List Nat)
  | reloads (num strand cls : Nat) (ropes : List Nat) (l : List Reload)
  | start (slot : Nat)
  | yreq (slot : Nat)
  | freeze (slot : Nat)
deriving DecidableEq, Repr

/-- A multicast held at its fan-out point (R332). -/
structure Mcast where
  src : Nat
  dests : List Nat
  what : Note
deriving DecidableEq, Repr

/-- A request of the device's that has left and has no answer yet: destination, class, requester, tag, cycle (R426). -/
structure Unanswered where
  dest : Nat
  cls : Nat
  who : Nat
  tag : Nat
  at_ : Nat
deriving DecidableEq, Repr

/-- The fabric side of the device (R324 to R333, R408, R409, R424 to R431). -/
structure Fabric where
  egress : Table Nat := []
  cur : Nat := 0
  busy : Bool := false
  /-- pairs of destination and class still on the old generation -/
  pairs : List (Nat × Nat) := []
  /-- what is held until its pair of destination and class has switched -/
  held : List (Nat × Parcel) := []
  stations : Table Station := []
  fen : Bool := false
  bthr : Nat := 8
  leak : Nat := 16384
  tmo : Nat := 16384
  fstat0 : Nat := 0
  fstat1 : Nat := 0
  /-- requests sent and not answered -/
  out : List Unanswered := []
  sent : List Sent := []
  /-- what waits in the stations' egress queues and before the links to them -/
  egressQ : List Outgoing := []
  ingress : List FabReq := []
  /-- requests whose location and memory type are known and that wait for a stack, a link or a repair -/
  waiting : List (FabReq × Nat × Nat) := []
  walks : List FabReq := []
  stalls : List Stall := []
  /-- the next ticket number of each pair of requester and class (R330) -/
  ticketNos : Table Nat := []
  spaceRoot : Option Nat := none
  /-- die-to-die lane groups: 256 link + group -/
  lanes : Table Station := []
  routeGen : Nat := 0
  routePairs : List (Nat × Nat) := []
  /-- by 16 x generation + 2 x link + direction: the lane groups that carry no traffic, a bit each; the table of `routeGen`
  is in use (R333) -/
  laneSet : Table Nat := []
  mcast : List Mcast := []
deriving DecidableEq, Repr

/-! ## Translation and memory units -/

/-- Translation, caches below L1, and memory health. -/
structure Mem where
  /-- the shared TLBs of the dies, the latest filled first (R103), and the walks in flight (R102) -/
  tlb : List TlbEntry := []
  walks : List Walk := []
  /-- staging MiB of slice 16 d + i (R115) -/
  staging : Table Nat := []
  /-- what lies below a Dirty L2 sector: its older value at the controller (R112, R118) -/
  below : Table Sector := []
  /-- the lines that slice 16 d + i holds, the latest used first (R112, R118) -/
  l2 : Table (List CacheLine) := []
  /-- invalidations that have not completed: what, and the frames that the old translations led to (R104) -/
  invals : List (Stale × List Nat) := []
  /-- poisoned sectors (R414) -/
  poison : List Nat := []
  /-- stores that have left a core and wait for a stack in critical self-refresh or for a link, in order (R16, R420) -/
  queued : List Store := []
  /-- protected lines that could not be repaired (R416) -/
  lostLines : List Nat := []
  /-- page moves in progress: page-table entry address, old entry (R120) -/
  moves : List (Nat × Nat) := []
  /-- the host's invalidations that have not completed: PASID, address, and the frames that the old translations led to
  (R104, R105) -/
  atsInvals : List (Nat × Nat × List Nat) := []
  /-- the translations that an engine, a slot or a rope head, numbered as a walk numbers them, has waited for in the access that
  it makes (R102, R103) -/
  found : List (Nat × TlbEntry) := []
  agep : Nat := 0
  /-- stacks whose refresh rate is doubled (R367), and those in critical self-refresh (R420) -/
  refresh2 : List Nat := []
  selfRefresh : List Nat := []
  /-- bank under refresh: stack, bank -/
  banks : List (Nat × Nat) := []
deriving DecidableEq, Repr

/-! ## Host interface and platform -/

/-- A host-shared miss that the device has put to the host (R105, R289, R407): who asked (a strand k, 1024 + an engine,
2048 + a slot, 4096 + a queue, 8192 + a rope head), the PASID, the address and the faulting bundle. -/
structure Ask where
  who : Nat
  /-- the die whose TLB missed -/
  die : Nat := 0
  pasid : Nat
  addr : Nat
  tba : Nat := 0
  /-- CYC of the request, or of the page request that followed it -/
  sentAt : Nat
  /-- the translation request has been sent a second time, and the cycle on which one failed -/
  retried : Bool := false
  failedAt : Option Nat := none
  /-- a PRI page request is out, or waits on the device for one to be answered (R319, R407) -/
  paged : Bool := false
  queued : Bool := false
deriving DecidableEq, Repr

/-- A host request through BAR2 that waits for a stack in critical self-refresh (R321, R420). -/
inductive HostReq where
  | write (off : Nat) (data : List Byte) (poisoned : Bool)
  | read (off len : Nat)
deriving DecidableEq, Repr

/-- The algorithms of SPDM that the responder knows (R364). -/
inductive SpdmAlg where
  | sha384
  | ecdsaP384
  | secp384r1
  | aes256Gcm
deriving DecidableEq, Repr

/-- The host side (R303, R309, R322, R323, R384, R432). -/
structure HostIf where
  evbase : Nat := 0
  evsize : Nat := 0
  evseq : Nat := 0
  evack : Nat := 0
  msix : Table Nat := []
  msixPend : List Nat := []
  msixSent : List Nat := []
  flogBase : Nat := 0
  flogSize : Nat := 0
  flogSeq : Nat := 0
  /-- AER log: class (0 correctable, 1 non-fatal, 2 fatal) and kind -/
  aer : List (Nat × Nat) := []
  /-- answers to host reads through BAR2: status (0 data, 1 Unsupported Request, 2 poison), bytes -/
  reads : List (Nat × List Byte) := []
  /-- BAR2 requests that wait, in order -/
  bar2 : List HostReq := []
  /-- ATS, PRI and invalidation messages sent to the host: kind, PASID, address -/
  ats : List (Nat × Nat × Nat) := []
  /-- host-shared misses that wait for the host -/
  asks : List Ask := []
  /-- mailbox answers: code of the request (0xFF for an error), payload -/
  doe : List (Nat × List Nat) := []
  session : Nat := 0
  /-- the algorithms that an SPDM connection has negotiated (R364) -/
  algs : List SpdmAlg := []
  ideKeys : Table Nat := []
deriving DecidableEq, Repr

/-- A thermal zone (R366). -/
structure Zone where
  temp : Int := 0
  warn : Int := 760
  crs : Bool := false
  wrs : Bool := false
deriving DecidableEq, Repr

/-- An error-counter block and its scrubber (R417, R418). -/
structure ErrUnit where
  ce : Nat := 0
  ue : Nat := 0
  rep : Nat := 0
  esc : Bool := false
  per : Nat := 4096
  thr : Nat := 16
  /-- lines scrubbed in the pass -/
  lines : Nat := 0
  /-- CYC at the pass's start, and at the latest entry into self-refresh -/
  since : Nat := 0
  sleptAt : Nat := 0
deriving DecidableEq, Repr

/-- Boot, power, thermal and management (R360 to R368, R383, R417). -/
structure Platform where
  bootSt : Nat := 0
  bootErr : Nat := 0
  bootSvn : Nat := 0
  bootLen : Nat := 0
  /-- copy of the image that no port can write (R360) -/
  image : List Byte := []
  digest : BitVec 384 := 0
  aliases : List (BitVec 384) := []
  plim : Nat := 2000
  pavg : Nat := 0
  freq : Nat := 2500
  capn : Nat := 0
  zones : Table Zone := []
  errs : Table ErrUnit := []
  beats : Table Nat := []
  /-- CYC of the latest power comparison and heartbeat check -/
  comparedAt : Nat := 0
  beatAt : Nat := 0
  /-- the device has been stopped (R383); by a die at CRIT, which only a cold reset ends (R367) -/
  stopped : Bool := false
  crit : Bool := false
deriving DecidableEq, Repr

/-! ## The bundle being issued -/

/-- What `exec` is asked to do with a slot instruction: record faults and waits only; act only; or both at once. -/
inductive Stage3 where
  | lone
  | probe
  | act
deriving DecidableEq, Repr

/-- The issue of one bundle (R62, R147, R387). -/
structure Issue where
  phase : Stage3 := .lone
  strand : Nat := 0
  slot : Nat := 0
  pc : Nat := 0
  bank : Nat := 0
  succ : Nat := 0
  x : Bool := false
  /-- the strand as it stood before the bundle -/
  pre : Strand := {}
  faults : List SlotFault := []
  waits : List Wait := []
  /-- accesses that fail once the checks have passed -/
  misses : List Miss := []
  /-- flags to OR in at commit (R62) -/
  flags : Nat := 0
  /-- pushes and pops reserved so far by earlier slots: port codes -/
  pops : List Nat := []
  pushes : List Nat := []
  /-- the header's MK (R39) -/
  mark : Bool := false
  /-- the bundle has committed -/
  committed : Bool := false
  /-- cause and TINFO of a TRAP, BKPT or SVC, which traps once its bundle has committed (R193) -/
  after : Option (Cause × Nat) := none
  /-- the bundle holds an EXIT, which ends the strand once it has committed (R190) -/
  exits : Bool := false
  /-- the bundle transfers control, so no loop end is matched (R183) -/
  transfer : Bool := false
  /-- the bundle is irrevocable: the next bundle is the restart point (R40) -/
  sealed_ : Bool := false
  /-- what an MTS of the bundle writes at the commit: register and value (R62) -/
  special : Option (Nat × Nat) := none
deriving DecidableEq, Repr

/-- An entry of the agenda: a step of another party or unit, or time that passes. -/
inductive Agendum where
  | event (i : Instr)
  | cycles (n : Nat)
  | firmware (strand : Nat)
deriving DecidableEq, Repr

/-- A write token on its way: its number 1024 d + n, the core that it goes to, and the core that has passed it and drains
the region first (R116, R265). -/
structure Passing where
  token : Nat
  dest : Nat
  source : Nat
deriving DecidableEq, Repr

/-- An operation that reaches a semaphore: of an engine, or from another core or device; core, semaphore, whether it sets
the count, and its value (R58, R261). -/
structure SemOp where
  engine : Option Nat := none
  core : Nat
  sem : Nat
  sets : Bool := false
  val : Nat
deriving DecidableEq, Repr

/-- The state of the machine. -/
structure State where
  strands : Table Strand := []
  cores : Table Core := []
  ropes : Table Rope := []
  slots : Table Slot := []
  queues : Table Queue := []
  engines : Table Engine := []
  groups : Table Group := []
  /-- memory: device physical addresses, scratchpads and host memory (log entry 2) -/
  mem : List Host.Cell := []
  /-- full scratchpad words, by location div 8 (R68) -/
  full : List Nat := []
  /-- holders of write tokens: token 1024 d + n, core (R265) -/
  tokens : Table Nat := []
  /-- tokens in transit -/
  transit : List Passing := []
  sys : Mem := {}
  fab : Fabric := {}
  cairn : Cairn := {}
  host : HostIf := {}
  plat : Platform := {}
  /-- CYC, what has passed of its next count in units of 1 / FREQ, and the arithmetic cycle (R7, R365) -/
  cyc : Word := 0
  cycRest : Nat := 0
  cycle : Nat := 0
  devid : Nat := 0
  turn : Nat := 0
  /-- cores whose next bundle waits for the semaphore operations of the cycle, and that those have performed (R58) -/
  deferred : List Nat := []
  arrived : Bool := false
  /-- operations that reach a semaphore on this cycle from engines and from outside its core (R58) -/
  semOps : List SemOp := []
  issue : Issue := {}
  agenda : List Agendum := []
  freeCount : Nat := 0
  /-- scratchpad words of which a full/empty operation has been served on this cycle (R259) -/
  granted : List Nat := []
  /-- W1C bits that hardware has set on this cycle, which a write does not clear (R9): CRS of zone z as 2 z, WRS as 2 z + 1,
  RET of station i as 32 + i, ERR of queue q as 64 + q -/
  raised : List Nat := []
  /-- mapping decisions that are due: one for each PEND set, gang completion and saved gang that yielded, and one for a cycle
  on which a pending EPRIO rises, which is the second field (R314, R315) -/
  mapDue : Nat := 0
  agedAt : Option Nat := none
  /-- the model's own numbering of reserved places and requests -/
  serial : Nat := 0
deriving DecidableEq, Repr

/-- The machine right after a cold reset: no gang, no mapped queue, every register at its map's reset value
(R368), and every register that has none at zero (log entry 1). -/
def State.reset : State := {}

end Sys2Proof.Machine
end

