-- ==== Sys2Proof/Machine/Memory.lean ====
section
/-! DEFINITION. Access to the numbered collections of the state, memory byte by byte, event and interrupt posting,
before-images, caches, and address translation (chapters 05, 06, 14, 15). -/

namespace Sys2Proof.Machine

/-! ## The numbered collections -/

/-- Strand `k` = 4 x CORE + STRAND (R15). -/
def State.strand (s : State) (k : Nat) : Strand := Table.get s.strands {} k

/-- Core `c`. -/
def State.core (s : State) (c : Nat) : Core := Table.get s.cores {} c

/-- Rope `r`. -/
def State.rope (s : State) (r : Nat) : Rope := Table.get s.ropes {} r

/-- Hardware queue slot `h`. -/
def State.slot (s : State) (h : Nat) : Slot := Table.get s.slots {} h

/-- The control block of user queue `q` (R310, R458). -/
def State.queue (s : State) (q : Nat) : Queue := Table.get s.queues {} q

/-- Haul engine `e` = 16 x DIE + ENG. -/
def State.engine (s : State) (e : Nat) : Engine := Table.get s.engines {} e

/-- Group slot `g`. -/
def State.group (s : State) (g : Nat) : Group := Table.get s.groups {} g

/-- Replace strand `k`. -/
def State.setStrand (s : State) (k : Nat) (x : Strand) : State := { s with strands := Table.set s.strands k x }

/-- Replace core `c`. -/
def State.setCore (s : State) (c : Nat) (x : Core) : State := { s with cores := Table.set s.cores c x }

/-- Replace rope `r`. -/
def State.setRope (s : State) (r : Nat) (x : Rope) : State := { s with ropes := Table.set s.ropes r x }

/-- Replace slot `h`. -/
def State.setSlot (s : State) (h : Nat) (x : Slot) : State := { s with slots := Table.set s.slots h x }

/-- Replace queue `q`. -/
def State.setQueue (s : State) (q : Nat) (x : Queue) : State := { s with queues := Table.set s.queues q x }

/-- Replace engine `e`. -/
def State.setEngine (s : State) (e : Nat) (x : Engine) : State := { s with engines := Table.set s.engines e x }

/-- Replace group slot `g`. -/
def State.setGroup (s : State) (g : Nat) (x : Group) : State := { s with groups := Table.set s.groups g x }

/-- Change strand `k`. -/
def State.onStrand (s : State) (k : Nat) (f : Strand → Strand) : State := s.setStrand k (f (s.strand k))

/-- Change core `c`. -/
def State.onCore (s : State) (c : Nat) (f : Core → Core) : State := s.setCore c (f (s.core c))

/-- Change rope `r`. -/
def State.onRope (s : State) (r : Nat) (f : Rope → Rope) : State := s.setRope r (f (s.rope r))

/-- Change slot `h`. -/
def State.onSlot (s : State) (h : Nat) (f : Slot → Slot) : State := s.setSlot h (f (s.slot h))

/-- Change queue `q`. -/
def State.onQueue (s : State) (q : Nat) (f : Queue → Queue) : State := s.setQueue q (f (s.queue q))

/-- Change engine `e`. -/
def State.onEngine (s : State) (e : Nat) (f : Engine → Engine) : State := s.setEngine e (f (s.engine e))

/-- Change group slot `g`. -/
def State.onGroup (s : State) (g : Nat) (f : Group → Group) : State := s.setGroup g (f (s.group g))

/-! ## Identity (R15) -/

/-- The core of strand `k`. -/
def coreOf (k : Nat) : Nat := k / 4

/-- The context slot of strand `k`. -/
def ctxOf (k : Nat) : Nat := k % 4

/-- The rope of strand `k`. -/
def ropeOf (k : Nat) : Nat := k / 32

/-- The position of strand `k`'s core in its rope. -/
def posOf (k : Nat) : Nat := k / 4 % 8

/-- The die of strand `k`. -/
def dieOf (k : Nat) : Nat := k / 256

/-- The strand of context slot `c` on the core at position `p` of rope `r`. -/
def strandAt (r c p : Nat) : Nat := 4 * (8 * r + p) + c

/-- The slot whose gang uses rope `r` (R45). -/
def State.slotOfRope (s : State) (r : Nat) : Option Nat :=
  match (s.rope r).res with
  | .busy h => some h
  | _ => none

/-- The gang that runs on rope `r`. -/
def State.gangOfRope (s : State) (r : Nat) : Option Gang :=
  match s.slotOfRope r with
  | some h => (s.slot h).gang
  | none => none

/-- The gang of strand `k`; outside a gang, one with an empty descriptor. -/
def State.gangOf (s : State) (k : Nat) : Gang := (s.gangOfRope (ropeOf k)).getD {}

/-- The user queue of strand `k`'s context. -/
def State.queueOf (s : State) (k : Nat) : Option Nat :=
  match s.slotOfRope (ropeOf k) with
  | some h => (s.slot h).queue
  | none => none

/-- Hardware sets a W1C bit, by its number in `raised` (R9). -/
def State.raiseBit (s : State) (n : Nat) : State := { s with raised := n :: s.raised }

/-- A write that clears W1C bit `n` leaves it as it is, set, on the cycle on which hardware sets it (R9). -/
def State.clears (s : State) (n : Nat) : Bool := !s.raised.contains n

/-! ## Bytes -/

/-- Scratchpad offset `o` of core `c` (log entry 2). -/
def spmLoc (c o : Nat) : Nat := 2 ^ 48 + c * 2 ^ 23 + o

/-- Host address `a` (log entry 2). -/
def hostLoc (a : Nat) : Nat := 2 ^ 64 + a

/-- What an unlisted location reads as (log entry 2). -/
def Memory.empty : Byte := 0

/-- The canonical form of memory: rising locations, and none listed that holds what an unlisted one reads as. -/
def Memory.wf (m : List Host.Cell) : Bool := Table.canon m Memory.empty

/-- The byte at a location. -/
def State.byte (s : State) (l : Nat) : Byte := Table.get s.mem Memory.empty l

/-- Write one byte. -/
def State.setByte (s : State) (l : Nat) (b : Byte) : State := { s with mem := Table.put s.mem Memory.empty l b }

/-- Write bytes at their locations, in order. -/
def State.setBytes (s : State) : List (Nat × Byte) → State
  | [] => s
  | (l, b) :: t => (s.setByte l b).setBytes t

/-- `n` successive locations. -/
def locsFrom (l : Nat) : Nat → List Nat
  | 0 => []
  | n + 1 => l :: locsFrom (l + 1) n

/-- The little-endian number of `n` bytes from a location (R4). -/
def State.num (s : State) (l n : Nat) : Nat := ofBytes ((locsFrom l n).map s.byte)

/-- Write a number as `n` little-endian bytes. -/
def State.setNum (s : State) (l n v : Nat) : State := s.setBytes ((locsFrom l n).zip (toBytes n v))

/-- Take every listed byte of a range out of memory: the range then reads as unlisted. -/
def State.clearRange (s : State) (lo n : Nat) : State :=
  { s with mem := s.mem.filter (fun c => !(decide (lo ≤ c.1) && decide (c.1 < lo + n))) }

/-! ## The physical map (R101) -/

/-- A populated HBM byte: stack windows of 2^36 bytes, 64 GB populated from each base. -/
def isHbm (pa : Nat) : Bool := decide (pa < 2 ^ 39) && decide (pa % 2 ^ 36 < 64000000000)

/-- The low-power DRAM tier. -/
def isTier (pa : Nat) : Bool := decide (2 ^ 40 ≤ pa) && decide (pa < 2 ^ 40 + 2 ^ 38)

/-- L2 staging memory. -/
def isStaging (pa : Nat) : Bool := decide (2 ^ 41 ≤ pa) && decide (pa < 2 ^ 41 + 2 ^ 28)

/-- Device registers: BAR0. -/
def isDevReg (pa : Nat) : Bool := decide (0xF00000000000 ≤ pa) && decide (pa < 0xF00004000000)

/-- The staging size of a slice in bytes; slices are numbered 16 x die + slice (R115). -/
def State.stagingSize (s : State) (i : Nat) : Nat := Table.get s.sys.staging 0 i * 2 ^ 20

/-- A physical address that a translation may reach. -/
def State.isMapped (s : State) (pa : Nat) : Bool :=
  isHbm pa || isTier pa || isDevReg pa ||
  (isStaging pa && decide (pa % 2 ^ 22 < s.stagingSize ((pa - 2 ^ 41) / 2 ^ 22)))

/-- The die that a location belongs to (R14, R17): of a stack, a channel, a staging slice or a scratchpad; device registers
and host memory are reached through CD0. -/
def homeDie (l : Nat) : Nat :=
  if l < 2 ^ 39 then l / 2 ^ 37
  else if isTier l then l / 2 ^ 14 % 4
  else if isStaging l then (l - 2 ^ 41) / 2 ^ 26
  else if 2 ^ 48 ≤ l ∧ l < 2 ^ 64 then (l - 2 ^ 48) / 2 ^ 29
  else 0

/-- The slice of its die that caches an HBM address (R113). -/
def sliceOf (pa : Nat) : Nat :=
  [8, 12, 16, 20, 24, 28, 32].foldl (fun x i => x ^^^ fld pa i 4) 0

/-- That slice by its number 16 x die + slice. -/
def sliceNo (pa : Nat) : Nat := 16 * homeDie pa + sliceOf pa

/-- The grid position of slice `i` of a die (R113). -/
def sliceGrid (i : Nat) : Nat × Nat := (i % 4, i / 4)

/-- The grid position of rope position `p` of a die; links enter a die at (0, 0) (R113). -/
def ropeGrid (p : Nat) : Nat × Nat := (p % 4, if p < 4 then 0 else 3)

/-- The grid distance of two positions (R114). -/
def gridDistance (a b : Nat × Nat) : Nat := (max a.1 b.1 - min a.1 b.1) + (max a.2 b.2 - min a.2 b.2)

/-- The typical cycles of a load by a core at rope position `p` of a die from the slice of an address (R114). -/
def l2Latency (die p pa : Nat) : Nat :=
  if homeDie pa = die then 60 + 6 * gridDistance (sliceGrid (sliceOf pa)) (ropeGrid p)
  else 104 + 6 * gridDistance (sliceGrid (sliceOf pa)) (0, 0)

/-! ## Die-to-die links (R16, R431) -/

/-- The number of the link between two dies (R431). -/
def linkOf (a b : Nat) : Nat :=
  ([(0, 1), (0, 2), (0, 3), (1, 2), (1, 3), (2, 3)] : List (Nat × Nat)).idxOf (min a b, max a b)

/-- A lane group: one that is not listed has been up since reset (log entry 1). -/
def State.lane (s : State) (link group : Nat) : Station :=
  Table.get s.fab.lanes { down := false } (256 * link + group)

/-- A link carries traffic: some group of it is up. -/
def State.linkUp (s : State) (link : Nat) : Bool :=
  s.fab.lanes.all (fun e => e.1 / 256 != link || !e.2.down) ||
  (List.range Config.laneGroups).any (fun g => !(s.lane link g).down)

/-- A transfer between two dies takes the link that joins them, and waits while that is down (R16, R431). -/
def State.cutOff (s : State) (a b : Nat) : Bool := a != b && !s.linkUp (linkOf a b)

/-- The stack of a location is in critical self-refresh, so requests to it wait (R420). -/
def State.sleeping (s : State) (pa : Nat) : Bool := isHbm pa && s.sys.selfRefresh.contains (pa / 2 ^ 36)

/-- A transfer of a class between two dies waits for the old transfers of their link and the class to be made, as the routing
table switches (R333). -/
def State.routeHolds (s : State) (a b cls : Nat) : Bool := a != b && s.fab.routePairs.contains (linkOf a b, cls)

/-- A request of a die to a location waits: for its stack, or for a link (R16, R420). -/
def State.homeWaits (s : State) (die l : Nat) : Bool := s.sleeping l || s.cutOff die (homeDie l)

/-- A store of a core to some of the locations has not performed at its home (R420). -/
def State.storeQueued (s : State) (c loc n : Nat) : Bool :=
  s.sys.queued.any (fun x => x.core == c && x.cells.any (fun e => decide (loc ≤ e.1) && decide (e.1 < loc + n)))

/-- Stores of a core have not performed at their homes. -/
def State.coreQueued (s : State) (c : Nat) : Bool := s.sys.queued.any (fun x => x.core == c)

/-- A multicast to dies waits at the fan-out point of its source (R332). -/
def State.multicast (s : State) (src : Nat) (dests : List Nat) (what : Note) : State :=
  { s with fab := { s.fab with mcast := s.fab.mcast ++ [{ src := src, dests := dests, what := what }] } }

/-! ## Events and interrupts (R309, R322, R323) -/

/-- A table entry at reset: masked (log entry 17). -/
def msixReset : Nat := 2 ^ 96

/-- After a failed verification only BOOTCTL and BOOTST answer (R434). -/
def State.bootHeld (s : State) : Bool := s.plat.bootSt == 1 && s.plat.bootErr != 0

/-- Signal an MSI-X vector: none is sent after a failed verification (R434), and a masked vector only sets its pending bit (R323). Entries are 16 bytes, and bit 0 of the last
word masks (log entry 17). -/
def State.msix (s : State) (v : Nat) : State :=
  if s.bootHeld then s
  else if bitAt (Table.get s.host.msix msixReset v) 96 then { s with host := { s.host with msixPend := v :: s.host.msixPend } }
  else { s with host := { s.host with msixSent := s.host.msixSent ++ [v] } }

/-- The event ring has no room (R309). -/
def State.eventFull (s : State) : Bool :=
  decide (s.host.evsize ≠ 0) && decide (s.host.evsize ≤ s.host.evseq - s.host.evack)

/-- Write an event: discarded while events are disabled or the ring is full (R309, R322). -/
def State.postEvent (s : State) (kind qnum data : Nat) : State :=
  if s.host.evsize = 0 ∨ s.eventFull then s
  else
    let e := s.host.evseq + 1
    let l := hostLoc (s.host.evbase + 32 * (e % s.host.evsize))
    let s := { s with host := { s.host with evseq := e } }
    ((s.setNum l 8 e).setNum (l + 8) 2 kind |>.setNum (l + 10) 6 qnum |>.setNum (l + 16) 8 data
      |>.setNum (l + 24) 8 s.cyc.toNat).msix 0

/-- A recoverable event for the estimator (R348, R369). -/
def State.recoverable (s : State) : State :=
  { s with cairn := { s.cairn with recoverable := s.cairn.recoverable + 1 } }

/-- Put a number into a list without repeats. -/
def addTo (n : Nat) (l : List Nat) : List Nat := if l.contains n then l else n :: l

/-! ## Before-images (R339 to R341) -/

/-- The reset value of a group slot's register: SULOG is 16, and the probe registers have MISS 3 and PER 4,096 (R335,
R436). -/
def groupReset (off : Nat) : Word := if off = 0x1C8 then 0x31000 else if off = 8 then 16 else 0

/-- A register of a group slot, by offset (R335). -/
def Group.reg (g : Group) (off : Nat) : Nat := (Table.get g.regs (groupReset off) off).toNat

/-- The group is enabled (GCTL.EN). -/
def Group.enabled (g : Group) : Bool := bitAt (g.reg 0) 63

/-- The pitch that the cairn engines track (R297). -/
def Group.tracked (g : Group) : Nat :=
  match g.commit with
  | some c => c.pitch + 1
  | none => g.pitch + 1

/-- The protected region that holds a 256-byte line: its frame is one of the region's (R337). -/
def State.regionOf (s : State) (line : Nat) : Option Region :=
  s.cairn.regions.find? (fun r => r.frames.contains (line / 256))

/-- The register of a group's undo area on a stack (R335). -/
def undoReg (stack : Nat) : Nat := 0x40 + 16 * stack

/-- An area of a group, of UNDOs, STAGs or DIMGs: base and length in bytes (R335). -/
def Group.area (g : Group) (off : Nat) : Nat × Nat := (fld (g.reg off) 16 23 * 2 ^ 16, fld (g.reg off) 40 24 * 2 ^ 16)

/-- Entries of an undo or staging area (R340). -/
def Group.room (g : Group) (off : Nat) : Nat := (g.area off).2 / 264

/-- Entries of a group's undo area on a stack (R340). -/
def Group.undoRoom (g : Group) (stack : Nat) : Nat := g.room (undoReg stack)

/-- The address of the header of an entry (R340). -/
def Group.headerAt (g : Group) (off e : Nat) : Nat := (g.area off).1 + 8 * e

/-- The address of the image of an entry (R340). -/
def Group.imageAt (g : Group) (off e : Nat) : Nat := (g.area off).1 + 256 * ((8 * g.room off + 255) / 256) + 256 * e

/-- The lowest entry number that is not in use (log entry 108). -/
def freePlace (used : List Nat) : Nat := ((List.range (used.length + 1)).find? (fun e => !used.contains e)).getD 0

/-- Write an entry of an area: V, the pitch's low bit, the group slot and what the header names, and the image, whose
sectors lose their poison (R340, R414). -/
def State.openEntry (s : State) (grp off e bit what : Nat) (image : List Byte) : State :=
  let g := s.group grp
  let at_ := g.imageAt off e
  let s := (s.setNum (g.headerAt off e) 8 (2 ^ 63 + bit * 2 ^ 62 + grp * 2 ^ 40 + what)).setBytes ((locsFrom at_ 256).zip image)
  { s with sys := { s.sys with poison := s.sys.poison.filter (fun x => decide (x / 4 ≠ at_ / 256)) } }

/-- An entry is no longer in use: its V is cleared (R340, log entry 108). -/
def State.closeEntry (s : State) (grp off e : Nat) : State :=
  let h := (s.group grp).headerAt off e
  s.setNum h 8 (s.num h 8 % 2 ^ 63)

/-- The image of an entry. -/
def State.entryImage (s : State) (grp off e : Nat) : List Byte :=
  (locsFrom ((s.group grp).imageAt off e) 256).map s.byte

/-- An entry has a poisoned sector, in its header or its image (R416). -/
def State.entryBad (s : State) (grp off e : Nat) : Bool :=
  s.sys.poison.any (fun x => x == (s.group grp).headerAt off e / 64 || x / 4 == (s.group grp).imageAt off e / 256)

/-- The register of the area that holds an undo entry. -/
def Undo.reg (u : Undo) : Nat := undoReg (u.line * 256 / 2 ^ 36)

/-- The before-image of an undo entry. -/
def State.imageOfUndo (s : State) (u : Undo) : List Byte := s.entryImage u.grp u.reg u.place

/-- The first write of the tracked pitch to a protected line copies the line's home value into the undo area of its
stack; a full area lets the write perform and marks the pitch overflowed (R339, R341). -/
def State.capture (s : State) (line : Nat) : State :=
  match s.regionOf line with
  | none => s
  | some r =>
    let g := s.group r.grp
    if g.dirty.contains line || (r.st == .joining && r.pitch == g.tracked) then s
    else
      let stack := line * 256 / 2 ^ 36
      let places := (s.cairn.undo.filter (fun u => u.grp = r.grp ∧ u.line * 256 / 2 ^ 36 = stack)).map (·.place)
      let used := places.length
      let room := g.undoRoom stack
      if room ≤ used then s.setGroup r.grp { g with dirty := line :: g.dirty, overflow := true }
      else
        let image := (locsFrom (line * 256) 256).map s.byte
        let entry : Undo := { grp := r.grp, line := line, pitch := g.tracked, place := freePlace places }
        let asks := decide (room * 9 < (used + 1) * 10) && (decide (used * 10 ≤ room * 9) || !s.cairn.request)
        let s := (s.setGroup r.grp { g with dirty := line :: g.dirty }).openEntry r.grp entry.reg entry.place
          (g.tracked % 2) line image
        let s : State := { s with cairn := { s.cairn with
          undo := s.cairn.undo ++ [entry], request := s.cairn.request || asks } }
        if asks then
          s.postEvent 4 r.queue (g.tracked % 2 ^ 48 + 2 * 2 ^ 48 + r.grp * 2 ^ 52 + 2 * 2 ^ 56)
        else s

/-! ## Caches (R112, R117 to R119) -/

/-- The home value of a sector. -/
def State.homeSector (s : State) (sec : Nat) : Sector := BitVec.ofNat 512 (s.num (sec * 64) 64)

/-- Write a whole sector at its home. -/
def State.setSector (s : State) (sec : Nat) (v : Sector) : State := s.setNum (sec * 64) 64 v.toNat

/-- The sectors of a line that a slice's list holds. -/
def sectorsOfLine (line : Nat) (l : List CacheLine) : Nat := ((l.find? (fun x => x.line == line)).map (·.sectors)).getD 0

/-- Lines after the use of one with an ev field, to which sectors are added: it is the latest used (R112, R118). -/
def useLine (line ev add : Nat) (l : List CacheLine) : List CacheLine :=
  { line := line, ev := ev, sectors := sectorsOfLine line l ||| add } :: l.filter (fun x => x.line != line)

/-- Lines after a sector of one has become Invalid: a line with none left is gone (R112). -/
def loseSector (sec : Nat) (l : List CacheLine) : List CacheLine :=
  (l.map (fun x => if x.line = sec / 4 then { x with sectors := setFld x.sectors (sec % 4) 1 0 } else x)).filter
    (fun x => x.line != sec / 4 || x.sectors != 0)

/-- The line of an address is held, with an access's ev field from now on (R118). -/
def noteLine (line ev : Nat) (l : List CacheLine) : List CacheLine :=
  if l.any (fun x => x.line == line) then useLine line ev 0 l else l

/-- The line that a new one replaces in a cache of `size` lines: where its set is full, of those with the highest ev the
least recently used (R118). -/
def victim (size line : Nat) (l : List CacheLine) : Option Nat :=
  let set (n : Nat) : Nat := Config.cacheIndex n % max 1 (size / (Config.cacheWays + 1))
  let same := l.filter (fun x => set x.line == set line)
  if same.length < Config.cacheWays + 1 then none
  else
    let top := same.foldl (fun m x => max m x.ev) 0
    ((same.reverse.find? (fun x => x.ev == top)).map (·.line))

/-- The sectors of a line. -/
def sectorsIn (line : Nat) : List Nat := [4 * line, 4 * line + 1, 4 * line + 2, 4 * line + 3]

/-- Lines of the cache part of a slice (R13, R115). -/
def State.sliceLines (s : State) (i : Nat) : Nat := (4 - Table.get s.sys.staging 0 i) * 4096

/-- Slice `i` replaces a line: its Dirty sectors go to the controller (R112, R118). -/
def State.evictL2 (s : State) (i line : Nat) : State :=
  { s with sys := { s.sys with
      l2 := Table.set s.sys.l2 i ((Table.get s.sys.l2 [] i).filter (fun x => x.line != line))
      below := s.sys.below.filter (fun e => e.1 / 4 != line) } }

/-- An access with an ev field uses a sector in its home L2 slice, which takes it in where it is Invalid and may replace another
line (R112, R118); a slice that is all staging memory holds none (R115). -/
def State.useL2 (s : State) (sec ev : Nat) : State :=
  let i := sliceNo (64 * sec)
  if s.sliceLines i = 0 then s
  else
    let l := Table.get s.sys.l2 [] i
    let s := if l.any (fun x => x.line == sec / 4) then s
      else match victim (s.sliceLines i) (sec / 4) l with
        | some v => s.evictL2 i v
        | none => s
    { s with sys := { s.sys with l2 := Table.set s.sys.l2 i (useLine (sec / 4) ev (2 ^ (sec % 4)) (Table.get s.sys.l2 [] i)) } }

/-- A write with an ev field makes a sector Dirty in its home L2 slice: the older value stays at the controller (R112,
R118). -/
def State.dirtyL2 (s : State) (sec ev : Nat) : State :=
  let s := s.useL2 sec ev
  match Table.find s.sys.below sec with
  | some _ => s
  | none =>
    if s.sliceLines (sliceNo (64 * sec)) = 0 then s
    else { s with sys := { s.sys with below := Table.set s.sys.below sec (s.homeSector sec) } }

/-- The home L2 slice writes a sector to its controller: it becomes Clean. -/
def State.cleanL2 (s : State) (sec : Nat) : State :=
  { s with sys := { s.sys with below := Table.erase s.sys.below sec } }

/-- A slice writes back its Dirty sectors and is empty (R115). -/
def State.emptySlice (s : State) (i : Nat) : State :=
  { s with sys := { s.sys with
      below := s.sys.below.filter (fun e => sliceNo (64 * e.1) != i), l2 := Table.erase s.sys.l2 i } }

/-- Write every Dirty L2 sector to its controller, which a pod-scope fence or release may require (R123). -/
def State.cleanAllL2 (s : State) : State := { s with sys := { s.sys with below := [] } }

/-- The bytes of locations as a core's strands see them without their gates: Dirty sectors of its L1, or the home
(R123). -/
def State.coreNum (s : State) (c : Nat) (locs : List Nat) : Nat :=
  ofBytes (locs.map (fun l =>
    if (s.core c).l1Dirty.contains (l / 64) then (Table.get (s.core c).l1 0 (l / 64)).extractLsb' (8 * (l % 64)) 8
    else s.byte l))

/-- The wait of a strand for a mark counter is met: a write has performed that brings it to the target (R252, R263). -/
def State.countMet (s : State) (k : Nat) (x : Strand) : Bool :=
  match x.st, x.wait, x.met with
  | .waiting, some (.counter locs t), none => decide (t ≤ s.coreNum (coreOf k) locs)
  | _, _, _ => false

/-- The dependence of a slot's launch on a counter of this device is met (R307). -/
def State.depNow (s : State) (g : Gang) : Bool :=
  g.phase == .waiting && !g.depMet && !g.depLocs.isEmpty && decide (g.launch.dept ≤ ofBytes (g.depLocs.map s.byte))

/-- A write has performed: the waits on mark counters and the dependences of launches are evaluated again (R263, R307). -/
def State.recount (s : State) : State :=
  { s with
    strands := s.strands.map (fun e => (e.1, if s.countMet e.1 e.2 then { e.2 with met := some 0 } else e.2))
    slots := s.slots.map (fun e => (e.1, { e.2 with gang := e.2.gang.map (fun g =>
      if s.depNow g then { g with depMet := true } else g) })) }

/-- The cells of a store that lie in a sector. -/
def cellsIn (cells : List (Nat × Byte)) (sec : Nat) : List (Nat × Byte) := cells.filter (fun c => c.1 / 64 = sec)

/-- Bytes are written, and a write of a whole poisoned sector clears the poison (R414). -/
def State.putBytes (s : State) (cells : List (Nat × Byte)) : State :=
  let s := s.setBytes cells
  { s with sys := { s.sys with poison := s.sys.poison.filter (fun sec => decide ((cellsIn cells sec).length < 64)) } }

/-- The before-images of the protected lines among those that a write reaches (R339). -/
def State.captureFor (s : State) (locs : List Nat) : State :=
  if s.cairn.regions.isEmpty then s else ((locs.map (· / 256)).dedup).foldl State.capture s

/-- Bytes are written at their home, after the before-images of protected lines: cacheable lines become Dirty in their L2
slice, with the ev field of the access (R112, R118, R123, R339). -/
def State.writeHome (s : State) (cells : List (Nat × Byte)) (cached : List Nat) (ev : Nat := 0) : State :=
  ((cached.foldl (fun s sec => s.dirtyL2 sec ev) (s.captureFor (cells.map (·.1)))).putBytes cells).recount

/-- Write one Dirty L1 sector of a core to its home, with its before-image (R116, R339). -/
def State.cleanL1 (s : State) (c sec : Nat) : State :=
  if (s.core c).l1Dirty.contains sec then
    let v := Table.get (s.core c).l1 0 sec
    let ev := (((s.core c).lines.find? (fun x => x.line == sec / 4)).map (·.ev)).getD 0
    let s := s.writeHome ((locsFrom (sec * 64) 64).zip (toBytes 64 v.toNat)) [sec] ev
    s.onCore c (fun x => { x with l1Dirty := x.l1Dirty.filter (· ≠ sec) })
  else s

/-- Write every Dirty L1 sector of a core to its home. -/
def State.cleanCore (s : State) (c : Nat) : State := (s.core c).l1Dirty.foldl (fun s sec => s.cleanL1 c sec) s

/-- Drop every L1 copy of a core, Dirty ones written home first (R117). -/
def State.dropL1 (s : State) (c : Nat) : State := (s.cleanCore c).onCore c (fun x => { x with l1 := [], lines := [] })

/-- A protected line whose home value is that of its before-image again, as data that had not performed at its home has been
dropped: nothing of it belongs to the tracked pitch (R413). -/
def State.uncapture (s : State) (line : Nat) : State :=
  match s.regionOf line with
  | none => s
  | some r =>
    match s.cairn.undo.find? (fun u => u.grp == r.grp && u.line == line && u.pitch == (s.group r.grp).tracked) with
    | none => s
    | some u =>
      if s.imageOfUndo u = (locsFrom (line * 256) 256).map s.byte then
        let s := (s.closeEntry u.grp u.reg u.place).onGroup r.grp (fun g => { g with dirty := g.dirty.filter (· ≠ line) })
        { s with cairn := { s.cairn with undo := s.cairn.undo.erase u } }
      else s

/-- The home L2 slice drops a sector without write-back: the controller keeps its older value (R118), and dropped data belongs
to no pitch (R413). -/
def State.dropL2 (s : State) (sec : Nat) : State :=
  let i := sliceNo (64 * sec)
  let s : State := { s with sys := { s.sys with l2 := Table.set s.sys.l2 i (loseSector sec (Table.get s.sys.l2 [] i)) } }
  match Table.find s.sys.below sec with
  | none => s
  | some old => ((s.setSector sec old).cleanL2 sec).uncapture (sec / 4)

/-- A core's L1 drops a sector without write-back; a line with none left is gone. -/
def Core.dropSector (c : Core) (sec : Nat) : Core :=
  let l1 := Table.erase c.l1 sec
  { c with l1 := l1, l1Dirty := c.l1Dirty.filter (· ≠ sec)
           lines := c.lines.filter (fun x => x.line != sec / 4 || l1.any (fun e => e.1 / 4 == sec / 4)) }

/-- Drop a sector at a core's L1 and at the home L2 slice without write-back (R118). -/
def State.dropSector (s : State) (c sec : Nat) : State := (s.onCore c (fun x => x.dropSector sec)).dropL2 sec

/-- An access with ev = 7 has read a sector: the lines that hold it record its ev, and the sector is dropped at every level
(R118). -/
def State.lastRead (s : State) (c sec : Nat) : State :=
  let i := sliceNo (64 * sec)
  let s := s.onCore c (fun x => { x with lines := noteLine (sec / 4) 7 x.lines })
  ({ s with sys := { s.sys with l2 := Table.set s.sys.l2 i (noteLine (sec / 4) 7 (Table.get s.sys.l2 [] i)) } } : State).dropSector c sec

/-- The core has an L1 (R67). -/
def Core.hasL1 (c : Core) : Bool := decide (c.split < 8)

/-- L1 replaces a line: its Dirty sectors go home (R112, R118). -/
def State.evictL1 (s : State) (c line : Nat) : State :=
  ((sectorsIn line).foldl (fun s sec => s.cleanL1 c sec) s).onCore c (fun x =>
    { x with l1 := x.l1.filter (fun e => e.1 / 4 != line), lines := x.lines.filter (fun y => y.line != line) })

/-- An access with an ev field uses a sector's line in a core's L1 of 8 - S MiB, which may replace another (R67, R112,
R118). -/
def State.useL1 (s : State) (c sec ev : Nat) : State :=
  let l := (s.core c).lines
  let s := if l.any (fun x => x.line == sec / 4) then s
    else match victim ((8 - (s.core c).split) * 4096) (sec / 4) l with
      | some v => s.evictL1 c v
      | none => s
  s.onCore c (fun x => { x with lines := useLine (sec / 4) ev 0 x.lines })

/-- A core's L1 takes a sector from its home, by way of the L2 slice (R112). -/
def State.fillL1 (s : State) (c sec ev : Nat) : State :=
  if (Table.find (s.core c).l1 sec).isSome then s.useL1 c sec ev
  else
    let s := s.useL2 sec ev
    if (s.core c).hasL1 then
      let s := s.useL1 c sec ev
      s.onCore c (fun x => { x with l1 := Table.set x.l1 sec (s.homeSector sec) })
    else s

/-! ## Stores -/

/-- Change bytes of a sector that a core holds in L1. -/
def patchSector (sec : Nat) (v : Sector) (cells : List (Nat × Byte)) : Sector :=
  BitVec.ofNat 512 (ofBytes ((locsFrom (sec * 64) 64).zip (toBytes 64 v.toNat) |>.map
    (fun e => ((cells.reverse.find? (fun c => c.1 = e.1)).map (·.2)).getD e.2)))

/-- The part of a store that goes to its home performs there, or is held in its controller's queue or before a link, behind
earlier ones of its core (R16, R420). -/
def State.sendHome (s : State) (x : Store) : State :=
  if x.cells.isEmpty then s
  else if s.coreQueued x.core || x.cells.any (fun c => s.homeWaits (x.core / 64) c.1) then
    { s with sys := { s.sys with queued := s.sys.queued ++ [x] } }
  else s.writeHome x.cells x.cached x.ev

/-- The first store of a core that was held and can now perform. -/
def State.queuedReady (s : State) : Option (Nat × Store) :=
  (s.sys.queued.zipIdx.find? (fun e =>
    !(s.sys.queued.take e.2).any (fun y => y.core == e.1.core) && !e.1.cells.any (fun c => s.homeWaits (e.1.core / 64) c.1))).map
    (fun e => (e.2, e.1))

/-- A store that was held performs. -/
def State.performQueued (s : State) (i : Nat) (x : Store) : State :=
  ({ s with sys := { s.sys with queued := listDrop s.sys.queued i } } : State).writeHome x.cells x.cached x.ev

/-- A store performs: sectors of a held shared region become Dirty in L1, where the core has one; every other byte goes to
its home, and the core's own L1 copy follows (R67, R112, R116, R123). -/
def State.perform (s : State) (x : Store) : State :=
  let x := if (s.core x.core).hasL1 then x else { x with held := [], cached := x.cached ++ x.held }
  let s := x.cached.foldl (fun s sec =>
    if (Table.find (s.core x.core).l1 sec).isSome then s.useL1 x.core sec x.ev else s) s
  let s := x.held.foldl (fun s sec =>
    (s.useL1 x.core sec x.ev).onCore x.core (fun c =>
      let old := (Table.find c.l1 sec).getD (s.homeSector sec)
      { c with l1 := Table.set c.l1 sec (patchSector sec old x.cells)
               l1Dirty := if c.l1Dirty.contains sec then c.l1Dirty else sec :: c.l1Dirty })) s
  let s := if x.held.isEmpty then s else s.recount
  let s := s.sendHome { x with cells := x.cells.filter (fun c => !x.held.contains (c.1 / 64)), held := [] }
  s.onCore x.core (fun c => { c with
    l1 := c.l1.map (fun e => if x.cached.contains e.1 then (e.1, patchSector e.1 e.2 x.cells) else e) })

/-! ## Translation (R98 to R105) -/

/-- The flat space of a context: device-local with its root, or host-shared with its PASID. -/
inductive Space where
  | device (root : Nat)
  | host (pasid : Nat)
deriving DecidableEq, Repr

/-- The space of strand `k`'s context (R98, R310). -/
def State.spaceOf (s : State) (k : Nat) : Option Space :=
  (s.queueOf k).map (fun q =>
    let c := s.queue q
    if c.hs then .host (c.xlat % 2 ^ 20) else .device c.xlat)

/-- A walk's entry, or the failure: a table address that is poisoned or an invalid entry at levels 0 to 2. -/
def State.tableEntry (s : State) (base idx : Nat) : Option Nat :=
  let a := base + 8 * idx
  if s.sys.poison.contains (a / 64) || !s.isMapped a then none else some (s.num a 8)

/-- One step down from level 0, 1 or 2: a valid entry with ST zero points to the next table (R100). -/
def State.walkDown (s : State) (base idx : Nat) : Option Nat :=
  match s.tableEntry base idx with
  | none => none
  | some e => if bitAt e 0 && fld e 60 2 == 0 then some (fld e 13 35 * 2 ^ 13) else none

/-- The address of a level-3 entry in memory. -/
def pteAddr (t3 idx : Nat) : Nat := t3 + 8 * idx

/-- The fields that the pages of a contiguous group share: V, SUP, W, MT and CG (R103). -/
def groupBitsOf (e : Nat) : Nat := e &&& 0xB7

/-- The valid pages of the group of 16 that holds page `idx` of a level-3 table, each with its entry. -/
def State.groupPages (s : State) (t3 idx : Nat) : List (Nat × Nat) :=
  (List.range 16).filterMap (fun i =>
    ((s.tableEntry t3 (idx / 16 * 16 + i)).filter (fun f => bitAt f 0)).map (fun f => (i, f)))

/-- The frame number of page 0 of a group, from its first valid page: a multiple of 16. -/
def groupBase (l : List (Nat × Nat)) : Nat := ((l.head?.map (fun v => fld v.2 16 32)).getD 0) / 16 * 16

/-- The condition of R103 on the valid pages of the group of an entry. -/
def groupOk (l : List (Nat × Nat)) (e : Nat) : Bool :=
  bitAt e 7 && l.all (fun v => groupBitsOf v.2 == groupBitsOf e && fld v.2 16 32 == groupBase l + v.1)

/-- What a walk gives for page `idx` of a level-3 table whose entry is `e` (R103): where CG is set and the group of 16
pages does not meet the condition, the page's own frame or the one that the group's first valid page leads to, and
which is free (log entry 3). -/
def State.groupFrame (s : State) (t3 idx e : Nat) : Nat :=
  if bitAt e 0 && bitAt e 7 then
    let l := s.groupPages t3 idx
    if groupOk l e || Config.ownFrame s.freeCount (pteAddr t3 idx) then e
    else setFld e 16 32 (groupBase l + idx % 16)
  else e

/-- The table that a walk's first three levels lead to. -/
def State.walkTo (s : State) (root va : Nat) : Option Nat :=
  match s.walkDown root (fld va 46 11) with
  | none => none
  | some t1 =>
    match s.walkDown t1 (fld va 36 10) with
    | none => none
    | some t2 => s.walkDown t2 (fld va 26 10)

/-- The level-3 entry of a flat address, from the tables (R99). -/
def State.walk (s : State) (root va : Nat) : Option Nat :=
  match s.walkTo root va with
  | none => none
  | some t3 => (s.tableEntry t3 (fld va 16 10)).map (s.groupFrame t3 (fld va 16 10))

/-- A lane group of some link is down. -/
def State.lanesDown (s : State) : Bool := s.fab.lanes.any (fun e => e.2.down)

/-- A walk of a die reads a table that it has to wait for (R16, R420). -/
def State.walkSleeps (s : State) (die root va : Nat) : Bool :=
  (!s.sys.selfRefresh.isEmpty || s.lanesDown) &&
  (s.homeWaits die (root + 8 * fld va 46 11) ||
    (match s.walkDown root (fld va 46 11) with
    | none => false
    | some t1 => s.homeWaits die (t1 + 8 * fld va 36 10) ||
      (match s.walkDown t1 (fld va 36 10) with
      | none => false
      | some t2 => s.homeWaits die (t2 + 8 * fld va 26 10) ||
        (match s.walkDown t2 (fld va 26 10) with
        | none => false
        | some t3 => s.homeWaits die (pteAddr t3 (fld va 16 10))))))

/-- The entry covers a page of a space (R103). -/
def TlbEntry.covers (e : TlbEntry) (root va : Nat) : Bool :=
  !e.host && e.root == root && e.page / 16 == va / 2 ^ 20 && bitAt e.mask (va / 2 ^ 16 % 16)

/-- It holds the translation of an address of a PASID (R105). -/
def TlbEntry.coversHost (e : TlbEntry) (pasid va : Nat) : Bool :=
  e.host && e.root == pasid && (e.page == va / 2 ^ 12 || (e.mask == 1 && e.page / 16 == va / 2 ^ 16))

/-- The 4 KiB frame that it gives an address of a PASID. -/
def TlbEntry.frameOf (e : TlbEntry) (va : Nat) : Nat :=
  if e.mask = 1 then e.pte / 16 * 16 + va / 2 ^ 12 % 16 else e.pte

/-- The level-3 entry that it gives an address that it covers: the frames of a group are successive (R103). -/
def TlbEntry.pteOf (e : TlbEntry) (va : Nat) : Nat := setFld e.pte 16 32 (fld e.pte 16 32 + va / 2 ^ 16 - e.page)

/-- The entry of a page in a die's shared TLB (R103). -/
def State.tlbFor (s : State) (die root va : Nat) : Option TlbEntry :=
  s.sys.tlb.find? (fun e => e.die == die && e.covers root va)

/-- The entry for a strand's access: in its core's TLB, in its die's, or one that its bundle has waited for (R103, R105). -/
def State.entryOf (s : State) (k : Nat) (p : TlbEntry → Bool) : Option TlbEntry :=
  ((s.core (coreOf k)).tlb.find? p).or
    ((s.sys.tlb.find? (fun e => e.die == dieOf k && p e)).or ((s.strand k).found.find? p))

/-- The entry for an access of a die's unit: in its TLB, or one that it has waited for. -/
def State.unitEntry (s : State) (who die : Nat) (p : TlbEntry → Bool) : Option TlbEntry :=
  (s.sys.tlb.find? (fun e => e.die == die && p e)).or
    ((s.sys.found.find? (fun e => e.1 == who && p e.2)).map (·.2))

/-- The level-3 entry that a die's TLB or a walk gives (R103, R104). -/
def State.pteFor (s : State) (die root va : Nat) : Option Nat :=
  match s.tlbFor die root va with
  | some e => some (e.pteOf va)
  | none => s.walk root va

/-- A poisoned sector of a read that its cairn engine can still repair (R416). -/
def State.repairable (s : State) (sec : Nat) : Bool :=
  s.sys.poison.contains sec && (s.regionOf (sec / 4)).isSome && !s.sys.lostLines.contains (sec / 4)

/-- The outcome of a translation: a location with its memory type, a page on the move, a failure with the code that it
kills the context with, or a host-shared miss. -/
inductive Xlat where
  | ok (loc : Nat) (mt : Nat)
  | moving
  | fail (code : Nat)
  | hostMiss
deriving DecidableEq, Repr

/-- What a level-3 entry gives an access (R100, R101, R400, R406). -/
def State.readPte (s : State) (pte va : Nat) (write sup : Bool) : Xlat :=
  if !bitAt pte 0 || decide (2 ≤ fld pte 60 2) || fld pte 4 2 == 3 || fld pte 13 3 != 0 then .fail 0x18
  else if fld pte 60 2 == 1 then .moving
  else if bitAt pte 1 && !sup then .fail 0x0C
  else if write && !bitAt pte 2 then .fail 0x18
  else
    let pa := fld pte 16 32 * 2 ^ 16 + va % 2 ^ 16
    if s.isMapped pa then .ok pa (fld pte 4 2) else .fail 0x18

/-- What a translated frame leads to: one of the 2^29 of the device's memory BAR reaches device memory, where there is
any at its offset, and any other the host (R101, R105, R321; log entry 10). -/
def hostReach (frame va : Nat) : Xlat :=
  let pa := frame * 2 ^ 12 + va % 2 ^ 12
  if frame < 2 ^ 29 then (if isHbm pa || isTier pa then .ok pa 0 else .fail 0x18)
  else .ok (hostLoc (frame % 2 ^ 52 * 2 ^ 12 + va % 2 ^ 12)) 1

/-- Translate a flat address for a party of a die (R99, R105); a walk that must wait leaves the page as one on the move
does (R420). An entry of ATS admits reads and writes at any privilege: R105 gives it no permissions (log entry 102). -/
def State.translate (s : State) (die : Nat) (sp : Option Space) (va : Nat) (write sup : Bool) : Xlat :=
  match sp with
  | none => .fail 0x18
  | some (.device root) =>
    if (s.tlbFor die root va).isNone && s.walkSleeps die root va then .moving
    else
      match s.pteFor die root va with
      | none => .fail 0x18
      | some pte => s.readPte pte va write sup
  | some (.host pasid) =>
    match s.sys.tlb.find? (fun e => e.die == die && e.coversHost pasid va) with
    | none => .hostMiss
    | some e => hostReach (e.frameOf va) va

/-- A level-3 entry that the TLBs hold: valid and without a reserved value (R100, R102). -/
def pteGood (e : Nat) : Bool := bitAt e 0 && decide (fld e 60 2 < 2) && fld e 4 2 != 3 && fld e 13 3 == 0

/-- The pages of its group that the entry of a walk covers: those in the normal state where the condition of R103 holds,
and otherwise the walk's page. -/
def State.tlbMask (s : State) (t3 idx : Nat) : Nat :=
  let l := s.groupPages t3 idx
  let e := ((l.find? (fun v => v.1 = idx % 16)).map (·.2)).getD 0
  let rest := if groupOk l e then l.filter (fun v => fld v.2 60 2 == 0 && fld e 60 2 == 0 && v.1 != idx % 16) else []
  rest.foldl (fun m v => m + 2 ^ v.1) (2 ^ (idx % 16))

/-- An entry goes into its die's TLB of 16,384 entries. Which entry a full TLB gives up the spec does not say: here it is the
one that was filled first (R103; log entry 125). -/
def State.addTlb (s : State) (e : TlbEntry) : State :=
  let mine := s.sys.tlb.filter (fun x => x.die == e.die)
  { s with sys := { s.sys with tlb := (e :: mine).take 16384 ++ s.sys.tlb.filter (fun x => x.die != e.die) } }

/-- The entry that a walk of a page gives a die, if there is one that a TLB holds (R102, R103). -/
def State.walkEntry (s : State) (die root va : Nat) : Option TlbEntry :=
  match s.walkTo root va, s.walk root va with
  | some t3, some pte =>
    let idx := fld va 16 10
    if pteGood pte then
      some { die := die, root := root, page := va / 2 ^ 16, mask := s.tlbMask t3 idx, pte := pte, place := pteAddr t3 idx }
    else none
  | _, _ => none

/-- Put the entry of a page that a walk has found into the die's TLB (R102, R103; log entry 125). -/
def State.fillTlb (s : State) (die root va : Nat) : State :=
  if (s.tlbFor die root va).isSome then s
  else
    match s.walkEntry die root va with
    | some e => s.addTlb e
    | none => s

/-- A core's TLB of 64 entries takes over the entry by which an address has been translated. Of a full one the entry that was
filled first goes, which the spec leaves open (R103; log entry 125). -/
def State.fillCore (s : State) (k : Nat) (p : TlbEntry → Bool) : State :=
  if (s.core (coreOf k)).tlb.any p then s
  else
    match s.entryOf k p with
    | none => s
    | some e => s.onCore (coreOf k) (fun x => { x with tlb := (e :: x.tlb).take 64 })

/-- Those who have waited for an entry use it, even where the TLB has given it up by then (R102). -/
def State.giveEntry (s : State) (who : List Nat) (e : TlbEntry) : State :=
  who.foldl (fun s w =>
    if w < 1024 then s.onStrand w (fun x => { x with found := e :: x.found })
    else { s with sys := { s.sys with found := (w, e) :: s.sys.found } }) s

/-- The access of an engine, a slot or a rope head has been made: it holds no translation any more. -/
def State.forgetFound (s : State) (who : Nat) : State :=
  { s with sys := { s.sys with found := s.sys.found.filter (fun e => e.1 != who) } }

/-! ## Page walks (R102) -/

/-- The walk is for a page of a space. -/
def Walk.isFor (w : Walk) (die root page : Nat) : Bool := w.die == die && w.pages.contains (root, page)

/-- The die whose ingress takes a request: that of the station, or of the requester where it is the device itself (R324,
R327; log entry 59). -/
def ingressDie (r : FabReq) : Nat := if r.port < 24 then r.port / 6 else (r.port - 24) % 4

/-- The requests in a die's ingress walk buffer (R408). -/
def State.ingressWalks (s : State) (die : Nat) : Nat := (s.fab.walks.filter (fun r => ingressDie r == die)).length

/-- The walks in flight on a die, those of its fabric ingress among them. -/
def State.walksOn (s : State) (die : Nat) : Nat :=
  (s.sys.walks.filter (fun w => w.die == die && !w.failed)).length + s.ingressWalks die

/-- The level-3 entry that a walk needs, once its upper tables name it. -/
def State.walkPlace (s : State) (p : Nat × Nat) : Option Nat :=
  (s.walkTo p.1 (p.2 * 2 ^ 16)).map (fun t3 => pteAddr t3 (p.2 % 2 ^ 10))

/-- Two walks of a die need the same level-3 entry, and merge (R102). -/
def State.merges (s : State) (w : Walk) (die root page : Nat) : Bool :=
  w.die == die && !w.failed && (s.walkPlace (root, page)).isSome &&
  w.pages.any (fun p => s.walkPlace p == s.walkPlace (root, page))

/-- A miss starts a walk, or joins one for the same entry; while all of the die's walkers are busy, of which 64 are kept
for supervisor and ingress requests, it waits for one (R102). -/
def State.startWalk (s : State) (who die root page : Nat) (sup : Bool) : State :=
  if s.sys.walks.any (fun w => w.isFor die root page) then
    { s with sys := { s.sys with walks := s.sys.walks.map (fun w =>
        if w.isFor die root page && !w.who.contains who then { w with who := w.who ++ [who] } else w) } }
  else if s.sys.walks.any (fun w => s.merges w die root page) then
    { s with sys := { s.sys with walks := s.sys.walks.map (fun w =>
        if s.merges w die root page then { w with pages := w.pages ++ [(root, page)], who := w.who ++ [who] } else w) } }
  else if s.walksOn die < (if sup then 1024 else 960) then
    { s with sys := { s.sys with walks := s.sys.walks ++ [{ die := die, pages := [(root, page)], who := [who] }] } }
  else s

/-- A walk ends: the TLB takes the entries that it has found, and of the other pages it is kept that they have none, until
the access that finds that out or an invalidation. -/
def State.endWalk (s : State) (w : Walk) : State :=
  let s := w.pages.foldl (fun s p =>
    let s := s.fillTlb w.die p.1 (p.2 * 2 ^ 16)
    match s.tlbFor w.die p.1 (p.2 * 2 ^ 16) with
    | some e => s.giveEntry w.who e
    | none => s) s
  let none_ := w.pages.filter (fun p => (s.tlbFor w.die p.1 (p.2 * 2 ^ 16)).isNone)
  let rest := s.sys.walks.filter (fun x => x != w)
  { s with sys := { s.sys with walks := rest ++
      (if none_.isEmpty then [] else [{ w with pages := none_, who := [], failed := true }]) } }

/-- A walk in flight can end: it waits for no table (R16, R420). -/
def State.walkOver (s : State) (w : Walk) : Bool := !w.failed && w.pages.all (fun p => !s.walkSleeps w.die p.1 (p.2 * 2 ^ 16))

/-- A walk of a page has ended without an entry. -/
def State.walkFailed (s : State) (die root va : Nat) : Bool :=
  s.sys.walks.any (fun w => w.failed && w.isFor die root (va / 2 ^ 16))

/-- The page that a strand's access to an address has to have walked first: one of a device-local space that is in neither
TLB and whose walk has not ended (R102). -/
def State.walkNeeded (s : State) (k va : Nat) : Option Nat :=
  match s.spaceOf k with
  | some (.device root) =>
    if (s.entryOf k (fun e => e.covers root va)).isSome || s.walkFailed (dieOf k) root va then none else some root
  | _ => none

/-- A failed walk has been told to the access that it was for. -/
def State.toldFailed (s : State) (k va : Nat) : State :=
  match s.spaceOf k with
  | some (.device root) =>
    { s with sys := { s.sys with walks := s.sys.walks.filter (fun w => !(w.failed && w.isFor (dieOf k) root (va / 2 ^ 16))) } }
  | _ => s

/-- Translate an address for a strand whose walk is not needed: by its core's TLB, its die's, or a walk that has just
ended. -/
def State.translateFor (s : State) (k va : Nat) (write sup : Bool) : Xlat :=
  match s.spaceOf k with
  | some (.device root) =>
    match s.entryOf k (fun e => e.covers root va) with
    | some e => s.readPte (e.pteOf va) va write sup
    | none => s.translate (dieOf k) (some (.device root)) va write sup
  | some (.host pasid) =>
    match s.entryOf k (fun e => e.coversHost pasid va) with
    | some e => hostReach (e.frameOf va) va
    | none => .hostMiss
  | none => .fail 0x18

/-- An access of a strand has used the translation of an address: its core's TLB holds it (R103). -/
def State.fillFor (s : State) (k va : Nat) : State :=
  match s.spaceOf k with
  | some (.device root) => s.fillCore k (fun e => e.covers root va)
  | some (.host pasid) => s.fillCore k (fun e => e.coversHost pasid va)
  | none => s

/-! ## What the units of a die reach (R102, R105, R283, R289) -/

/-- What stops an access of an engine or another unit: a fault, a wait, a host-shared miss, a page that has to be walked, by a
die and for a supervisor's access or another, or a page on the move. -/
inductive EngStop where
  | fail
  | wait
  | miss (va : Nat)
  | walk (die root page : Nat) (sup : Bool)
  | moving (root page : Nat)
deriving DecidableEq, Repr

/-- A part of an engine's access: location, length, and whether L2 caches it. -/
structure EngPart where
  loc : Nat
  len : Nat
  cached : Bool
deriving DecidableEq, Repr

/-- Translate an address for a unit of a die (R102, R105). -/
def State.unitXlat (s : State) (who die : Nat) (sp : Option Space) (va : Nat) (write sup : Bool) : Except EngStop (Nat × Nat) :=
  let take (root page : Nat) : Xlat → Except EngStop (Nat × Nat)
    | .ok pa mt => .ok (pa, mt)
    | .moving => .error (.moving root page)
    | .fail _ => .error .fail
    | .hostMiss => .error (.miss va)
  match sp with
  | none => .error .fail
  | some (.device root) =>
    match s.unitEntry who die (fun e => e.covers root va) with
    | some e => take root (va / 2 ^ 16) (s.readPte (e.pteOf va) va write sup)
    | none => .error (if s.walkFailed die root va then .fail else .walk die root (va / 2 ^ 16) sup)
  | some (.host pasid) =>
    match s.unitEntry who die (fun e => e.coversHost pasid va) with
    | some e => take 0 0 (hostReach (e.frameOf va) va)
    | none => .error (.miss va)

/-- One page's part of a flat access of a unit of a die: device registers are no memory (R289), and a stack asleep and a link
that is down make it wait (R16, R420). -/
def State.unitPart (s : State) (who die : Nat) (sp : Option Space) (write sup : Bool) (p : Nat × Nat) : Except EngStop EngPart :=
  match s.unitXlat who die sp p.1 write sup with
  | .error e => .error e
  | .ok (pa, mt) =>
    if mt = 2 then .error .fail
    else if s.sleeping pa || s.cutOff die (homeDie pa) then .error .wait
    else .ok { loc := pa, len := p.2, cached := mt == 0 && isHbm pa }

/-- Put a host-shared miss to the host by an ATS translation request (R105), once for each asker and address. -/
def State.askPage (s : State) (who die : Nat) (sp : Option Space) (addr tba : Nat) : State :=
  let pasid := match sp with
    | some (.host p) => p
    | _ => 0
  if s.host.asks.any (fun a => a.who == who && a.die == die && a.pasid == pasid && a.addr == addr) then s
  else { s with host := { s.host with
    asks := s.host.asks ++ [{ who := who, die := die, pasid := pasid, addr := addr, tba := tba, sentAt := s.cyc.toNat }]
    ats := s.host.ats ++ [(1, pasid, addr)] } }

end Sys2Proof.Machine
end

