-- ==== Sys2Proof/Machine/Uses.lean ====
section
/-! DEFINITION. What each slot instruction reads, pops, writes and pushes, which registers its value checks read
(R147, R148, R202, R387, R388), which instructions are irrevocable (R40), and the classes of their accesses (R125). -/

namespace Sys2Proof

open Sys2Proof.Machine (Dest)

/-- A vector operand that names a register (R146). -/
def vecRead (x : Nat) : List Dest := if x < 384 then [.v x] else []

/-- A vector operand that names a port: its code, 384 to 447. -/
def portOf (x : Nat) : List Nat := if x < 384 then [] else [x]

/-- Under a predicate other than p0 the predicate and the destination register are sources too (R202). -/
def merged (p d : Nat) : List Dest := if p = 0 then [] else .p p :: vecRead d

/-- The element-index scalar, read under stochastic rounding only (R218). -/
def seedRead (rm sb : Nat) : List Dest := if rm = 4 then [.s sb] else []

/-- `n` successive vector registers (R240). -/
def vecRun (v : Nat) : Nat → List Dest
  | 0 => []
  | n + 1 => .v v :: vecRun (v + 1) n

/-- The registers that an instruction reads as sources. VLDT, VSTT and MOPR read more: their meanings say which. -/
def Instr.reads : Instr → List Dest
  | .br f => [.s f.ss]
  | .jmpr f => [.a f.tgt]
  | .callr f => [.a f.tgt]
  | .ret f => [.a f.tgt]
  | .loop f => [.s f.ss]
  | .add f => [.s f.a, .s f.b]
  | .addi f => [.s f.a]
  | .sub f => [.s f.a, .s f.b]
  | .mul f => [.s f.a, .s f.b]
  | .mulh f => [.s f.a, .s f.b]
  | .mulhn f => [.s f.a, .s f.b]
  | .div f => [.s f.a, .s f.b]
  | .divn f => [.s f.a, .s f.b]
  | .rem f => [.s f.a, .s f.b]
  | .remn f => [.s f.a, .s f.b]
  | .and f => [.s f.a, .s f.b]
  | .or f => [.s f.a, .s f.b]
  | .xor f => [.s f.a, .s f.b]
  | .andn f => [.s f.a, .s f.b]
  | .shl f => [.s f.a, .s f.b]
  | .shr f => [.s f.a, .s f.b]
  | .sar f => [.s f.a, .s f.b]
  | .rol f => [.s f.a, .s f.b]
  | .min f => [.s f.a, .s f.b]
  | .max f => [.s f.a, .s f.b]
  | .minn f => [.s f.a, .s f.b]
  | .maxn f => [.s f.a, .s f.b]
  | .cmp f => [.s f.a, .s f.b]
  | .sel f => [.s f.a, .s f.b, .s f.c]
  | .mov f => [.s f.a]
  | .movhi f => [.s f.d]
  | .clz f => [.s f.a]
  | .ctz f => [.s f.a]
  | .popc f => [.s f.a]
  | .brev f => [.s f.a]
  | .bext f => [.s f.a]
  | .bins f => [.s f.a, .s f.d]
  | .lea f => [.a f.a, .s f.b]
  | .adda f => [.a f.a, .s f.b]
  | .movaToAddress f => [.s f.a]
  | .movaToScalar f => [.a f.a]
  | .mts f => [.s f.s]
  | .vadd f => vecRead f.a ++ vecRead f.b ++ merged f.p f.d
  | .vsub f => vecRead f.a ++ vecRead f.b ++ merged f.p f.d
  | .vmul f => vecRead f.a ++ vecRead f.b ++ merged f.p f.d
  | .vfma f => vecRead f.a ++ vecRead f.b ++ vecRead f.c ++ merged f.p f.d
  | .vfms f => vecRead f.a ++ vecRead f.b ++ vecRead f.c ++ merged f.p f.d
  | .vfnma f => vecRead f.a ++ vecRead f.b ++ vecRead f.c ++ merged f.p f.d
  | .vmin f => vecRead f.a ++ vecRead f.b ++ merged f.p f.d
  | .vmax f => vecRead f.a ++ vecRead f.b ++ merged f.p f.d
  | .vabs f => vecRead f.a ++ merged f.p f.d
  | .vneg f => vecRead f.a ++ merged f.p f.d
  | .vclamp f => vecRead f.a ++ vecRead f.b ++ vecRead f.c ++ merged f.p f.d
  | .vrcp f => vecRead f.a ++ merged f.p f.d
  | .vrsq f => vecRead f.a ++ merged f.p f.d
  | .vsqrt f => vecRead f.a ++ merged f.p f.d
  | .vexp2 f => vecRead f.a ++ merged f.p f.d
  | .vlog2 f => vecRead f.a ++ merged f.p f.d
  | .viadd f => vecRead f.a ++ vecRead f.b ++ merged f.p f.d
  | .visub f => vecRead f.a ++ vecRead f.b ++ merged f.p f.d
  | .vimul f => vecRead f.a ++ vecRead f.b ++ merged f.p f.d
  | .vimad f => vecRead f.a ++ vecRead f.b ++ vecRead f.c ++ merged f.p f.d
  | .vimin f => vecRead f.a ++ vecRead f.b ++ merged f.p f.d
  | .vimax f => vecRead f.a ++ vecRead f.b ++ merged f.p f.d
  | .vand f => vecRead f.a ++ vecRead f.b ++ merged f.p f.d
  | .vor f => vecRead f.a ++ vecRead f.b ++ merged f.p f.d
  | .vxor f => vecRead f.a ++ vecRead f.b ++ merged f.p f.d
  | .vshl f => vecRead f.a ++ vecRead f.b ++ merged f.p f.d
  | .vshr f => vecRead f.a ++ vecRead f.b ++ merged f.p f.d
  | .vsar f => vecRead f.a ++ vecRead f.b ++ merged f.p f.d
  | .vcmp f => vecRead f.a ++ vecRead f.b ++ [.p f.p]
  | .vsel f => vecRead f.a ++ vecRead f.b ++ [.p f.p]
  | .vmov f => vecRead f.a ++ merged f.p f.d
  | .vmovi f => merged f.p f.d
  | .vbcast f => .s f.a :: merged f.p f.d
  | .vins f => .s f.a :: vecRead f.d
  | .vext f => vecRead f.a
  | .vperm f => vecRead f.a ++ vecRead f.b ++ merged f.p f.d
  | .vslide f => vecRead f.a ++ vecRead f.b ++ merged f.p f.d
  | .vzip f => vecRead f.a ++ vecRead f.b ++ merged f.p f.d
  | .vunzip f => vecRead f.a ++ vecRead f.b ++ merged f.p f.d
  | .vred f => vecRead f.a ++ [.p f.p]
  | .vscan f => vecRead f.a ++ [.p f.p]
  | .vcvt f => vecRead f.a ++ seedRead f.rm f.sb
  | .vsrnd f => vecRead f.a ++ seedRead f.rm f.sb
  | .vblock f => vecRead f.a ++ seedRead f.rm f.sb
  | .vunblock f => [.v f.a, .v (f.a + 1)]
  | .vcompress f => vecRead f.a
  | .vexpand f => vecRead f.a ++ vecRead f.b
  | .vpcnt f => [.p f.a]
  | .pand f => [.p f.a, .p f.b]
  | .por f => [.p f.a, .p f.b]
  | .pxor f => [.p f.a, .p f.b]
  | .pnot f => [.p f.a]
  | .vrand f => [.s f.sb]
  | .ld f => [.a f.ab]
  | .st f => [.a f.ab, .s f.d]
  | .vld f => [.a f.ab]
  | .vst f => .a f.ab :: vecRead f.d
  | .vstt f => vecRead f.d
  | .vgath f => [.a f.ab, .v f.ix]
  | .vscat f => [.a f.ab, .v f.ix] ++ vecRead f.d
  | .ldf f => [.a f.ab]
  | .ldfk f => [.a f.ab]
  | .ste f => [.a f.ab, .s f.d]
  | .feset f => [.a f.ab, .s f.d]
  | .feprobe f => [.a f.ab]
  | .atom f => [.a f.ab, .s f.sb]
  | .atomcas f => [.a f.ab, .s f.sb, .s f.k]
  | .semadd f => [.s f.sn]
  | .semset f => [.s f.sn]
  | .semwait f => [.s f.sn]
  | .cntwait f => [.a f.ab, .s f.s]
  | .discard f => [.a f.ab, .s f.d]
  | .wback f => [.a f.ab, .s f.d]
  | .inval f => [.a f.ab, .s f.d]
  | .iinval f => [.a f.ab, .s f.d]
  | .pref f => [.a f.ab, .s f.d]
  | .rld f => [.a f.ab]
  | .rst f => .a f.ab :: (if f.fmt == 0 then vecRead f.d else [.s f.d])
  | .ratom f => [.a f.ab, .s f.sb] ++ (if f.k == 9 then [.s (f.sb + 1)] else [])
  | .sbind f => [.a f.ab]
  | .haul f => [.a f.ab, .s f.s]
  | .haulg f => [.a f.ab, .s f.s]
  | .hgath f => [.a f.ab, .s f.s]
  | .hscat f => [.a f.ab, .s f.s]
  | .protect f => [.a f.ab, .s f.s, .s f.s2]
  | .unprotect f => [.a f.ab, .s f.s, .s f.s2]
  | .bwait f => [.s f.s2]
  | .mlatch f => [.a f.aa, .a f.sc]
  | .mop f => [.a f.aa, .a (f.aa + 1)]
  | .mops f => [.a f.aa, .a (f.aa + 1), .a f.am]
  | .mrank1 f => vecRun f.vx (mrankRegs f.fmt) ++ vecRun f.vy (mrankRegs f.fmt)
  | .mloss f => [.s f.s]
  | .oread f => [.s f.s]
  | .owrite f => .s f.s :: vecRead f.v
  | .omom f => [.a f.aw, .a f.am1, .s f.sh] ++ seedRead f.rm f.sb
  | .oadam f => [.a f.aw, .a f.am1, .a f.am2, .s f.sh, .s (f.sh + 1), .s (f.sh + 2)] ++ seedRead f.rm f.sb
  | .pusht f => [.a f.aa, .s f.s]
  | .popt f => [.a f.aa, .s f.s]
  | _ => []

/-- The ports that an instruction pops, in field order (R148). -/
def Instr.pops : Instr → List Nat
  | .vadd f => portOf f.a ++ portOf f.b
  | .vsub f => portOf f.a ++ portOf f.b
  | .vmul f => portOf f.a ++ portOf f.b
  | .vfma f => portOf f.a ++ portOf f.b ++ portOf f.c
  | .vfms f => portOf f.a ++ portOf f.b ++ portOf f.c
  | .vfnma f => portOf f.a ++ portOf f.b ++ portOf f.c
  | .vmin f => portOf f.a ++ portOf f.b
  | .vmax f => portOf f.a ++ portOf f.b
  | .vabs f => portOf f.a
  | .vneg f => portOf f.a
  | .vclamp f => portOf f.a ++ portOf f.b ++ portOf f.c
  | .vrcp f => portOf f.a
  | .vrsq f => portOf f.a
  | .vsqrt f => portOf f.a
  | .vexp2 f => portOf f.a
  | .vlog2 f => portOf f.a
  | .viadd f => portOf f.a ++ portOf f.b
  | .visub f => portOf f.a ++ portOf f.b
  | .vimul f => portOf f.a ++ portOf f.b
  | .vimad f => portOf f.a ++ portOf f.b ++ portOf f.c
  | .vimin f => portOf f.a ++ portOf f.b
  | .vimax f => portOf f.a ++ portOf f.b
  | .vand f => portOf f.a ++ portOf f.b
  | .vor f => portOf f.a ++ portOf f.b
  | .vxor f => portOf f.a ++ portOf f.b
  | .vshl f => portOf f.a ++ portOf f.b
  | .vshr f => portOf f.a ++ portOf f.b
  | .vsar f => portOf f.a ++ portOf f.b
  | .vcmp f => portOf f.a ++ portOf f.b
  | .vsel f => portOf f.a ++ portOf f.b
  | .vmov f => portOf f.a
  | .vext f => portOf f.a
  | .vperm f => portOf f.a ++ portOf f.b
  | .vslide f => portOf f.a ++ portOf f.b
  | .vzip f => portOf f.a ++ portOf f.b
  | .vunzip f => portOf f.a ++ portOf f.b
  | .vred f => portOf f.a
  | .vscan f => portOf f.a
  | .vcvt f => portOf f.a
  | .vsrnd f => portOf f.a
  | .vblock f => portOf f.a
  | .vcompress f => portOf f.a
  | .vexpand f => portOf f.a ++ portOf f.b
  | .vst f => portOf f.d
  | .vstt f => portOf f.d
  | .vscat f => portOf f.d
  | .rst f => if f.fmt == 0 then portOf f.d else []
  | .owrite f => portOf f.v
  | _ => []

/-- The registers that an instruction names as destinations. -/
def Instr.writes : Instr → List Dest
  | .call f => [.a f.lk]
  | .callr f => [.a f.lk]
  | .add f => [.s f.d]
  | .addi f => [.s f.d]
  | .sub f => [.s f.d]
  | .mul f => [.s f.d]
  | .mulh f => [.s f.d]
  | .mulhn f => [.s f.d]
  | .div f => [.s f.d]
  | .divn f => [.s f.d]
  | .rem f => [.s f.d]
  | .remn f => [.s f.d]
  | .and f => [.s f.d]
  | .or f => [.s f.d]
  | .xor f => [.s f.d]
  | .andn f => [.s f.d]
  | .shl f => [.s f.d]
  | .shr f => [.s f.d]
  | .sar f => [.s f.d]
  | .rol f => [.s f.d]
  | .min f => [.s f.d]
  | .max f => [.s f.d]
  | .minn f => [.s f.d]
  | .maxn f => [.s f.d]
  | .cmp f => [.s f.d]
  | .sel f => [.s f.d]
  | .mov f => [.s f.d]
  | .movi f => [.s f.d]
  | .movhi f => [.s f.d]
  | .clz f => [.s f.d]
  | .ctz f => [.s f.d]
  | .popc f => [.s f.d]
  | .brev f => [.s f.d]
  | .bext f => [.s f.d]
  | .bins f => [.s f.d]
  | .lea f => [.a f.d]
  | .adda f => [.a f.d]
  | .movaToAddress f => [.a f.d]
  | .movaToScalar f => [.s f.d]
  | .mfs f => [.s f.s]
  | .rdcyc f => [.s f.d]
  | .vadd f => vecRead f.d
  | .vsub f => vecRead f.d
  | .vmul f => vecRead f.d
  | .vfma f => vecRead f.d
  | .vfms f => vecRead f.d
  | .vfnma f => vecRead f.d
  | .vmin f => vecRead f.d
  | .vmax f => vecRead f.d
  | .vabs f => vecRead f.d
  | .vneg f => vecRead f.d
  | .vclamp f => vecRead f.d
  | .vrcp f => vecRead f.d
  | .vrsq f => vecRead f.d
  | .vsqrt f => vecRead f.d
  | .vexp2 f => vecRead f.d
  | .vlog2 f => vecRead f.d
  | .viadd f => vecRead f.d
  | .visub f => vecRead f.d
  | .vimul f => vecRead f.d
  | .vimad f => vecRead f.d
  | .vimin f => vecRead f.d
  | .vimax f => vecRead f.d
  | .vand f => vecRead f.d
  | .vor f => vecRead f.d
  | .vxor f => vecRead f.d
  | .vshl f => vecRead f.d
  | .vshr f => vecRead f.d
  | .vsar f => vecRead f.d
  | .vcmp f => [.p f.d]
  | .vsel f => vecRead f.d
  | .vmov f => vecRead f.d
  | .vmovi f => vecRead f.d
  | .vbcast f => vecRead f.d
  | .vins f => vecRead f.d
  | .vext f => [.s f.d]
  | .vperm f => vecRead f.d
  | .vslide f => vecRead f.d
  | .vzip f => vecRead f.d
  | .vunzip f => vecRead f.d
  | .vred f => vecRead f.d
  | .vscan f => vecRead f.d
  | .vcvt f => vecRead f.d
  | .vsrnd f => vecRead f.d
  | .vblock f => [.v f.d, .v (f.d + 1)]
  | .vunblock f => vecRead f.d
  | .vcompress f => vecRead f.d ++ [.v f.c]
  | .vexpand f => vecRead f.d
  | .vpcnt f => [.s f.d]
  | .pand f => [.p f.d]
  | .por f => [.p f.d]
  | .pxor f => [.p f.d]
  | .pnot f => [.p f.d]
  | .vrand f => vecRead f.d
  | .ld f => [.s f.d]
  | .vld f => vecRead f.d
  | .vldt f => vecRead f.d
  | .vgath f => vecRead f.d
  | .ldf f => [.s f.d]
  | .ldfk f => [.s f.d]
  | .feprobe f => [.s f.d]
  | .atom f => [.s f.d]
  | .atomcas f => [.s f.d]
  | .semrd f => [.s f.sn]
  | .bufacq f => [.a f.ad]
  | .rld f => if f.fmt == 0 then vecRead f.d else [.s f.d]
  | .ratom f => [.s f.d]
  | .tickwait f => [.s f.s]
  | .hstat f => [.s f.s]
  | .bwait f => [.s f.s]
  | .pitchrd f => [.s f.s]
  | .mstat f => [.s f.s]
  | .oread f => vecRead f.v
  | .tstk f => [.s f.s]
  | _ => []

/-- The ports that an instruction pushes. -/
def Instr.pushes : Instr → List Nat
  | .vadd f => portOf f.d
  | .vsub f => portOf f.d
  | .vmul f => portOf f.d
  | .vfma f => portOf f.d
  | .vfms f => portOf f.d
  | .vfnma f => portOf f.d
  | .vmin f => portOf f.d
  | .vmax f => portOf f.d
  | .vabs f => portOf f.d
  | .vneg f => portOf f.d
  | .vclamp f => portOf f.d
  | .vrcp f => portOf f.d
  | .vrsq f => portOf f.d
  | .vsqrt f => portOf f.d
  | .vexp2 f => portOf f.d
  | .vlog2 f => portOf f.d
  | .viadd f => portOf f.d
  | .visub f => portOf f.d
  | .vimul f => portOf f.d
  | .vimad f => portOf f.d
  | .vimin f => portOf f.d
  | .vimax f => portOf f.d
  | .vand f => portOf f.d
  | .vor f => portOf f.d
  | .vxor f => portOf f.d
  | .vshl f => portOf f.d
  | .vshr f => portOf f.d
  | .vsar f => portOf f.d
  | .vsel f => portOf f.d
  | .vmov f => portOf f.d
  | .vmovi f => portOf f.d
  | .vbcast f => portOf f.d
  | .vins f => portOf f.d
  | .vperm f => portOf f.d
  | .vslide f => portOf f.d
  | .vzip f => portOf f.d
  | .vunzip f => portOf f.d
  | .vred f => portOf f.d
  | .vscan f => portOf f.d
  | .vcvt f => portOf f.d
  | .vsrnd f => portOf f.d
  | .vunblock f => portOf f.d
  | .vcompress f => portOf f.d
  | .vexpand f => portOf f.d
  | .vrand f => portOf f.d
  | .vld f => portOf f.d
  | .vldt f => portOf f.d
  | .vgath f => portOf f.d
  | .rld f => if f.fmt == 0 then portOf f.d else []
  | .oread f => portOf f.v
  | _ => []

/-- The registers that the value checks of an instruction read (R387, R388). -/
def Instr.checks : Instr → List Dest
  | .jmpr f => [.a f.tgt]
  | .callr f => [.a f.tgt]
  | .ret f => [.a f.tgt]
  | .loop f => [.s f.ss]
  | .ld f => [.a f.ab]
  | .st f => [.a f.ab]
  | .vld f => [.a f.ab]
  | .vst f => [.a f.ab]
  | .vgath f => [.a f.ab, .v f.ix]
  | .vscat f => [.a f.ab, .v f.ix]
  | .ldf f => [.a f.ab]
  | .ldfk f => [.a f.ab]
  | .ste f => [.a f.ab]
  | .feset f => [.a f.ab]
  | .feprobe f => [.a f.ab]
  | .atom f => [.a f.ab]
  | .atomcas f => [.a f.ab]
  | .cntwait f => [.a f.ab]
  | .discard f => [.a f.ab, .s f.d]
  | .wback f => [.a f.ab, .s f.d]
  | .inval f => [.a f.ab, .s f.d]
  | .iinval f => [.a f.ab, .s f.d]
  | .pref f => [.a f.ab, .s f.d]
  | .rld f => [.a f.ab]
  | .rst f => [.a f.ab]
  | .ratom f => [.a f.ab]
  | .sbind f => [.a f.ab]
  | .haul f => [.a f.ab, .s f.s]
  | .haulg f => [.a f.ab, .s f.s]
  | .hgath f => [.a f.ab, .s f.s]
  | .hscat f => [.a f.ab, .s f.s]
  | .protect f => [.a f.ab, .s f.s, .s f.s2]
  | .unprotect f => [.a f.ab, .s f.s, .s f.s2]
  | .mlatch f => [.a f.aa, .a f.sc]
  | .mop f => [.a f.aa, .a (f.aa + 1)]
  | .mops f => [.a f.aa, .a (f.aa + 1), .a f.am]
  | .oread f => [.s f.s]
  | .owrite f => [.s f.s]
  | .omom f => [.a f.aw, .a f.am1]
  | .oadam f => [.a f.aw, .a f.am1, .a f.am2]
  | .pusht f => [.a f.aa, .s f.s]
  | .popt f => [.a f.aa, .s f.s]
  | _ => []

/-- The bundle cannot be undone because of this instruction, port accesses apart (R40, R253). -/
def Instr.sealing : Instr → Bool
  | .exit => true
  | .svcNull => true
  | .svcEvent => true
  | .svcAbort => true
  | .svcReside => true
  | .svcGroupinfo => true
  | .svcUnassigned _ => true
  | .mts _ => true
  | .st f => f.at_.ord == 2
  | .vst f => f.at_.ord == 2
  | .vstt f => f.at_.ord == 2
  | .vscat f => f.at_.ord == 2
  | .ldf _ => true
  | .ldfk _ => true
  | .ste _ => true
  | .feset _ => true
  | .feprobe _ => true
  | .atom _ => true
  | .atomcas _ => true
  | .semadd _ => true
  | .semset _ => true
  | .semwait _ => true
  | .semrd _ => true
  | .cntwait _ => true
  | .fence _ => true
  | .tokacq _ => true
  | .tokpass _ => true
  | .bufacq _ => true
  | .bufrel _ => true
  | .discard _ => true
  | .wback _ => true
  | .inval _ => true
  | .iinval _ => true
  | .rld _ => true
  | .rst _ => true
  | .ratom _ => true
  | .tickwait _ => true
  | .replay _ => true
  | .sbind _ => true
  | .sdone _ => true
  | .haul _ => true
  | .haulg _ => true
  | .hgath _ => true
  | .hscat _ => true
  | .protect _ => true
  | .unprotect _ => true
  | .belay _ => true
  | .mlatch _ => true
  | .mop _ => true
  | .mops _ => true
  | .mopr _ => true
  | .mrank1 _ => true
  | .mzero _ => true
  | .mloss _ => true
  | .owrite _ => true
  | .omom _ => true
  | .oadam _ => true
  | .pusht _ => true
  | .popt _ => true
  | _ => false

/-- The ordering classes of an instruction's memory accesses, or of the accesses that a release orders, as a mask (R125,
R131, R132, R137, R141, R231). -/
def Instr.accessMask : Instr → Nat
  | .ld f => 2 ^ f.at_.cls
  | .st f => 2 ^ f.at_.cls
  | .vld f => 2 ^ f.at_.cls
  | .vst f => 2 ^ f.at_.cls
  | .vldt f => 2 ^ f.at_.cls
  | .vstt f => 2 ^ f.at_.cls
  | .vgath f => 2 ^ f.at_.cls
  | .vscat f => 2 ^ f.at_.cls
  | .ldf _ => 0xFFFF
  | .ldfk _ => 0xFFFF
  | .ste _ => 0xFFFF
  | .feset _ => 1
  | .feprobe _ => 1
  | .bufrel _ => 0xFFFF
  | .tokpass _ => 0xFFFF
  | .belay _ => 0xFFFF
  | .atom f => 2 ^ f.at_.cls
  | .atomcas f => 2 ^ f.at_.cls
  | .semadd f => 2 ^ f.at_.cls
  | .semset f => 2 ^ f.at_.cls
  | .semwait f => 2 ^ f.at_.cls
  | .semrd f => 2 ^ f.at_.cls
  | .cntwait f => 2 ^ f.at_.cls
  | .discard f => 2 ^ f.at_.cls
  | .wback f => 2 ^ f.at_.cls
  | .inval f => 2 ^ f.at_.cls
  | .iinval f => 2 ^ f.at_.cls
  | .pref f => 2 ^ f.at_.cls
  | .rld f => 2 ^ f.at_.cls
  | .rst f => 2 ^ f.at_.cls
  | .ratom f => 2 ^ f.at_.cls
  | .sbind f => 2 ^ f.at_.cls
  | .haul f => 2 ^ f.at_.cls
  | .haulg f => 2 ^ f.at_.cls
  | .hgath f => 2 ^ f.at_.cls
  | .hscat f => 2 ^ f.at_.cls
  | .mlatch _ => 1
  | .mop _ => 1
  | .mops _ => 1
  | .mopr _ => 1
  | .omom _ => 1
  | .oadam _ => 1
  | .pusht _ => 1
  | .popt _ => 1
  | _ => 0

/-- The classes in which an instruction writes memory or releases. -/
def Instr.storeMask : Instr → Nat
  | .st f => 2 ^ f.at_.cls
  | .vst f => 2 ^ f.at_.cls
  | .vstt f => 2 ^ f.at_.cls
  | .vscat f => 2 ^ f.at_.cls
  | .ldf _ => 0xFFFF
  | .ste _ => 0xFFFF
  | .feset _ => 1
  | .bufrel _ => 0xFFFF
  | .tokpass _ => 0xFFFF
  | .belay _ => 0xFFFF
  | .atom f => 2 ^ f.at_.cls
  | .atomcas f => 2 ^ f.at_.cls
  | .semadd f => 2 ^ f.at_.cls
  | .semset f => 2 ^ f.at_.cls
  | .semwait f => 2 ^ f.at_.cls
  | .discard f => 2 ^ f.at_.cls
  | .wback f => 2 ^ f.at_.cls
  | .inval f => 2 ^ f.at_.cls
  | .rst f => 2 ^ f.at_.cls
  | .ratom f => 2 ^ f.at_.cls
  | .sbind f => 2 ^ f.at_.cls
  | .haul f => 2 ^ f.at_.cls
  | .haulg f => 2 ^ f.at_.cls
  | .hgath f => 2 ^ f.at_.cls
  | .hscat f => 2 ^ f.at_.cls
  | .omom _ => 1
  | .oadam _ => 1
  | .popt _ => 1
  | _ => 0

/-- How many variable-latency results an instruction puts in flight (R35, R230). -/
def Instr.variable : Instr → Nat
  | .ld _ => 1
  | .vld _ => 1
  | .vldt _ => 1
  | .vgath _ => 1
  | .ldf _ => 1
  | .ldfk _ => 1
  | .feprobe _ => 1
  | .atom _ => 1
  | .atomcas _ => 1
  | .semrd _ => 1
  | .bufacq _ => 1
  | .rld _ => 1
  | .ratom _ => 1
  | .tickwait _ => 1
  | .hstat _ => 1
  | .bwait _ => 1
  | .pitchrd _ => 1
  | .mlatch _ => 1
  | .mop _ => 1
  | .mops _ => 1
  | .mopr _ => 1
  | .mrank1 _ => 1
  | .mzero _ => 1
  | .mloss _ => 1
  | .mstat _ => 1
  | .oread _ => 1
  | .owrite _ => 1
  | .omom _ => 1
  | .oadam _ => 1
  | .tstk _ => 1
  | _ => 0

/-- The accumulator tile that an instruction names as destination (R147). -/
def Instr.tileDest : Instr → Option Nat
  | .mop f => some (f.acc)
  | .mops f => some (f.acc)
  | .mopr f => some (f.acc)
  | .mrank1 f => some (f.acc)
  | .mzero f => some (f.acc)
  | .mloss f => some (f.acc)
  | .owrite f => some (f.acc)
  | .omom f => some (f.acc)
  | .oadam f => some (f.acc)
  | _ => none

/-- The command's latency field bounds a tile result; OMOM and OADAM have none (R37, R244). -/
def Instr.tileBound : Instr → Bool
  | .mop _ => true
  | .mops _ => true
  | .mopr _ => true
  | .mrank1 _ => true
  | .mzero _ => true
  | .mloss _ => true
  | .owrite _ => true
  | _ => false

/-- The accumulator tile that an instruction counts as reading (R229). -/
def Instr.tileRead : Instr → Option Nat
  | .mop f => some (f.acc)
  | .mops f => some (f.acc)
  | .mopr f => some (f.acc)
  | .mrank1 f => some (f.acc)
  | .mloss f => some (f.acc)
  | .mdrain f => some (f.acc)
  | .mstat f => some (f.acc)
  | .oread f => some (f.acc)
  | .owrite f => some (f.acc)
  | .omom f => some (f.acc)
  | .oadam f => some (f.acc)
  | _ => none

/-- The bundle cannot be undone because of this instruction (R40). -/
def Instr.irrevocable (i : Instr) : Bool := i.sealing || !i.pops.isEmpty || !i.pushes.isEmpty

/-- Stores that the restart gate holds (R39). -/
def Instr.gated : Instr → Bool
  | .st _ => true
  | .vst _ => true
  | .vstt _ => true
  | .vscat _ => true
  | _ => false

/-- The latch that an instruction names as destination (R147). -/
def Instr.latchDest : Instr → Option Nat
  | .mlatch f => some f.w
  | _ => none

/-- The destinations for which two slots conflict: writes to s0 and p0 are discarded and never conflict (R147). -/
def Instr.conflicts (i : Instr) : List Dest := i.writes.filter (fun d => d != .s 0 && d != .p 0)

end Sys2Proof
end

