-- ==== Sys2Proof/Machine/Ops.lean ====
section
/-! DEFINITION. The named operations over registers, ports, the restart gate and the issue of a bundle; taking a trap,
returning from one, and rolling back (chapters 02, 03, 07, 19, 20). -/

namespace Sys2Proof.Machine

/-! ## The issuing strand -/

/-- The strand that is issuing, as it stands now. -/
def State.me (s : State) : Strand := s.strand s.issue.strand

/-- Change the issuing strand. -/
def State.onMe (s : State) (f : Strand → Strand) : State := s.onStrand s.issue.strand f

/-- The issuing core's number. -/
def State.myCore (s : State) : Nat := coreOf s.issue.strand

/-- Change the issue in progress. -/
def State.onIssue (s : State) (f : Issue → Issue) : State := { s with issue := f s.issue }

/-- Raise flags: they are ORed into FLAGS when the bundle commits (R62, R65). -/
def State.raise (s : State) (fl : Nat) : State := s.onIssue (fun x => { x with flags := x.flags ||| fl })

/-! ## Registers (R51, R52) -/

/-- The width of a register. -/
def destWidth : Dest → Nat
  | .s _ => 64
  | .a _ => 64
  | .v _ => 1024
  | .p _ => 128
  | .push _ _ => 1024
  | .tile _ => 0

/-- The register code of R374. -/
def Dest.code : Dest → Nat
  | .s n => n
  | .a n => n
  | .v n => n
  | .p n => n
  | .push q _ => q
  | .tile n => 512 + n

/-- Registers whose writes are discarded (R52); a tile is not one of the strand's registers. -/
def Dest.fixed : Dest → Bool
  | .s 0 => true
  | .p 0 => true
  | .tile _ => true
  | _ => false

/-- A register's contents: s0 reads zero and p0 all ones (R52). -/
def Strand.get (x : Strand) : Dest → Nat
  | .s 0 => 0
  | .s n => (Table.get x.s 0 n).toNat
  | .a n => (Table.get x.a 0 n).toNat
  | .v n => (Table.get x.v 0 n).toNat
  | .p 0 => 2 ^ 128 - 1
  | .p n => (Table.get x.p 0 n).toNat
  | .push _ _ => 0
  | .tile _ => 0

/-- Set a register's contents: writes to s0 and p0 are discarded (R52). -/
def Strand.put (x : Strand) (d : Dest) (v : Nat) : Strand :=
  match d with
  | .s 0 => x
  | .s n => { x with s := Table.set x.s n (BitVec.ofNat 64 v) }
  | .a n => { x with a := Table.set x.a n (BitVec.ofNat 64 v) }
  | .v n => { x with v := Table.set x.v n (BitVec.ofNat 1024 v) }
  | .p 0 => x
  | .p n => { x with p := Table.set x.p n (BitVec.ofNat 128 v) }
  | .push _ _ => x
  | .tile _ => x

/-- The shadow slot of a register holds a value. -/
def Shadow.isReg (h : Shadow) (d : Dest) : Bool :=
  match h with
  | .reg r _ => r == d
  | .loop _ _ _ => false

/-- The shadow slot of loop register `n`. -/
def Shadow.isLoop (h : Shadow) (n : Nat) : Bool :=
  match h with
  | .reg _ _ => false
  | .loop m _ _ => m == n

/-- On the first write since the restart mark, copy the old value into a shadow slot (R39). -/
def Strand.keep (x : Strand) (d : Dest) : Strand :=
  if d.fixed || x.shadows.any (fun h => h.isReg d) then x
  else { x with shadows := x.shadows ++ [.reg d (x.get d)] }

/-- On the first change of a loop register since the restart mark, copy it and its LIX together (R39). -/
def Strand.keepLoop (x : Strand) (n : Nat) : Strand :=
  if x.shadows.any (fun h => h.isLoop n) then x
  else { x with shadows := x.shadows ++ [.loop n (Table.get x.loops {} n) (Table.get x.lix 0 n)] }

/-- A younger write, made after `n` restart points, replaces every older result in flight to its register (R34). -/
def killOlder (d : Dest) (n : Nat) (l : List InFlight) : List InFlight :=
  l.map (fun e => if e.dest = d then { e with dead := true, killer := if e.dead then min e.killer n else n } else e)

/-- A write by the strand's program: shadowed, and older results in flight are superseded. -/
def Strand.write (x : Strand) (d : Dest) (v : Nat) : Strand :=
  if d.fixed then x
  else
    let x := (x.keep d).put d v
    { x with inflight := killOlder d x.epoch x.inflight }

/-- The result in flight is the register's latest, so a reader must not see the register (R34). -/
def InFlight.pends (e : InFlight) (d : Dest) : Bool := !e.dead && e.dest == d

/-- A register has a result in flight that has not landed: the scoreboard holds its readers (R34). -/
def Strand.pending (x : Strand) (d : Dest) : Bool := x.inflight.any (fun e => e.pends d && !e.ticketed && !e.landed)

/-- The result keeps a reader from its register: in exposed mode up to its bound, in interlocked mode until it has landed
(R34). -/
def InFlight.hides (e : InFlight) (d : Dest) (exposed : Bool) : Bool := e.pends d && (exposed || !e.landed)

/-- The poison of a register: late (R37) or ticket-poisoned (R271). -/
def Strand.poison (x : Strand) (d : Dest) : Option Cause :=
  if x.inflight.any (fun e => e.pends d && e.late && !e.ticketed) then some .lateResult
  else if x.inflight.any (fun e => e.pends d && e.ticketed) then some .ticketPending
  else none

/-- The value that a bundle reads: as it stood before the bundle (R147), undefined while a result to it is in
flight (R2, R34). -/
def State.rd (s : State) (d : Dest) : Nat :=
  if !d.fixed && s.issue.pre.inflight.any (fun e => e.hides d s.issue.x) then
    (Config.freeReg s.freeCount d.code).toNat % 2 ^ destWidth d
  else s.issue.pre.get d

/-- A scalar operand. -/
def State.rs (s : State) (n : Nat) : Nat := s.rd (.s n)

/-- An address operand. -/
def State.ra (s : State) (n : Nat) : Nat := s.rd (.a n)

/-! ## Ports (R54, R55, R148) -/

/-- The places of the queue that a port names for strand `k`: the one it pops, or the one it pushes into. -/
def State.places (s : State) (k port : Nat) (push : Bool) : List Place :=
  if port < 416 then ((Table.find (s.strand k).ports (port - 384)).map (·.buf)).getD []
  else if port < 432 then Table.get (s.core (coreOf k)).cq [] (port - 416)
  else if port < 440 then
    let j := port - 432
    if push then Table.get (s.core (8 * ropeOf k + j)).inq [] (8 * ctxOf k + posOf k)
    else Table.get (s.core (coreOf k)).inq [] (8 * ctxOf k + j)
  else Table.get (s.strand k).reports [] (port - 440)

/-- Replace those places. -/
def State.setPlaces (s : State) (k port : Nat) (push : Bool) (l : List Place) : State :=
  if port < 416 then s.onStrand k (fun x =>
    match Table.find x.ports (port - 384) with
    | none => x
    | some p => { x with ports := Table.set x.ports (port - 384) { p with buf := l } })
  else if port < 432 then s.onCore (coreOf k) (fun c => { c with cq := Table.set c.cq (port - 416) l })
  else if port < 440 then
    let j := port - 432
    if push then s.onCore (8 * ropeOf k + j) (fun c => { c with inq := Table.set c.inq (8 * ctxOf k + posOf k) l })
    else s.onCore (coreOf k) (fun c => { c with inq := Table.set c.inq (8 * ctxOf k + j) l })
  else s.onStrand k (fun x => { x with reports := Table.set x.reports (port - 440) l })

/-- The entries of a port's queue (R55). -/
def portRoom (port : Nat) : Nat := if port < 432 then 8 else if port < 440 then 4 else 8

/-- Count a transfer on a stream port (R54). -/
def State.countStream (s : State) (k port : Nat) : State :=
  if port < 416 then s.onStrand k (fun x =>
    match Table.find x.ports (port - 384) with
    | none => x
    | some p => { x with ports := Table.set x.ports (port - 384) { p with used := p.used + 1 } })
  else s

/-- Pop one vector for the issuing strand (R148). -/
def State.pop (s : State) (port : Nat) : Nat × State :=
  let s := if 440 ≤ port then s.dropL1 s.myCore else s
  match s.places s.issue.strand port false with
  | [] => (0, s)
  | p :: t => ((p.val.getD 0).toNat, (s.setPlaces s.issue.strand port false t).countStream s.issue.strand port)

/-- Reserve the next place of a port for a push of strand `k` (R148). -/
def State.reservePlace (s : State) (k port : Nat) : Nat × State :=
  let id := s.serial
  let s := { s with serial := id + 1 }
  (id, (s.setPlaces k port true (s.places k port true ++ [{ id := id, val := none }])).countStream k port)

/-- Fill a reserved place (R148). -/
def State.fillPlace (s : State) (k port id v : Nat) : State :=
  s.setPlaces k port true ((s.places k port true).map
    (fun p => if p.id = id then { p with val := some (BitVec.ofNat 1024 v) } else p))

/-- A vector operand: a register, or one vector popped from a port (R146, R203). -/
def State.readVec (s : State) (x : Nat) : Nat × State := if x < 384 then (s.rd (.v x), s) else s.pop x

/-! ## Results (R34, R149, R150) -/

/-- Put a result of fixed latency in flight; a latency of one lands before the next bundle can issue. -/
def State.result (s : State) (d : Dest) (v lat : Nat) : State :=
  if d.fixed then s
  else if lat ≤ 1 then s.onMe (fun x => x.write d v)
  else
    let c := s.cycle + lat
    s.onMe (fun x => { x with inflight := x.inflight ++
      [{ dest := d, value := some v, source := .fixed, exposed := s.issue.x, due := c, lands := some c,
         epoch := x.epoch }] })

/-- A vector result of fixed latency: to a register, or pushed to a port. -/
def State.resultVec (s : State) (x v lat : Nat) : State :=
  if x < 384 then s.result (.v x) v lat
  else
    let (id, s) := s.reservePlace s.issue.strand x
    s.result (.push x id) v (max lat 2)

/-- The bound of a latency field (R149). -/
def latBound (lat : Nat) : Nat := (fld lat 0 8 + 1) * 8 ^ fld lat 8 2

/-- Put a result of variable latency in flight: in exposed mode it lands by its bound, in interlocked mode an event
lands it (R34, log entry 7). A result whose value is not known yet waits for its producer. -/
def State.later (s : State) (d : Dest) (v : Option Nat) (src : Source) (lat tag : Nat) : State :=
  if d.fixed then s
  else
    let c := s.cycle + latBound lat
    s.onMe (fun x => { x with inflight := x.inflight ++
      [{ dest := d, value := v, source := src, exposed := s.issue.x, due := c,
         lands := if s.issue.x && v.isSome then some c else none, epoch := x.epoch, tag := tag }] })

/-- A vector result of variable latency. -/
def State.laterVec (s : State) (x : Nat) (v : Option Nat) (src : Source) (lat tag : Nat) : State :=
  if x < 384 then s.later (.v x) v src lat tag
  else
    let (id, s) := s.reservePlace s.issue.strand x
    s.later (.push x id) v src lat tag

/-- A result's value reaches a register: into the shadow slot when a write younger than the restart point has replaced a
result that is older than it, nowhere when any other younger write has, and otherwise into the register, shadowed if it is
younger than that point (R34, R39). -/
def Strand.landValue (x : Strand) (e : InFlight) (v : Nat) : Strand :=
  if e.dead then
    if e.epoch < x.epoch && decide (x.epoch ≤ e.killer) then
      { x with shadows := x.shadows.map (fun h => if h.isReg e.dest then .reg e.dest v else h) }
    else x
  else if e.epoch < x.epoch then x.put e.dest v
  else (x.keep e.dest).put e.dest v

/-- A forced freeze keeps the exposed register results that land from cycle F on for the replay buffer (R47). -/
def Strand.buffers (x : Strand) (e : InFlight) : Bool :=
  x.st == .frozen && x.frozenAt.isSome && e.exposed && !e.dead && (match e.dest with
    | .push _ _ => false
    | _ => true)

/-- Land the result at position `i` of strand `k`, with a value; results older than it to one register are superseded.
An exposed result that lands before its bound stays listed until then (R34). -/
def State.landAt (s : State) (k i v : Nat) : State :=
  match (s.strand k).inflight[i]? with
  | none => s
  | some e =>
    let early := e.exposed && decide (s.cycle < e.due) && !e.dead
    let s := s.onStrand k (fun x =>
      if x.buffers e then
        { x with inflight := killOlder e.dest e.epoch (x.inflight.take i) ++
            [{ e with landed := true, ticketed := false, value := some v, lands := some s.cycle }] ++ x.inflight.drop (i + 1) }
      else
      let x := x.landValue e v
      let older := killOlder e.dest e.epoch (x.inflight.take i)
      let newer := x.inflight.drop (i + 1)
      { x with inflight := older ++ (if early then [{ e with landed := true, ticketed := false, value := some v }] else []) ++ newer })
    match e.dest with
    | .push port id => s.fillPlace k port id v
    | _ => s

/-- What becomes of a result at the start of a cycle: nothing, it lands, it leaves the list, or it is late. -/
inductive Settling where
  | stays
  | lands (v : Nat)
  | leaves
  | late
deriving DecidableEq, Repr

/-- Judge a result in flight at a cycle (R34, R37). -/
def InFlight.settling (e : InFlight) (now : Nat) : Settling :=
  if e.ticketed then .stays
  else if e.landed then (if e.due ≤ now then .leaves else .stays)
  else
    match e.lands, e.value with
    | some c, some v => if c ≤ now then .lands v else if e.exposed && decide (e.due ≤ now) then .late else .stays
    | _, _ => if e.exposed && decide (e.due ≤ now) then .late else .stays

/-- Settle the results of strand `k` from position `i` on, `n` of them. -/
def State.settleFrom (s : State) (k : Nat) : Nat → Nat → State
  | _, 0 => s
  | i, n + 1 =>
    match (s.strand k).inflight[i]? with
    | none => s
    | some e =>
      match if e.landed && (s.strand k).frozenAt.isSome then Settling.stays else e.settling s.cycle with
      | .stays => s.settleFrom k (i + 1) n
      | .lands v => (s.landAt k i v).settleFrom k i n
      | .leaves => (s.onStrand k (fun x => { x with inflight := listDrop x.inflight i })).settleFrom k i n
      | .late => (s.onStrand k (fun x => { x with inflight := listSet x.inflight i { e with late := true } })).settleFrom
          k (i + 1) n

/-- Settle every result of strand `k` at the start of a cycle; those of a resumed strand count from its first bundle
(R48). -/
def State.settle (s : State) (k : Nat) : State :=
  if (s.strand k).resumed then s else s.settleFrom k 0 (s.strand k).inflight.length

/-- Land every result of strand `k` that has a value, in order; ticketed ones stay (R38, R271, R371). -/
def State.landAllFrom (s : State) (k : Nat) : Nat → Nat → State
  | _, 0 => s
  | i, n + 1 =>
    match (s.strand k).inflight[i]? with
    | none => s
    | some e =>
      match e.ticketed, e.value with
      | true, _ => s.landAllFrom k (i + 1) n
      | false, none => s.landAllFrom k (i + 1) n
      | false, some v =>
        ((s.landAt k i v).onStrand k (fun x =>
          { x with inflight := if e.exposed && decide (s.cycle < e.due) && !e.dead
                               then listDrop x.inflight i else x.inflight })).landAllFrom k i n

/-- Land all. -/
def State.landAll (s : State) (k : Nat) : State := s.landAllFrom k 0 (s.strand k).inflight.length

/-! ## The restart gate (R39 to R42) -/

/-- Stores held in a gate perform in program order. -/
def State.performAll (s : State) : List Store → State
  | [] => s
  | x :: t => (s.perform x).performAll t

/-- The device-register store that a gated store is, if it is one: offset, width in bits, value. -/
def Store.devReg (x : Store) : Option (Nat × Nat × Nat) :=
  match x.cells with
  | [] => none
  | (l, _) :: _ =>
    if isDevReg l then some (l - 0xF00000000000, 8 * x.cells.length, ofBytes (x.cells.map (·.2))) else none

/-- A store performs: in memory, or as a posted write to a device register, which the device takes up as its next
event (log entry 14). -/
def State.release (s : State) (x : Store) : State :=
  match x.devReg with
  | some (off, w, v) => { s with agenda := s.agenda ++ [.event (.registerWrite off w v)] }
  | none => s.perform x

/-- The gate of strand `k` releases its entries to memory in program order (R39). -/
def State.releaseGate (s : State) (k : Nat) : State :=
  let held := (s.strand k).gate
  held.foldl (fun s x => s.release x) (s.onStrand k (fun x => { x with gate := [] }))

/-- The part of a store that goes to its home would not perform there at once (R16, R420). -/
def State.wouldQueue (s : State) (x : Store) : Bool :=
  let cells := if (s.core x.core).hasL1 then x.cells.filter (fun c => !x.held.contains (c.1 / 64)) else x.cells
  x.devReg.isNone && !cells.isEmpty &&
  (s.coreQueued x.core || cells.any (fun c => s.homeWaits (x.core / 64) c.1))

/-- The strand's next bundle becomes a restart point: the shadows are discarded (R39, R40). The errors found in its region
are forgotten, but for one that a rollback has begun anew (R376). -/
def Strand.restartAt (x : Strand) (pc bank : Nat) (lastX : Bool) : Strand :=
  { x with shadows := [], epoch := x.epoch + 1, restartPc := pc, restartBank := bank, restartX := lastX,
           softErrs := if x.redo then x.softErrs else [] }

/-- The bundle being issued becomes the restart point, after the gate has released its entries (R39, R41). -/
def State.mark (s : State) : State :=
  (s.releaseGate s.issue.strand).onMe (fun x => x.restartAt s.issue.pc s.issue.bank x.lastX)

/-! ## Loop ends (R183) -/

/-- The six levels, innermost first. -/
def levelsDown : List Nat := [5, 4, 3, 2, 1, 0]

/-- Match the loop ends at word `w` of bank `b`: the registers after it, and the level that loops back. -/
def matchEnds (w b : Nat) : List Nat → Table LoopReg → Table LoopReg × Option Nat
  | [], t => (t, none)
  | n :: ns, t =>
    let l := Table.get t {} n
    if l.act && l.last == w && l.bank == b then
      if 1 < l.left then (Table.set t n { l with left := l.left - 1 }, some n)
      else matchEnds w b ns (Table.set t n { l with act := false })
    else matchEnds w b ns t

/-- The levels whose register differs between two tables. -/
def changedLevels (t u : Table LoopReg) : List Nat :=
  levelsDown.filter (fun n => decide (Table.get t {} n ≠ Table.get u {} n))

/-- Match the loop ends of a strand at the commit of a bundle: the changed registers are shadowed first, and the level
that loops back counts its LIX. The result is the strand and its next program counter (R39, R183). -/
def Strand.closeLoops (x : Strand) (pc bank succ : Nat) : Strand × Nat :=
  let (t, back) := matchEnds (pc / 2) bank levelsDown x.loops
  let x := (changedLevels x.loops t).foldl Strand.keepLoop x
  let x := { x with loops := t }
  match back with
  | none => (x, succ)
  | some n => ({ x with lix := Table.set x.lix n ((Table.get x.lix 0 n + 1) % 2 ^ 32) }, 2 * (Table.get t {} n).start)

/-- BR's test of a scalar (R177). -/
def branchTaken (cc v : Nat) : Bool :=
  let t := sgn 64 v
  match cc with
  | 0 => t == 0
  | 1 => t != 0
  | 2 => decide (t < 0)
  | 3 => decide (0 ≤ t)
  | 4 => decide (0 < t)
  | _ => decide (t ≤ 0)

/-- The bundle transfers control, so that it matches no loop end (R183). -/
def Strand.transfers (x : Strand) : Instr → Bool
  | .br f => branchTaken f.cc (x.get (.s f.ss))
  | .jmp _ => true
  | .call _ => true
  | .jmpr _ => true
  | .callr _ => true
  | .ret _ => true
  | .bswap _ => true
  | .rtt => true
  | _ => false

/-- The loop registers that a bundle at a place changes: a LOOP's, or those of the loop ends that it matches (R39, R182,
R183). -/
def Strand.loopsTouched (x : Strand) (is : List Instr) (pc bank : Nat) : List Nat :=
  match is.findSome? (fun i => match i with
    | .loop f => some f.lv
    | _ => none) with
  | some n => [n]
  | none =>
    if is.any x.transfers || x.handler != .none then []
    else changedLevels x.loops (matchEnds (pc / 2) bank levelsDown x.loops).1

/-! ## Streams: leaving one (R27, R29, R50, R239) -/

/-- The strand takes its bundles from its stream: attached, or waiting or joining from there. -/
def Strand.onStream (x : Strand) : Bool :=
  x.st == .attached || ((x.st == .waiting || x.st == .joining) && x.wasAttached)

/-- The positions whose strands of a context slot satisfy a test. -/
def State.positions (s : State) (r c : Nat) (p : Strand → Bool) : List Nat :=
  [0, 1, 2, 3, 4, 5, 6, 7].filter (fun j => p (s.strand (strandAt r c j)))

/-- The strand has not left its stream: it is on it, or was when it froze. -/
def Strand.belongs (x : Strand) : Bool := x.onStream || (x.st == .frozen && x.wasAttached)

/-- The lead core's position, if the stream has one: freezing is no leaving, so a frozen lead stays it (R27, R50). -/
def State.leadOf (s : State) (r c : Nat) : Option Nat := (s.positions r c Strand.belongs).head?

/-- A stream that the strands have left: idle when every strand of the slot has exited, parked otherwise (R50). -/
def State.parkIfLeft (s : State) (r c : Nat) : State :=
  let t := Table.get (s.rope r).streams {} c
  let become (x : StreamState) := s.onRope r (fun y => { y with streams := Table.set y.streams c { t with st := x } })
  if t.st = .frozen ∨ t.st = .idle then s
  else if (s.positions r c (fun x => x.st == .exited)).length = 8 then become .idle
  else if (s.positions r c Strand.belongs).isEmpty && (t.st == .streaming || t.st == .stalled || t.st == .resolving ||
      t.st == .pausing || t.st == .joining) then become .parked
  else s

/-- The `n` youngest MOPRs of strand `k` that wait in an array queue, given youngest first, land abandoned (R239). -/
def abandonYoungest (k : Nat) : Nat → List MxCmd → List MxCmd
  | _, [] => []
  | 0, l => l
  | n + 1, c :: t =>
    match c.i with
    | .mopr _ =>
      if c.strand = k && !c.abandoned then { c with abandoned := true } :: abandonYoungest k n t
      else c :: abandonYoungest k (n + 1) t
    | _ => c :: abandonYoungest k (n + 1) t

/-- The MOPRs of position `p` that strand `k`'s position has not issued are abandoned (R239). -/
def State.abandonAt (s : State) (k p : Nat) : State :=
  let r := ropeOf k
  let issued := Table.get (s.rope r).mopr [] (ctxOf k)
  let n := issued.count p - issued.count (posOf k)
  if n = 0 then s
  else
    (s.onRope r (fun y => { y with mopr := Table.set y.mopr (ctxOf k) (n.repeat (fun l => l.erase p) issued) })).onCore
      (8 * r + p) (fun c => { c with
        mxq := Table.set c.mxq 0 (abandonYoungest (strandAt r (ctxOf k) p) n (Table.get c.mxq [] 0).reverse).reverse })

/-- Every rendezvous that strand `k` leaves before issuing its MOPR is abandoned (R239). `mopr` lists one position for
each MOPR that a position has issued and whose operation has not started. -/
def State.abandonMopr (s : State) (k : Nat) : State := [0, 1, 2, 3, 4, 5, 6, 7].foldl (fun s p => s.abandonAt k p) s

/-- Strand `k` leaves its stream: its queue is emptied, a MOPR rendezvous that it has not joined is abandoned, and the
stream parks if it was the last (R29, R50, R239). -/
def State.leaveStream (s : State) (k : Nat) : State :=
  let was := (s.strand k).onStream
  let s := s.onStrand k (fun x => { x with
    queue := [], port := none, readAt := s.cycle + 1, met := none, found := [], since := none, freezing := false, expect := [], outcome := none, wasAttached := false })
  if was then
    ((s.onStrand k (fun x => { x with st := if x.st = .attached then .detached else x.st })).abandonMopr k).parkIfLeft
      (ropeOf k) (ctxOf k)
  else s

/-! ## The first bundle after a forced freeze (R48) -/

/-- Cycle G: what the replay buffer and the unlanded results of a resumed strand mean for a bundle that issues now
(R48). An entry whose landing offset has come is in its register, and so is every one for a bundle that drains first
(R36). -/
def Strand.reenter (x : Strand) (now : Nat) (drains : Bool) : Strand :=
  if x.resumed then
    let shift := now - x.frozenAt.getD now
    let old := x.inflight.map (fun e => { e with due := e.due + shift, late := e.exposed && decide (e.due + shift ≤ now) })
    let back (r : ReplayEntry) : InFlight :=
      { dest := r.dest, value := some r.value, source := .fixed, exposed := true, due := (now + r.e - 1).toNat
        lands := some (now + r.d - 1).toNat, late := decide (r.e ≤ 1), replayed := true }
    let ready (r : ReplayEntry) : Bool := drains || decide (r.d ≤ 1)
    (x.replayBuf.filter ready).foldl (fun x r => x.put r.dest r.value) { x with
      inflight := old ++ (x.replayBuf.filter (fun r => !ready r)).map back
      replayBuf := if drains then [] else x.replayBuf }
  else x

/-- The bundle has not issued: cycle G is still to come. -/
def Strand.unresume (x : Strand) (now : Nat) : Strand :=
  if x.resumed then
    let shift := now - x.frozenAt.getD now
    { x with inflight := (x.inflight.filter (fun e => !e.replayed)).map (fun e => { e with due := e.due - shift }) }
  else x

/-- Enter a command in a buffer sorted by time, after those with the same time (R285). -/
def enterHaul (h : Haul) : List Haul → List Haul
  | [] => [h]
  | g :: t => if h.t < g.t then h :: g :: t else g :: enterHaul h t

/-- The commands of strand `k` that a resume re-entered at CYC `c` count from this cycle, which is its G (R290). -/
def Engine.rebase (e : Engine) (k now : Nat) : Engine :=
  let mine (h : Haul) : Bool := h.strand == k && h.resumedAt.isSome
  let moved (h : Haul) : Haul := { h with t := h.t + (now - h.resumedAt.getD now), resumedAt := none }
  { e with buf := (e.buf.filter mine).foldl (fun l h => enterHaul (moved h) l) (e.buf.filter (fun h => !mine h)) }

/-- The time that a ticket has been held counts on from this CYC cycle (R410). -/
def Ticket.countOn (t : Ticket) (now : Nat) : Ticket :=
  if t.paused then { t with paused := false, ticketAt := now - t.ticketAt } else t

/-- The time that a ticket without a notice has been held stops counting (R410). -/
def Ticket.pause (t : Ticket) (now : Nat) : Ticket :=
  if t.paused then t else { t with paused := true, ticketAt := now - t.ticketAt }

/-- Change every entry of a core's ticket table. -/
def Core.mapTickets (c : Core) (f : Ticket → Ticket) : Core := { c with tickets := c.tickets.map (fun e => (e.1, f e.2)) }

/-- The first bundle has issued: the strand's replay buffer is spent, its commands on the mx paths count from G, and the times of
its gang's tickets count on (R48, R410). -/
def State.endResume (s : State) (k : Nat) : State :=
  let x := s.strand k
  if x.resumed then
    let shift := s.cycle - x.frozenAt.getD s.cycle
    let f (m : MxCmd) : MxCmd := if m.strand = k then { m with issued := m.issued + shift } else m
    let ropes := (s.gangOf k).ropes
    let s : State := { s with
      engines := s.engines.map (fun e => (e.1, e.2.rebase k s.cyc.toNat))
      cores := s.cores.map (fun c =>
        (c.1, if ropes.contains (c.1 / 8) then c.2.mapTickets (fun t => t.countOn s.cyc.toNat) else c.2)) }
    (s.onStrand k (fun x => { x with
      resumed := false, frozenAt := none, replayBuf := []
      inflight := x.inflight.map (fun e => { e with replayed := false }) })).onCore (coreOf k) (fun c =>
        { c with mxq := c.mxq.map (fun q => (q.1, q.2.map f)), mxRun := c.mxRun.map (fun m => (m.1, f m.2)) })
  else s

/-! ## Taking a trap (R371 to R373) -/

/-- The strand has mx commands queued or running. -/
def Core.hasMx (c : Core) (k : Nat) : Bool :=
  c.mxq.any (fun q => q.2.any (fun m => m.strand == k && !m.orphan)) ||
  c.mxRun.any (fun m => m.2.strand == k && !m.2.orphan)

/-- Every result that the strand has in flight can land on this cycle: none waits for a peer or an mx path, nor for the
end of a fixed latency (R34, R371). -/
def State.drained (s : State) (k : Nat) : Bool :=
  (s.strand k).inflight.all (fun e => e.ticketed || e.landed ||
    (e.value.isSome && (e.source != .fixed || e.lands.all (fun c => decide (c ≤ s.cycle))))) &&
  !(s.core (coreOf k)).hasMx k

/-- Every result of the strand has landed and its commands are with their engines: the drain of R36. -/
def State.drainOver (s : State) (k : Nat) : Bool :=
  (s.strand k).inflight.all (fun e => e.ticketed || e.landed) && !(s.core (coreOf k)).hasMx k

/-- The trap that a bundle's faults select: vector, TFM, TCAUSE and TINFO (R64, R372). -/
def trapRec (x : Strand) (tba : Nat) (fs : List SlotFault) : TrapRec :=
  let hard := fs.filter (fun f => decide (f.cause.code < 0x20))
  let chosen := if hard.isEmpty then fs else hard
  { toRvec := hard.isEmpty && x.rvec != 0
    tba := tba
    tfm := (fs.filter (fun f => decide (f.slot < 6))).foldl (fun m f => m ||| 2 ^ f.slot) 0
    tcause := fs.foldl (fun m f => m ||| f.cause.code * 256 ^ (if f.slot < 6 then f.slot else 0)) 0
    tinfo := (chosen.head?.map (·.info)).getD 0 }

/-- The firmware has the strand's context still to kill (R374, R400, R406): a trap, a rollback or a freeze that reaches the
strand then has no effect (R382). -/
def Strand.doomed (x : Strand) : Bool :=
  match x.fw with
  | some (.kill _ _ _ _ _ _ _) => true
  | _ => false

/-- Steps 3 to 6 of trap entry: results land, the gate releases, the trap registers are written, and the strand goes on
at the vector (R371). -/
def State.finishTrap (s : State) (k : Nat) : State :=
  match (s.strand k).trapping with
  | none => s
  | some t =>
    let s := (s.landAll k).releaseGate k
    s.onStrand k (fun x =>
      let v := if t.toRvec then x.rvec else x.tvec
      let x := { x with
        tba := t.tba, tfm := t.tfm, tcause := t.tcause, tinfo := t.tinfo, trapping := none,
        handler := if t.toRvec then .replay else .sup, st := .detached, wasAttached := false, wait := none, redo := false,
        pc := fld v 0 16, bank := fld v 16 1, lastX := x.lastX, ready := 0, readAt := s.cycle + 1,
        fw := if t.toRvec || x.doomed then x.fw else some .serveTrap }
      x.restartAt x.pc x.bank x.lastX)

/-- The strand that holds its core's issue slot loses it: its turn ends on the next cycle (R26). -/
def State.endTurnOf (s : State) (k : Nat) : State :=
  s.onCore (coreOf k) (fun c => if c.sel = ctxOf k && !c.gave then { c with ends := true } else c)

/-- TAKING A TRAP (R371, R373): the strand stops, leaves its stream, and gives up what it waits for. In a handler state it is
a double fault, and the firmware kills the context. Otherwise entry completes at once when every result can land, and by
TRAP_ENTRY when the last one has. -/
def State.takeTrap (s : State) (k tba : Nat) (fs : List SlotFault) : State :=
  let x := s.strand k
  let t := trapRec x tba fs
  if x.doomed then s
  else
    let s := (((s.endTurnOf k).endResume k).leaveStream k).onStrand k (fun y =>
      { y with st := .trapped, wait := none, registering := none, pri := none })
    if x.handler ≠ .none then
      s.onStrand k (fun y => { y with fw := some (.kill 2 0x42 t.tba t.tfm t.tcause t.tinfo x.tba) })
    else
      let s := s.onStrand k (fun y => { y with trapping := some t })
      if s.drained k then s.finishTrap k else s

/-- RETURNING FROM A TRAP (R194): the handler state becomes none and the strand goes on at TBA, detached. -/
def Strand.returnFromTrap (x : Strand) : Strand :=
  { x with handler := .none, bank := fld x.tba 16 1, pc := fld x.tba 0 16 }

/-! ## Rollback (R42, R375) -/

/-- Restore one shadowed register, or a loop register with its LIX. -/
def Strand.unshadow (x : Strand) : Shadow → Strand
  | .reg d v => x.put d v
  | .loop n r l => { x with loops := Table.set x.loops n r, lix := Table.set x.lix n l }

/-- The results of bundles issued before the restart point land; younger ones are discarded; then the shadows are
restored, the gate's entries are dropped, and the strand goes on at its restart point (R42), where one whose page the host is asked
for waits as for a ticket (R407). -/
def State.finishRollback (s : State) (k : Nat) : State :=
  let s := s.onStrand k (fun x => { x with inflight := x.inflight.filter (fun e => decide (e.epoch < x.epoch)) })
  (s.landAll k).onStrand k (fun x =>
    let x := x.shadows.foldl Strand.unshadow x
    { x with shadows := [], gate := [], rolling := false, redo := true, wasAttached := false
             st := if x.pri.isSome then .waiting else .detached, wait := if x.pri.isSome then some .ticket else none
             pc := x.restartPc, bank := x.restartBank, lastX := x.restartX, ready := 0, readAt := s.cycle + 1 })

/-- ROLLING BACK (R42): the strand leaves its stream and waits for its results, at once if they all can land. -/
def State.rollBack (s : State) (k : Nat) : State :=
  if (s.strand k).doomed then s else
  let s := (((s.endTurnOf k).endResume k).leaveStream k).onStrand k (fun x =>
    { x with st := .trapped, wait := none, moved := none, rolling := true })
  if s.drained k then s.finishRollback k else s

/-! ## Hurdles: what keeps a slot from acting (R26, R372, R387, R388) -/

/-- What a check finds: a fault with its cause and TINFO, a wait, or an access that cannot perform. -/
inductive Hurdle where
  | fault (c : Cause) (info : Nat)
  | wait (w : Wait)
  | miss (m : Miss)
deriving DecidableEq, Repr

/-- The hurdle is a fault. -/
def Hurdle.isFault : Hurdle → Bool
  | .fault _ _ => true
  | _ => false

/-- The first poisoned register of a list, with its cause and TINFO (R374). -/
def Strand.firstPoison (x : Strand) : List Dest → Option Hurdle
  | [] => none
  | d :: t =>
    match x.poison d with
    | some c => some (.fault c d.code)
    | none => x.firstPoison t

/-- A poisoned tile counts as a late source, named with bit 9 set (R229, R374). -/
def State.tilePoison (s : State) (i : Instr) : Option Hurdle :=
  match i.tileRead with
  | none => none
  | some t =>
    if (Table.get (s.core s.myCore).tiles {} t).poison || (s.issue.pre.poison (.tile t)).isSome then
      some (.fault .lateResult (512 + t))
    else none

/-- The use of a port is illegal: it is unbound, bound the other way, or exhausted by the transfers so far
(R276, R399). -/
def State.badPort (s : State) (port : Nat) (push : Bool) (before : Nat) : Bool :=
  if port < 416 then
    match Table.find s.issue.pre.ports (port - 384) with
    | none => true
    | some p => p.write != push || decide (p.counts.foldl (· * ·) 1 ≤ p.used + before)
  else false

/-- The first illegal port use among an instruction's fields. -/
def State.portFault (s : State) (push : Bool) (seen : List Nat) : List Nat → Bool
  | [] => false
  | q :: t => s.badPort q push (seen.filter (· == q)).length || s.portFault push (q :: seen) t

/-- Of two hurdles the fault with the lower code, a fault before any other, and the first before the second (R372). -/
def lowestFault (a b : Option Hurdle) : Option Hurdle :=
  match a, b with
  | some (.fault c x), some (.fault d y) => some (if d.code < c.code then .fault d y else .fault c x)
  | some (.fault c x), _ => some (.fault c x)
  | _, some (.fault d y) => some (.fault d y)
  | none, h => h
  | h, _ => h

/-- The value stage of a slot that reads no poisoned register for it: an illegal port, and what its own checks find once the
scoreboard has released the registers that they read (R276, R387). -/
def State.valueStage (s : State) (i : Instr) (available : Bool) (value : Option Hurdle) : Option Hurdle :=
  let port := if s.portFault false s.issue.pops i.pops || s.portFault true s.issue.pushes i.pushes then
      some (Hurdle.fault .badStreamOrPort i.encode) else none
  lowestFault port (if available then value else none)

/-- The hurdle of a slot: its encoding first; a poisoned register that its checks read; then what the value stage finds, for
which nothing but the registers of its checks is waited; then the scoreboard in interlocked mode; then poison (R372, R387,
R388). -/
def State.slotHurdle (s : State) (i : Instr) (more : List Dest) (value : Option Hurdle) : Option Hurdle :=
  match i.encCause with
  | some c => some (.fault c i.encode)
  | none =>
    let pre := s.issue.pre
    let held (l : List Dest) : Bool := !s.issue.x && l.any pre.pending
    let poison := (pre.firstPoison (i.reads ++ more)).or (s.tilePoison i)
    match pre.firstPoison (i.checks ++ more) with
    | some p => poison.or (some p)
    | none =>
      let found := s.valueStage i (!held (i.checks ++ more)) value
      if found.any Hurdle.isFault then found
      else if held (i.reads ++ more ++ i.writes) then some (.wait .scoreboard)
      else poison.or found

/-! ## Waits of a whole bundle (R26, R35, R36, R148, R264, R273, R297) -/

/-- The filled places before the first one that is still reserved. -/
def filled (l : List Place) : Nat := (l.takeWhile (fun p => p.val.isSome)).length

/-- Variable-latency results of the strand: registers, and mx commands without one (R35, R230). -/
def State.varCount (s : State) (k : Nat) : Nat :=
  ((s.strand k).inflight.filter (fun e => e.source != .fixed && e.source != .mx && !e.landed && !e.ticketed)).length +
  ((s.core (coreOf k)).mxq.foldl (fun n q => n + (q.2.filter (fun m => m.strand == k && !m.orphan && m.i.variable == 1)).length) 0) +
  ((s.core (coreOf k)).mxRun.filter (fun m => m.2.strand == k && !m.2.orphan && m.2.i.variable == 1)).length

/-- Two class masks share a class. -/
def masksMeet (a b : Nat) : Bool := (a &&& b) != 0

/-- A remote access of the strand is not answered yet: neither reply nor ticket. -/
def Ticket.unanswered (t : Ticket) (k : Nat) : Bool := t.strand == k && !t.ticketed

/-- The bound of a command that writes a tile has passed and it has not landed (R37). -/
def MxCmd.late (m : MxCmd) (now : Nat) : Bool :=
  m.exposed && m.i.tileBound && decide (m.issued + latBound m.lat ≤ now)

/-- The tiles of a core that commands past their bounds poison, set at the start of a cycle (R37); commands of strands
that are held have not begun to count (R48). -/
def Core.settleTiles (c : Core) (held : Nat → Bool) (now : Nat) : Core :=
  let late := (c.mxq.flatMap (·.2) ++ c.mxRun.map (·.2)).filter (fun m => !held m.strand && m.late now)
  (late.flatMap (·.tiles)).foldl (fun c t =>
    { c with tiles := Table.set c.tiles t { Table.get c.tiles {} t with poison := true } }) c

/-- A command that stores: OMOM, OADAM or POPT (R231). -/
def MxCmd.stores (m : MxCmd) : Bool :=
  match m.i with
  | .omom _ => true
  | .oadam _ => true
  | .popt _ => true
  | _ => false

/-- The commands of a core whose stores have not performed: they perform when the command lands (R231). -/
def Core.storing (c : Core) : List MxCmd := (c.mxq.flatMap (·.2) ++ c.mxRun.map (·.2)).filter MxCmd.stores

/-- Such a command of the strand is numbered below `n`. -/
def Core.storesBelow (c : Core) (k n : Nat) : Bool := c.storing.any (fun m => m.strand == k && decide (m.num < n))

/-- Stores of the strand's mx commands have not performed (R231). -/
def Core.storesPend (c : Core) (k : Nat) : Bool := c.storing.any (fun m => m.strand == k)

/-- A location lies in an operand of such a command of the strand, so that its store may still change it (R124). -/
def Core.storeMeets (c : Core) (k : Nat) (locs : List Nat) : Bool :=
  c.storing.any (fun m => m.strand == k && m.mem.any (fun l => l.any (fun p =>
    locs.any (fun a => decide (p.loc ≤ a) && decide (a < p.loc + p.len)))))

/-- The INVAL or IINVAL that a multicast carries: its number, its strand and its class. -/
def Note.asked : Note → Option (Nat × Nat × Nat)
  | .caches num strand cls _ _ _ _ => some (num, strand, cls)
  | .reloads num strand cls _ _ => some (num, strand, cls)
  | _ => none

/-- An INVAL or IINVAL is not finished: a rope head reloads for it, or a multicast carries it (R267, R268, R332). -/
def State.reloading (s : State) (num : Nat) : Bool :=
  s.ropes.any (fun r => r.2.reloads.any (fun l => l.num == num)) ||
  s.fab.mcast.any (fun m => m.what.asked.any (fun a => a.1 == num))

/-- The strand has one of a class of a mask that is not finished. -/
def State.invalidating (s : State) (k mask : Nat) : Bool :=
  s.ropes.any (fun r => r.2.reloads.any (fun l => l.strand == k && bitAt mask l.cls)) ||
  s.fab.mcast.any (fun m => m.what.asked.any (fun a => a.2.1 == k && bitAt mask a.2.2))

/-- A link of the strand's die switches its routes for a class of a mask, so new transfers wait (R329, R333). -/
def State.routeSwitches (s : State) (k mask : Nat) : Bool :=
  s.fab.routePairs.any (fun p => bitAt mask p.2 && [0, 1, 2, 3].any (fun d => d != dieOf k && linkOf (dieOf k) d == p.1))

/-- A fence of strand `k` is not complete: a remote access, a reload or an mx store that it orders has not performed, or a store of
its core that a stack or a link holds; a ticketed access has not until its replay has (R129, R140, R264, R420). -/
def State.fenceOpen (s : State) (k : Nat) (f : Fence) : Bool :=
  let c := s.core (coreOf k)
  f.tags.any (fun tag => (Table.find c.tickets tag).isSome || s.reloading tag) || c.storesBelow k f.mx || s.coreQueued (coreOf k)

/-- An access of strand `k` in the classes of a mask is held: by a fence that is not complete, by an IINVAL of its class that
reads its image, by a BELAY that has not performed, or by mx stores that have not (R231, R264, R267, R297). -/
def State.heldOf (s : State) (k : Nat) (x : Strand) (mask stores : Nat) : Bool :=
  let c := s.core (coreOf k)
  x.fences.any (fun f => masksMeet f.mask (if f.storesOnly then stores else mask) && s.fenceOpen k f) ||
  s.invalidating k mask || s.routeSwitches k mask ||
  (x.belay.isSome && mask != 0) ||
  (masksMeet mask 1 && c.storesPend k)

/-- An access of the issuing strand is held. -/
def State.held (s : State) (mask stores : Nat) : Bool := s.heldOf s.issue.strand s.issue.pre mask stores

/-- The register that a result in flight will shadow when it lands. -/
def InFlight.shadows (e : InFlight) (epoch : Nat) : Option Dest :=
  match e.dest with
  | .push _ _ => none
  | .tile _ => none
  | d => if e.dead || e.epoch != epoch then none else some d

/-- The shadow slots in use once a bundle of these instructions has issued at a place: one for each register written since
the restart point or to be written by a result in flight, and one for each loop register changed (R39, R41). -/
def Strand.shadowNeed (x : Strand) (is : List Instr) (pc bank : Nat) : Nat :=
  let fresh (d : Dest) : Bool := !d.fixed && !x.shadows.any (fun h => h.isReg d)
  let regs := ((x.inflight.filterMap (fun e => e.shadows x.epoch) ++ is.flatMap Instr.conflicts).filter fresh).dedup
  let levels := (x.loopsTouched is pc bank).filter (fun n => !x.shadows.any (fun h => h.isLoop n))
  x.shadows.length + regs.length + levels.length

/-- A bundle of these instructions becomes the restart point before it acts: it is marked or irrevocable, or would need a 65th
gate entry or shadow slot (R39 to R41). -/
def State.opens (s : State) (is : List Instr) : Bool :=
  let x := s.me
  s.issue.mark || is.any Instr.irrevocable || decide (64 < x.gate.length + (is.filter Instr.gated).length) ||
  decide (64 < x.shadowNeed is s.issue.pc s.issue.bank)

/-- An access whose bundle releases the gate blocks while a store of the gate would wait for a stack or a link (R26, R40,
R420). -/
def State.gateWaits (s : State) (is : List Instr) : Bool :=
  is.any (fun i => i.accessMask != 0) && s.opens is && s.me.gate.any s.wouldQueue

/-- The first wait that holds a bundle of these instructions. -/
def State.bundleWait (s : State) (is : List Instr) : Option Wait :=
  let k := s.issue.strand
  let x := s.issue.pre
  let pops := is.flatMap Instr.pops
  let pushes := is.flatMap Instr.pushes
  let count (l : List Nat) (q : Nat) : Nat := (l.filter (· == q)).length
  let same (a b : Nat) : Bool := a == b && (decide (b < 432) || b - 432 == posOf k)
  if s.issue.x != x.lastX && !s.drainOver k then some .drain
  else if (s.core s.myCore).tickets.any (fun t => t.2.strand == k && t.2.replaying) then some .ticket
  else if pops.any (fun q => decide (filled (s.places k q false) < count pops q)) then some .portRead
  else if pushes.any (fun q => decide (portRoom q + (pops.filter (fun p => same p q)).length <
      (s.places k q true).length + count pushes q)) then some .engineFull
  else if 64 < s.varCount k + is.foldl (fun n i => n + i.variable) 0 then some .engineFull
  else if is.any (fun i => s.held i.accessMask i.storeMask) then some .engineFull
  else if s.gateWaits is then some .walk
  else none

/-! ## Running one slot -/

/-- The strand has a ticketed access whose replay notice has arrived. -/
def Core.hasReady (c : Core) (k : Nat) : Bool := c.tickets.any (fun t => t.2.strand == k && t.2.ticketed && t.2.ready)

/-- The table sweep (R411): an issue blocked on a full ticket table sends every strand of the core that holds a ready
entry, and is in no handler, to its replay routine before its next bundle. -/
def State.sweep (s : State) (c : Nat) : State :=
  [0, 1, 2, 3].foldl (fun s i =>
    let k := 4 * c + i
    let x := s.strand k
    if (x.st == .attached || x.st == .detached || x.st == .waiting) && x.handler == .none && x.trapping.isNone &&
        !x.rolling && (s.core c).hasReady k then
      s.takeTrap k (x.bank * 2 ^ 16 + x.pc) [{ slot := 4, cause := .ticketPending, info := 3 * 2 ^ 10 }]
    else s) s

/-- The walk that a strand's access needs starts, if a walker is free (R102). -/
def State.walkFor (s : State) (k root page : Nat) : State :=
  s.startWalk k (dieOf k) root page ((s.strand k).handler == .sup)

/-- The page that a wait finds on the move, with the cycle (R120). -/
def Wait.movedAt (w : Wait) (now : Nat) : Option (Nat × Nat × Nat) :=
  match w with
  | .moving root page => some (now, root, page)
  | _ => none

/-- A wait whose order of arrival counts (R259, R295). -/
def Wait.arrives (w : Wait) : Bool := w == .fullEmpty || w == .register

/-- A bundle blocks: nothing of it acts, and the selector will look for another strand (R26, R49). -/
def State.block (s : State) (w : Wait) : State :=
  let s := s.onMe (fun x => { x with
    st := .waiting, wasAttached := x.onStream, wait := some w, tried := some s.cycle
    moved := x.moved.orElse (fun _ => w.movedAt s.cycle)
    registering := if w = .register then x.registering.or (some false) else x.registering
    since := x.since.or (if w.arrives || s.issue.waits.any Wait.arrives then some s.cycle else none) })
  let s := s.onMe (fun x => x.unresume s.cycle)
  match w with
  | .ticketTable => s.sweep s.myCore
  | .walking root page => s.walkFor s.issue.strand root page
  | _ => s

/-- An access that cannot perform: a read of a poisoned sector traps; a page that fails rolls the strand back and leaves
the kill to the firmware; a host-shared miss makes it wait for the host (R105, R400, R406, R415). -/
def State.missed (s : State) (m : Miss) : State :=
  let k := s.issue.strand
  let tba := s.issue.bank * 2 ^ 16 + s.issue.pc
  match m with
  | .poisoned slot info => s.takeTrap k tba [{ slot := slot, cause := .softError, info := info }]
  | .page code addr =>
    ((s.toldFailed k addr).rollBack k).onStrand k (fun x => { x with fw := some (.kill 1 code tba 0 code addr 0) })
  | .hostMiss addr =>
    ((s.block .walk).onStrand k (fun x => { x with pri := some addr })).askPage k (dieOf k) (s.spaceOf k) addr tba

/-- Before a bundle acts: a marked or irrevocable bundle, or one that would need a 65th gate entry or shadow slot,
becomes the restart point once the gate has released (R39 to R41). R40 wants the gate released before an irrevocable bundle
issues and does not say when for one that waits: here it is released as the wait is met, or at the issue (log entry 101). -/
def State.openBundle (s : State) (is : List Instr) : State :=
  (if s.opens is then s.mark else s).onIssue (fun i => { i with sealed_ := is.any Instr.irrevocable })

/-! ## Special registers and the commit (R61, R62, R193) -/

/-- A write to a special register of the strand, narrowed as R392 says; a write to a read-only one is dropped. -/
def Strand.setSpecial (x : Strand) (n v : Nat) : Strand :=
  match n with
  | 0x10 => { x with tvec := fld v 1 16 * 2 }
  | 0x11 => { x with rvec := fld v 1 16 * 2 }
  | 0x12 => { x with tba := fld v 1 16 * 2 }
  | 0x13 => { x with tfm := fld v 0 6 }
  | 0x14 => { x with tcause := fld v 0 48 }
  | 0x15 => { x with tinfo := v }
  | 0x16 => { x with flags := fld v 0 5 }
  | 0x17 => { x with lscale := fld v 0 8 }
  | 0x18 => { x with srseed := w64 v }
  | 0x20 => { x with stkbase := v }
  | 0x21 => { x with stklim := v }
  | 0x23 => { x with stkspill := v }
  | 0x24 => { x with stkmark := v }
  | 0x28 => { x with img := Table.set x.img 0 (fld v 18 39 * 2 ^ 18) }
  | 0x29 => { x with img := Table.set x.img 1 (fld v 18 39 * 2 ^ 18) }
  | _ => x

/-- A buffer-ring entry as a register holds it: its reserved field reads zero (R9, R60). -/
def ringWord (v : Nat) : Word := w64 (fld v 8 56 * 2 ^ 8)

/-- A write to a special register: a scope mask of the gang, a ring of the core, or a register of the strand. -/
def State.setSpecial (s : State) (n v : Nat) : State :=
  if 0x40 ≤ n ∧ n ≤ 0x5F then
    match s.slotOfRope (ropeOf s.issue.strand) with
    | none => s
    | some h => s.onSlot h (fun x => { x with
        gang := x.gang.map (fun g => { g with nsm := Table.set g.nsm (n - 0x40) (w64 v) }) })
  else if 0x60 ≤ n ∧ n ≤ 0x6F then
    s.onCore s.myCore (fun c => { c with rings := Table.set c.rings (n - 0x60) (ringWord v) })
  else s.onMe (fun x => x.setSpecial n v)

/-- What an MTS of the bundle writes takes effect (R62). -/
def State.writeSpecial (s : State) : State :=
  match s.issue.special with
  | some (n, v) => s.setSpecial n v
  | none => s

/-! ## The end of a strand (R190) -/

/-- The commands of strand `k` on the mx paths run on, and only their register results are discarded (R190). -/
def Core.orphan (c : Core) (k : Nat) : Core :=
  let f (m : MxCmd) : MxCmd := if m.strand = k then { m with orphan := true } else m
  { c with mxq := c.mxq.map (fun q => (q.1, q.2.map f)), mxRun := c.mxRun.map (fun m => (m.1, f m.2)) }

/-- A result that goes to a queue and not to a register. -/
def InFlight.toPort (e : InFlight) : Bool :=
  match e.dest with
  | .push _ _ => true
  | _ => false

/-- A strand ends: its register results in flight are discarded, and its stream is left (R49, R50, R190). -/
def State.endStrand (s : State) (k : Nat) : State :=
  let s := (s.leaveStream k).onStrand k (fun x => { x with
    st := .exited, wait := none, freezing := false, inflight := x.inflight.filter InFlight.toPort, trapping := none, rolling := false })
  (s.onCore (coreOf k) (fun c => c.orphan k)).parkIfLeft (ropeOf k) (ctxOf k)

/-- The bundle commits: what an MTS of it writes takes effect, its flags, and those of mx commands that have landed, are
ORed into FLAGS after any MTS; then an EXIT ends the strand, and a TRAP, BKPT or SVC, whose bundle has matched its loop
ends, traps (R62, R183, R190, R193, R230). -/
def State.commit (s : State) : State :=
  let fl := s.issue.flags ||| s.issue.pre.mxFlags
  let s := (s.endResume s.issue.strand).writeSpecial.onMe (fun x =>
    { x with flags := x.flags ||| fl, mxFlags := 0, met := none, redo := false, found := [] })
  let s := s.onIssue (fun i => { i with committed := true, flags := 0, special := none })
  let i := s.issue
  if i.exits then s.endStrand i.strand
  else
    match i.after with
    | none => s
    | some (c, info) =>
      (s.onMe (fun x => if i.pre.handler = .none then (x.closeLoops i.pc i.bank i.succ).1 else x)).takeTrap i.strand
        (i.bank * 2 ^ 16 + i.succ % 2 ^ 16) [{ slot := 0, cause := c, info := info }]

/-- Record what a slot's checks found, and the ports that it uses. -/
def State.note (s : State) (i : Instr) (h : Option Hurdle) : State :=
  s.onIssue (fun x =>
    let x := { x with pops := x.pops ++ i.pops, pushes := x.pushes ++ i.pushes }
    match h with
    | none => x
    | some (.fault c info) => { x with faults := x.faults ++ [{ slot := x.slot, cause := c, info := info }] }
    | some (.wait w) => { x with waits := x.waits ++ [w] }
    | some (.miss m) => { x with misses := x.misses ++ [m] })

/-- Run one slot instruction. In a bundle of several slots the first pass only notes what stands in the way of each
(`probe`) and the second lets each act (`act`); alone in its bundle (`lone`) it traps, waits, rolls back, or acts and
commits. `more` are sources beyond `Instr.reads`; `value` is what its value and wait stages find. -/
def runSlotWith (i : Instr) (more : State → List Dest) (value : State → Option Hurdle) (act : State → State)
    (s : State) : Host.Outcome State Fault Refusal :=
  match s.issue.phase with
  | .act => .next (act s)
  | .probe => .next (s.note i (s.slotHurdle i (more s) (value s)))
  | .lone =>
    match s.slotHurdle i (more s) (value s) with
    | some (.fault c info) =>
      .next (s.takeTrap s.issue.strand (s.issue.bank * 2 ^ 16 + s.issue.pc)
        [{ slot := s.issue.slot, cause := c, info := info }])
    | some (.wait w) => .next (s.block w)
    | some (.miss m) =>
      match s.bundleWait [i] with
      | some w => .next (s.block w)
      | none => .next (s.missed m)
    | none =>
      match s.bundleWait [i] with
      | some w => .next (s.block w)
      | none => .next (act (s.openBundle [i])).commit

/-- Run a slot instruction whose sources are `Instr.reads`. -/
def runSlot (i : Instr) (value : State → Option Hurdle) (act : State → State) (s : State) :
    Host.Outcome State Fault Refusal :=
  runSlotWith i (fun _ => []) value act s

/-- The checks of an instruction that waits: none once its access has performed (R252). -/
def unlessMet (h : State → Option Hurdle) (s : State) : Option Hurdle :=
  if s.issue.pre.met.isSome then none else h s

/-- The access of an instruction that waits, with what it brings: it may have performed when the wait was met (R252). -/
def State.metOr (s : State) (access : State → Nat × State) : Nat × State :=
  match s.issue.pre.met with
  | some v => (v, s)
  | none => access s

/-- No value check beyond the common ones. -/
def free (_ : State) : Option Hurdle := none

end Sys2Proof.Machine
end

