-- ==== Sys2Proof/Machine/Regs.lean ====
section
/-! DEFINITION. Reading the device registers of BAR0 (R9, R321, R322, R310, R311, R328, R335, R343, R348, R362, R365,
R366, R384, R417, R418, R424, R426, R429, R444). Offsets are those of R321; the other halves of a 64-bit register keep
theirs. -/

namespace Sys2Proof.Machine

/-- A bit as a number. -/
def ofBit (b : Bool) : Nat := if b then 1 else 0

/-- The queue is mapped to a slot. -/
def State.mapped (s : State) (q : Nat) : Bool := s.slots.any (fun e => e.2.queue == some q)

/-- The effective priority of a queue now (R313): a mapped queue's is its base priority; a pending one's rises with its
waiting time. With an ageing period of zero the rise is free (log entry 3). -/
def State.eprioNow (s : State) (q : Nat) : Nat :=
  let c := s.queue q
  let waited := s.cyc.toNat - c.wstart
  if s.mapped q then c.bprio
  else if c.pend then min 7 (c.bprio + (if s.sys.agep = 0 then Config.ageByZero waited else waited / s.sys.agep))
  else c.eprio

/-- QCTL (R311). -/
def State.qctl (s : State) (q : Nat) : Nat :=
  let c := s.queue q
  ofBit c.en * 2 ^ 31 + ofBit c.hs * 2 ^ 30 + c.bprio * 2 ^ 27 + s.eprioNow q * 2 ^ 24 + ofBit c.pend * 2 ^ 23 +
  ofBit c.err * 2 ^ 22 + ofBit c.bke * 2 ^ 21 + ofBit c.froz * 2 ^ 20 + q

/-- Word `w` of a queue's control block (R310). -/
def State.queueWord (s : State) (q w : Nat) : Nat :=
  let c := s.queue q
  match w with
  | 0 => c.qbase
  | 1 => c.qsize + c.qhead * 2 ^ 32
  | 2 => c.qtail + s.qctl q * 2 ^ 32
  | 3 => c.lacc
  | 4 => c.ldone
  | 5 => c.crbase
  | 6 => c.crsize + c.pdlv * 2 ^ 32
  | 7 => c.xlat
  | 8 => c.prog
  | 9 => c.plast
  | 10 => c.wdint
  | 11 => c.wstart
  | 12 => c.mapc
  | 13 => c.savea
  | 14 => c.ropes
  | _ => ofBytes ((locsFrom (8 * w) 8).map (Table.get c.fw 0))

/-- A thermal zone. -/
def State.zone (s : State) (z : Nat) : Zone := Table.get s.plat.zones {} z

/-- CRIT of a zone, in units of 0.125 degrees (R366). -/
def critOf (z : Nat) : Nat := if z < 4 then 920 else 840

/-- The register of a zone (R366). -/
def State.zoneWord (s : State) (z : Nat) : Nat :=
  let x := s.zone z
  wrap 16 x.temp * 2 ^ 48 + wrap 16 x.warn * 2 ^ 32 + critOf z * 2 ^ 16 + ofBit x.crs * 2 + ofBit x.wrs

/-- The error counters of a unit (R417). -/
def State.errWord (s : State) (u : Nat) : Nat :=
  let x := Table.get s.plat.errs {} u
  x.ce * 2 ^ 40 + x.ue * 2 ^ 24 + x.rep * 2 ^ 16 + ofBit (x.esc && decide (u < 8)) * 2 +
  ofBit (decide (u < 8) && s.sys.selfRefresh.contains u)

/-- SCRUB of a stack (R418). -/
def State.scrubWord (s : State) (u : Nat) : Nat :=
  let x := Table.get s.plat.errs {} u
  x.per * 2 ^ 32 + x.thr * 2 ^ 24 + x.lines / 16

/-- A station's register (R424). -/
def State.stationWord (s : State) (i : Nat) : Nat :=
  let x := Table.get s.fab.stations {} i
  ofBit x.down * 2 ^ 63 + ofBit x.ret * 2 ^ 62 + x.bkt * 2 ^ 48 + x.rtr * 2 ^ 32 + x.rpl

/-- The words of the fabric block, from its start (R328, R424, R426, R429). -/
def State.fabricWord (s : State) (o : Nat) : Nat :=
  if o = 0 then ofBit s.fab.busy * 2 + s.fab.cur
  else if o = 8 then s.fab.tmo
  else if o = 0x10 then ofBit s.fab.fen * 2 ^ 63 + s.fab.bthr * 2 ^ 32 + s.fab.leak
  else if o = 0x40 then s.fab.fstat0
  else if o = 0x48 then s.fab.fstat1
  else if 0x100 ≤ o ∧ o < 0x1C0 then s.stationWord ((o - 0x100) / 8)
  else if 0x10000 ≤ o ∧ o < 0x14000 then Table.get s.fab.egress 0 ((o - 0x10000) / 8)
  else 0

/-- The words of the platform block (R362, R365, R366, R417, R418). -/
def State.platformWord (s : State) (o : Nat) : Nat :=
  if o = 8 then s.plat.bootSt * 2 ^ 60 + s.plat.bootErr * 2 ^ 56 + (if s.plat.bootSt = 3 then s.plat.bootSvn else 0)
  else if o = 0x100 then s.plat.plim
  else if o = 0x108 then s.plat.pavg * 2 ^ 32 + s.plat.freq * 2 ^ 16 + s.plat.capn
  else if 0x200 ≤ o ∧ o < 0x260 then s.zoneWord ((o - 0x200) / 8)
  else if 0x400 ≤ o ∧ o < 0x5C0 then
    let u := (o - 0x400) / 16
    if o % 16 = 0 then s.errWord u else if u < 8 then s.scrubWord u else 0
  else 0

/-- The words of the group block (R335, R343, R348, R444): PITCHNO reads the committed pitch. -/
def State.groupWord (s : State) (o : Nat) : Nat :=
  if o < 0x10000 then
    let g := s.group (o / 0x1000)
    if o % 0x1000 = 0 then setFld (g.reg 0) 0 48 g.pitch else g.reg (o % 0x1000)
  else
    match o - 0x10000 with
    | 0 => s.cairn.cshare
    | 0x8 => s.cairn.prior * 2 ^ 32 + s.cairn.rwt * 2 ^ 16 + s.cairn.decay
    | 0x10 => s.cairn.m
    | 0x18 => wrap 64 s.cairn.c
    | 0x20 => s.cairn.pace
    | _ => 0

/-- The words below the queue table (R321 to R323): kick registers are write-only. -/
def State.frontWord (s : State) (o : Nat) : Nat :=
  if o < 0x10000 then 0
  else if o < 0x20000 then
    let c := s.queue ((o - 0x10000) / 16)
    if o % 16 = 0 then c.lacc else c.ldone
  else if o = 0x20000 then s.host.evbase
  else if o = 0x20008 then s.host.evsize
  else if o = 0x20010 then s.host.evseq
  else if o = 0x20018 then s.host.evack
  else if 0x30000 ≤ o ∧ o < 0x38000 then fld (Table.get s.host.msix msixReset ((o - 0x30000) / 16)) (8 * (o % 16)) 64
  else if 0x38000 ≤ o ∧ o < 0x38100 then
    (List.range 64).foldl (fun n i => if s.host.msixPend.contains (8 * (o - 0x38000) + i) then n + 2 ^ i else n) 0
  else 0

/-- The words of the device controls (R115, R321, R384; log entry 1 for the places of DEVID, AGEP and the splits). -/
def State.controlWord (s : State) (o : Nat) : Nat :=
  if o = 0 then s.devid
  else if o = 8 then s.sys.agep
  else if 0x100 ≤ o ∧ o < 0x300 then Table.get s.sys.staging 0 ((o - 0x100) / 8)
  else if o = 0x400 then s.host.flogBase
  else if o = 0x408 then s.host.flogSize
  else if o = 0x410 then s.host.flogSeq
  else 0

/-- The 64-bit register at an aligned offset of BAR0 (R321): other offsets read as zero. -/
def State.regRead (s : State) (off : Nat) : Nat :=
  if s.bootHeld ∧ off ≠ 0x2300008 then 0
  else if off < 0x1000000 then s.frontWord off
  else if off < 0x1100000 then s.queueWord ((off - 0x1000000) / 256) (off % 256 / 8)
  else if off < 0x2000000 then 0
  else if off < 0x2100000 then s.controlWord (off - 0x2000000)
  else if off < 0x2200000 then s.fabricWord (off - 0x2100000)
  else if off < 0x2300000 then s.groupWord (off - 0x2200000)
  else if off < 0x2400000 then s.platformWord (off - 0x2300000)
  else 0

/-- A byte of the registers. -/
def State.regByte (s : State) (off : Nat) : Byte := BitVec.ofNat 8 (s.regRead (off / 8 * 8) / 256 ^ (off % 8))

end Sys2Proof.Machine
end

