-- ==== Sys2Proof/Machine/Operands.lean ====
section
/-! DEFINITION. Operand forms: address operands and their judging (R97, R249), what an access reaches (R99 to R105,
R112, R116, R400), loads and stores at issue (log entry 6), scopes (R123, R126 to R128), and tensor addressing
(R106 to R111). -/

namespace Sys2Proof.Machine

/-! ## Address operands (R97, R249) -/

/-- The kind of an address operand. -/
def addrKind (a : Nat) : Nat := fld a 60 4

/-- The effective address of a format-LA access. -/
def State.effective (s : State) (ab : Nat) (off : Int) : Nat := wrap 64 ((s.ra ab : Int) + off)

/-- The scratchpad size in bytes of a core (R67). -/
def State.spmSize (s : State) (c : Nat) : Nat := (s.core c).split * 2 ^ 20

/-- The address breaks its kind: bits that must be zero, or bytes beyond the place it names (R97, R399). A flat access that
begins below 2^57 and runs past it is outside too, which R97 leaves open (log entry 103). -/
def State.outside (s : State) (k a n : Nat) : Bool :=
  match addrKind a with
  | 0x0 => fld a 57 3 != 0 || decide (2 ^ 57 < fld a 0 57 + n)
  | 0x4 => false
  | 0x8 => fld a 23 37 != 0 || decide (s.spmSize (coreOf k) < fld a 0 23 + n)
  | 0x9 => fld a 27 33 != 0 || bitAt a 23 || decide (s.spmSize (coreOf k) < fld a 0 23 + n)
  | 0xA => fld a 32 28 != 0 || bitAt a 23 || decide (s.spmSize (coreOf k) < fld a 0 23 + n)
  | 0xC => fld a 28 32 != 0 || decide (s.stagingSize (fld a 22 6) < fld a 0 22 + n)
  | _ => true

/-- An access of `n` bytes is a bad address: a kind that it does not admit, a misalignment, or a place outside the
memory that the kind names (R249, R399). -/
def State.badAddr (s : State) (k a n align : Nat) (kinds : List Nat) : Bool :=
  !kinds.contains (addrKind a) || a % align != 0 || s.outside k a n

/-- The hurdle of a bad address: cause 0x0D with the effective address. -/
def State.addrHurdle (s : State) (a n align : Nat) (kinds : List Nat) : Option Hurdle :=
  if s.badAddr s.issue.strand a n align kinds then some (.fault .badAddress a) else none

/-! ## What an access reaches -/

/-- The place of one byte of an access: its location; whether L1 may hold it; whether it lies in a shared region whose
token the core holds (R112, R116). -/
structure Piece where
  loc : Nat
  l1 : Bool := false
  held : Bool := false
deriving DecidableEq, Repr

/-- The outcome of locating an access. -/
inductive Reach where
  | ok (l : List Piece)
  | stop (h : Hurdle)
deriving DecidableEq, Repr

/-- Uses of memory that R249 and R400 tell apart. -/
inductive Use where
  /-- an LD or ST of 32 or 64 bits, which device registers admit -/
  | word
  /-- any other load or store -/
  | data
  /-- an atomic: HBM and the low-power tier only -/
  | atomic
deriving DecidableEq, Repr

/-- The shared region that holds a flat address, if the gang lists one (R116, R306; log entry 15). -/
def Gang.regionAt (g : Gang) (va : Nat) : Option TokenRegion :=
  g.desc.regions.find? (fun r => decide (r.base ≤ va) && decide (va < r.base + r.size))

/-- The core holds a token. -/
def State.holdsToken (s : State) (c die tok : Nat) : Bool := Table.find s.tokens (1024 * die + tok) == some c

/-- What an access waits for that finds its page on the move (R120). -/
def State.moveWait (s : State) (k va : Nat) : Wait :=
  match s.spaceOf k with
  | some (.device root) => .moving root (va / 2 ^ 16)
  | _ => .walk

/-- The strand's bundle waits for a page's move, or has waited for it and can now issue (R120). -/
def Strand.waitsMove (x : Strand) (root page : Nat) : Bool :=
  x.moved.any (fun m => m.2 == (root, page)) && (x.st == .attached || x.st == .detached ||
    (x.st == .waiting && (x.wait == some (.moving root page) || x.wait == some (.walking root page))))

/-- A running command of a haul engine has found a page on the move before a cycle (R120). -/
def State.haulWaitsMove (s : State) (root page at_ : Nat) : Bool :=
  s.engines.any (fun e => e.2.run.any (fun h => h.stalledAt.any (fun m => m.2 == (root, page) && decide (m.1 < at_))))

/-- An access that has found its page on the move performs after those that found it so before (R120). -/
def State.behind (s : State) (k va : Nat) : Bool :=
  match (s.strand k).moved, s.spaceOf k with
  | some (at_, root, page), some (.device r) =>
    root == r && page == va / 2 ^ 16 && (s.haulWaitsMove root page at_ || s.strands.any (fun e =>
      e.1 != k && e.2.waitsMove root page && e.2.moved.any (fun m => decide (m.1 < at_) || (m.1 == at_ && decide (e.1 < k)))))
  | _, _ => false

/-- A haul command that has found a page on the move performs after the accesses of strands that found it so on that cycle or
before, and the commands that did before (R120). -/
def State.haulBehind (s : State) (h : Haul) (va : Nat) : Bool :=
  match h.stalledAt, s.spaceOf h.strand with
  | some (at_, root, page), some (.device r) =>
    root == r && page == va / 2 ^ 16 && (s.haulWaitsMove root page at_ || s.strands.any (fun e =>
      e.2.waitsMove root page && e.2.moved.any (fun m => decide (m.1 ≤ at_))))
  | _, _ => false

/-- One page's part of a flat access, `n` bytes from `va`; device registers are reached through MT = 2 alone (R321). -/
def State.flatPart (s : State) (k va n : Nat) (write : Bool) (use : Use) : Reach :=
  let sup := (s.strand k).handler == .sup
  let region := (s.gangOf k).regionAt va
  let mine := region.map (fun r => s.holdsToken (coreOf k) r.die r.tok && r.die == dieOf k)
  if write && mine == some false then .stop (.miss (.page 0x12 va))
  else if (s.walkNeeded k va).isSome then .stop (.wait (.walking ((s.walkNeeded k va).getD 0) (va / 2 ^ 16)))
  else
    match s.translateFor k va write sup with
    | .moving => .stop (.wait (s.moveWait k va))
    | .hostMiss => .stop (.miss (.hostMiss va))
    | .fail code => .stop (.miss (.page code va))
    | .ok pa mt =>
      if s.behind k va then .stop (.wait (s.moveWait k va))
      else if (mt == 2 || isDevReg pa) && (mt != 2 || use != .word) then .stop (.miss (.page 0x0D va))
      else if use == .atomic && !(isHbm pa || isTier pa) then .stop (.miss (.page 0x0D va))
      else if s.cutOff (dieOf k) (homeDie pa) && (write || (Table.find (s.core (coreOf k)).l1 (pa / 64)).isNone) then
        .stop (.wait .engineFull)
      else if s.storeQueued (coreOf k) pa n then .stop (.wait .walk)
      else if s.sleeping pa && (write || (Table.find (s.core (coreOf k)).l1 (pa / 64)).isNone) then .stop (.wait .walk)
      else .ok ((locsFrom pa n).map (fun l =>
        { loc := l, l1 := mt == 0 && isHbm l, held := write && mine == some true }))

/-- The size of a page as a strand's space is translated: 64 KiB, or 4 KiB in a host-shared space (R99, R105). -/
def State.pageSize (s : State) (k : Nat) : Nat :=
  match s.spaceOf k with
  | some (.host _) => 2 ^ 12
  | _ => 2 ^ 16

/-- A flat access of `n` bytes, page by page; it crosses at most one page boundary. -/
def State.flatReach (s : State) (k va n : Nat) (write : Bool) (use : Use) : Reach :=
  let room := s.pageSize k - va % s.pageSize k
  if n ≤ room then s.flatPart k va n write use
  else
    match s.flatPart k va room write use, s.flatPart k (va + room) (n - room) write use with
    | .ok a, .ok b => .ok (a ++ b)
    | .stop h, _ => .stop h
    | _, .stop h => .stop h

/-- The bytes that an address operand names, already judged by `badAddr`; a multicast window names one copy of each
byte for every core of its mask (R97, R136). -/
def State.reach (s : State) (k a n : Nat) (write : Bool) (use : Use) : Reach :=
  match addrKind a with
  | 0x0 => s.flatReach k (fld a 0 57) n write use
  | 0x8 => .ok ((locsFrom (spmLoc (coreOf k) (fld a 0 23)) n).map (fun l => { loc := l }))
  | 0x9 => .ok ((locsFrom (spmLoc (8 * ropeOf k + fld a 24 3) (fld a 0 23)) n).map (fun l => { loc := l }))
  | 0xA => .ok (([0, 1, 2, 3, 4, 5, 6, 7].filter (fun j => bitAt a (24 + j))).flatMap (fun j =>
      (locsFrom (spmLoc (8 * ropeOf k + j) (fld a 0 23)) n).map (fun l => { loc := l })))
  | _ =>
    if s.cutOff (dieOf k) (homeDie (2 ^ 41 + a % 2 ^ 28)) then .stop (.wait .engineFull)
    else .ok ((locsFrom (2 ^ 41 + a % 2 ^ 28) n).map (fun l => { loc := l }))

/-- The kinds of a load and of a store (R249). -/
def loadKinds : List Nat := [0x0, 0x8, 0x9, 0xC]

/-- The kinds of a store. -/
def storeKinds : List Nat := [0x0, 0x8, 0x9, 0xA, 0xC]

/-- A piece lies in a poisoned sector that the core holds no copy of (R414). -/
def State.poisonedPiece (s : State) (c : Nat) (p : Piece) : Bool :=
  decide (p.loc < 2 ^ 48) && s.sys.poison.contains (p.loc / 64) &&
  !(p.l1 && (Table.find (s.core c).l1 (p.loc / 64)).isSome)

/-- A read of a poisoned sector: it waits for the repair of a protected line that can still be repaired, and otherwise
traps with the physical address (R415, R416). -/
def State.poisonHurdle (s : State) (c : Nat) (ps : List Piece) : Option Hurdle :=
  match ps.find? (fun p => s.poisonedPiece c p) with
  | none => none
  | some p =>
    if s.repairable (p.loc / 64) then some (.wait .walk)
    else some (.miss (.poisoned s.issue.slot (6 * 2 ^ 56 + p.loc)))

/-- The hurdle of pieces that have been located: a store of an mx command of the strand to one of them that has not
performed, and for a read poison (R124, R231, R415). -/
def State.piecesHurdle (s : State) (ps : List Piece) (write : Bool) : Option Hurdle :=
  if (s.core s.myCore).storeMeets s.issue.strand (ps.map (·.loc)) then some (.wait .engineFull)
  else if write then none else s.poisonHurdle s.myCore ps

/-- The hurdle of an access: judged, located, in program order for its locations, and for a read free of poison. -/
def State.accessHurdle (s : State) (a n align : Nat) (kinds : List Nat) (write : Bool) (use : Use) : Option Hurdle :=
  match s.addrHurdle a n align kinds with
  | some h => some h
  | none =>
    match s.reach s.issue.strand a n write use with
    | .stop h => some h
    | .ok ps => s.piecesHurdle ps write

/-- The pieces of an access that has no hurdle. -/
def State.pieces (s : State) (a n : Nat) (write : Bool) (use : Use) : List Piece :=
  match s.reach s.issue.strand a n write use with
  | .ok ps => ps
  | .stop _ => []

/-- The core's TLB holds the pages of a flat access (R103). -/
def State.walked (s : State) (a n : Nat) : State :=
  if addrKind a = 0 then
    let k := s.issue.strand
    let va := fld a 0 57
    let s := s.fillFor k va
    if va % 2 ^ 16 + n ≤ 2 ^ 16 then s else s.fillFor k (va + n - 1)
  else s

/-! ## Scopes (R59, R123, R126) -/

/-- The named-scope mask NSMn of a strand's gang, all 256 bits (R51, R59). -/
def State.nsm (s : State) (k n : Nat) : Nat :=
  let t := (s.gangOf k).nsm
  (Table.get t 0 (4 * n)).toNat + (Table.get t 0 (4 * n + 1)).toNat * 2 ^ 64 +
  (Table.get t 0 (4 * n + 2)).toNat * 2 ^ 128 + (Table.get t 0 (4 * n + 3)).toNat * 2 ^ 192

/-- The scope reaches beyond the issuer's core, so its level is the home (R117, R123). -/
def State.wide (s : State) (k sc nm : Nat) : Bool :=
  if sc = 7 then (s.nsm k nm ||| 2 ^ coreOf k) != 2 ^ coreOf k else decide (2 ≤ sc)

/-- The level of R123 that a scope's stores have to reach: 0 the core, 1 the home, 2 the controller. -/
def State.level (s : State) (k sc nm : Nat) : Nat := if sc = 6 then 2 else if s.wide k sc nm then 1 else 0

/-- An acquire at a level drops the core's L1 copies (R123, R128). -/
def State.acquireLevel (s : State) (c level : Nat) : State := if level = 0 then s else s.dropL1 c

/-- A release at a level: Dirty L1 sectors of a core reach their home, and at pod scope Dirty L2 sectors their controller
(R123, R127). -/
def State.releaseLevel (s : State) (c level : Nat) : State :=
  let s := if level = 0 then s else s.cleanCore c
  if level = 2 then s.cleanAllL2 else s

/-- An acquire at a scope drops the issuer's L1 copies (R123, R128). -/
def State.acquire (s : State) (k sc nm : Nat) : State := s.acquireLevel (coreOf k) (s.level k sc nm)

/-- The state after the acquire part of an access, if it is an acquire (R127, R128). -/
def State.acquired (s : State) (at_ : Attr) : State := if at_.ord = 1 then s.acquire s.issue.strand at_.sc at_.nm else s

/-- A release over the classes of a mask makes the strand's remote accesses that it does not wait for part of what the
other strands of its core have observed (R127, R130). -/
def publish (k mask : Nat) (c : Core) : Core :=
  { c with tickets := c.tickets.map (fun t =>
      if t.2.strand == k && bitAt mask t.2.cls then (t.1, { t.2 with published := true }) else t) }

/-- A release or fence over the classes of a mask at a scope (R123, R127). The restart gate has been released before
(R40). -/
def State.releaseAt (s : State) (k mask sc nm : Nat) : State :=
  (s.onCore (coreOf k) (publish k mask)).releaseLevel (coreOf k) (s.level k sc nm)

/-- The release over all classes at core scope that BUFREL and the full/empty operations are (R131, R132). -/
def State.releaseCore (s : State) : State := s.releaseAt s.issue.strand 0xFFFF 1 0

/-- A ticket-table entry of a load or an atomic, which has a value to return. -/
def Ticket.loads (t : Ticket) : Bool :=
  match t.i with
  | .rst _ => false
  | _ => true

/-- A release waits for the strand's earlier remote accesses of its classes, those that return a value alone when its
scope lies within the core, and beyond the core also for those of the core's other strands that a release has made
visible (R123, R127, R130, R138; log entry 16); and for the core's stores that a stack or a link holds (R420). -/
def State.releaseWait (s : State) (mask : Nat) (wide : Bool) : Option Hurdle :=
  let k := s.issue.strand
  if s.coreQueued s.myCore || (s.core s.myCore).tickets.any (fun t =>
      (t.2.strand == k && bitAt mask t.2.cls && (wide || t.2.loads)) || (wide && t.2.strand != k && t.2.published)) then
    some (.wait .engineFull)
  else none

/-- A release over a class with an unreplayed ticket traps (R140, R374: reason 1, the classes in [31:16]). -/
def State.ticketFault (s : State) (mask : Nat) : Option Hurdle :=
  let cls := (s.core s.myCore).tickets.foldl (fun m t =>
    if t.2.strand == s.issue.strand && t.2.ticketed && bitAt mask t.2.cls then m ||| 2 ^ t.2.cls else m) 0
  if cls = 0 then none else some (.fault .ticketPending (1 * 2 ^ 10 + cls * 2 ^ 16))

/-- What a release access or fence over a class mask meets. -/
def State.releaseHurdle (s : State) (mask sc nm : Nat) : Option Hurdle :=
  (s.ticketFault mask).or (s.releaseWait mask (s.wide s.issue.strand sc nm))

/-- The remote accesses of the strand that hold the fork of a command or stream at pod scope: those of its class that are
not answered; at a narrower scope none do (R133, R135). -/
def State.podFork (s : State) (at_ : Attr) : List Nat :=
  if at_.sc = 6 then
    ((s.core s.myCore).tickets.filter (fun e => e.2.strand = s.issue.strand ∧ e.2.cls = at_.cls)).map (·.1)
  else []

/-- Accesses of a strand are answered: their entries are gone (R133). -/
def State.forkOver (s : State) (k : Nat) (tags : List Nat) : Bool :=
  tags.all (fun tag => (Table.find (s.core (coreOf k)).tickets tag).isNone)

/-! ## Loads and stores at issue -/

/-- The byte of a location that the gate holds, from its youngest store (R39). -/
def gateByte (g : List Store) (l : Nat) : Option Byte :=
  (g.reverse.findSome? (fun x => (x.cells.reverse.find? (fun c => c.1 = l)).map (·.2)))

/-- Byte `i` of a sector's value. -/
def sectorByte (v : Sector) (i : Nat) : Byte := v.extractLsb' (8 * i) 8

/-- The byte that a load of strand `k` returns: from its gate, from its L1 copy, or from the home (R39, R117). -/
def State.loadByte (s : State) (k : Nat) (p : Piece) : Byte :=
  match gateByte (s.strand k).gate p.loc with
  | some b => b
  | none =>
    match (if p.l1 then Table.find (s.core (coreOf k)).l1 (p.loc / 64) else none) with
    | some v => sectorByte v (p.loc % 64)
    | none => if isDevReg p.loc then s.regByte (p.loc - 0xF00000000000) else s.byte p.loc

/-- The sectors of the pieces that L1 may hold, without repeats. -/
def l1Sectors (ps : List Piece) : List Nat := ((ps.filter (·.l1)).map (fun p => p.loc / 64)).eraseDups

/-- What a load leaves in the caches: its sectors in L1, or with ev = 7 dropped at every level (R112, R118). -/
def State.touch (s : State) (k ev : Nat) (ps : List Piece) : State :=
  (l1Sectors ps).foldl (fun s sec =>
    if ev = 7 then s.lastRead (coreOf k) sec else s.fillL1 (coreOf k) sec ev) s

/-- A plain or acquire load of `n` bytes: the number read, and the state after it. -/
def State.loadNum (s : State) (a n : Nat) (use : Use) (at_ : Attr) : Nat × State :=
  let k := s.issue.strand
  let s := s.acquired at_
  let ps := s.pieces a n false use
  let v := ofBytes (ps.map (s.loadByte k))
  (v, (s.walked a n).touch k at_.ev ps)

/-- The store that writes these pieces with these bytes. -/
def storeOf (c : Nat) (ps : List Piece) (bs : List Byte) : Store :=
  { core := c
    cells := (ps.map (·.loc)).zip bs
    cached := (l1Sectors (ps.filter (fun p => !p.held)))
    held := (l1Sectors (ps.filter (·.held))) }

/-- The bytes of a store repeated for every copy that a multicast window names. -/
def copies (a : Nat) (bs : List Byte) : List Byte :=
  if addrKind a = 0xA then
    (([0, 1, 2, 3, 4, 5, 6, 7].filter (fun j => bitAt a (24 + j))).map (fun _ => bs)).flatten
  else bs

/-- The restart gate takes a store (R39); one of release kind first brings its strand's earlier stores to its scope
(R127). -/
def State.holdStore (s : State) (x : Store) (at_ : Attr) : State :=
  let s := if at_.ord = 2 then s.releaseAt s.issue.strand (2 ^ at_.cls) at_.sc at_.nm else s
  s.onMe (fun y => { y with gate := y.gate ++ [{ x with ev := at_.ev }] })

/-- A store of a number of `n` bytes. -/
def State.storeNum (s : State) (a n v : Nat) (use : Use) (at_ : Attr) : State :=
  let ps := s.pieces a n true use
  (s.walked a n).holdStore (storeOf s.myCore ps (copies a (toBytes n v))) at_

/-- The hurdles of a release store, before those of its access. -/
def State.storeHurdle (s : State) (at_ : Attr) (rest : Option Hurdle) : Option Hurdle :=
  match rest with
  | some h => if h.isFault then some h else (if at_.ord = 2 then s.releaseHurdle (2 ^ at_.cls) at_.sc at_.nm else none).or (some h)
  | none => if at_.ord = 2 then s.releaseHurdle (2 ^ at_.cls) at_.sc at_.nm else none

/-! ## Tables that hardware reads (R106, R111, R280) -/

/-- The number of `n` bytes at a flat address as the layout unit reads it, through the home; the address need not be a multiple
of eight (R106; log entry 126). -/
def State.tableNum (s : State) (k va n : Nat) : Option Nat :=
  match s.flatReach k va n false .data with
  | .ok ps => if ps.any (fun p => s.sys.poison.contains (p.loc / 64)) then none
              else some (ofBytes (ps.map (fun p => s.byte p.loc)))
  | .stop _ => none

/-- Why that read stops. -/
def State.tableHurdle (s : State) (k va n : Nat) : Hurdle :=
  match s.flatReach k va n false .data with
  | .stop h => h
  | .ok _ => .miss (.page 0x18 va)

/-- A tensor-table entry (R106, R107). -/
structure Tensor where
  fmt : Nat
  z : Bool
  t : Bool
  tr : Nat
  tc : Nat
  nd : Nat
  tiles : Nat
  ext : List Nat
  /-- the layout word -/
  word : Nat
deriving DecidableEq, Repr

/-- Read an entry from its 32 bytes: an absent dimension has extent 1. TILES is kept as it stands, whatever its low three bits and
those above bit 56 hold (R106; log entry 126). -/
def tensorOf (v : Nat) : Tensor :=
  let nd := fld v 29 3
  { fmt := fld v 0 5, z := bitAt v 6, t := bitAt v 7, tr := fld v 8 4, tc := fld v 12 4, nd := nd
    tiles := fld v 64 64
    ext := [0, 1, 2, 3, 4].map (fun i => if i < nd then fld v (128 + 24 * i) 24 else 1)
    word := fld v 0 64 }

/-- A layout word is valid for an element access: the list of R107, no block format, extents at least 1 (R106). -/
def Tensor.valid (x : Tensor) : Bool :=
  decide (1 ≤ x.nd) && decide (x.nd ≤ 5) && decide (x.fmt ≤ 16) &&
  decide (2 ^ (x.tr + x.tc) * fmtWidth x.fmt ≤ 2 ^ 19) && (!x.z || (x.tr == x.tc && decide (2 ≤ x.tr))) &&
  (x.nd != 1 || x.tr == 0) &&
  (x.ext.take x.nd).all (fun e => decide (1 ≤ e))

/-- Bit-interleave two numbers of up to 16 bits: bit 2i is bit i of v, bit 2i + 1 bit i of u (R109). -/
def interleave (u v : Nat) : Nat :=
  (List.range 16).foldl (fun n i => n + (v / 2 ^ i % 2) * 4 ^ i + (u / 2 ^ i % 2) * 2 * 4 ^ i) 0

/-- The coordinates after the exchange of T. -/
def Tensor.swap (x : Tensor) (c : List Nat) : List Nat :=
  match x.t, c with
  | true, a :: b :: r => b :: a :: r
  | _, c => c

/-- The coordinates lie within the extents, those of absent dimensions being 0 (R106, R109). -/
def Tensor.inBounds (x : Tensor) (c : List Nat) : Bool :=
  ((x.swap c).zip x.ext).all (fun e => decide (e.1 < e.2))

/-- The tile number of an element and its index in the tile (R109). -/
def Tensor.place (x : Tensor) (c : List Nat) : Nat × Nat :=
  let xs := x.swap c
  let at_ (i : Nat) : Nat := (xs[i]?).getD 0
  let e (i : Nat) : Nat := x.ext[i]?.getD 1
  let a := at_ 0
  let b := at_ 1
  let nc := cdiv (e 0) (2 ^ x.tc)
  let nr := cdiv (e 1) (2 ^ x.tr)
  let tile := a / 2 ^ x.tc + nc * (b / 2 ^ x.tr + nr * (at_ 2 + e 2 * (at_ 3 + e 3 * at_ 4)))
  let ci := a % 2 ^ x.tc
  let ri := b % 2 ^ x.tr
  let idx := if x.z then interleave (ri / 4) (ci / 4) * 16 + ri % 4 * 4 + ci % 4 else ri * 2 ^ x.tc + ci
  (tile, idx)

/-- The tile-table entry at a flat address: a layout unit's cached one, or that of memory (R111). -/
def State.tileEntry (s : State) (k va : Nat) : Option Nat :=
  match (s.core (coreOf k)).tileTable.find? (fun e => e.1 = va) with
  | some e => some e.2
  | none => s.tableNum k va 8

/-- The layout unit keeps up to 64 entries of a core (R111). Which one goes when another is read, the spec leaves open: here the
newest stay (log entry 125). -/
def State.cacheTile (s : State) (k va entry : Nat) : State :=
  if (s.core (coreOf k)).tileTable.any (fun e => e.1 = va) then s
  else s.onCore (coreOf k) (fun c => { c with tileTable := ((va, entry) :: c.tileTable).take 64 })

end Sys2Proof.Machine
end

