-- ==== Sys2Proof/Machine/Fetch.lean ====
section
/-! DEFINITION. Fetching: the rope head's copies, index words, loop ends, rope streams, the private fetch port, lead
outcomes and joins (chapters 02, 07, 08), with the meanings of the bundles and steps that belong to fetching. -/

namespace Sys2Proof.Machine

/-- A step of another party: it happens when its condition holds, and otherwise changes nothing (log entry 4). -/
@[inline] def happens (c : Bool) (s t : State) : Host.Outcome State Fault Refusal := .next (if c then t else s)

/-! ## The copy (R70, R167, R168, R268) -/

/-- The place of an image offset in a rope head's copy. -/
def copyAt (bank off : Nat) : Nat := bank * 2 ^ 18 + off

/-- Image offset of the index word at a program counter. -/
def wordOff (pc : Nat) : Nat := 0x30000 + pc

/-- `n` bytes of a rope's copy as a number. -/
def State.copyNum (s : State) (r bank off n : Nat) : Nat :=
  ofBytes ((locsFrom (copyAt bank off) n).map (fun i => Table.get (s.rope r).copy 0 i))

/-- The index word at a program counter. -/
def State.indexWord (s : State) (r bank pc : Nat) : Nat := s.copyNum r bank (wordOff pc) 2

/-- The successor of the bundle at a program counter (R168, R175). -/
def State.succOf (s : State) (r bank pc : Nat) : Nat := if s.indexWord r bank pc = 0xFFFF then pc + 50 else pc + 2

/-- What a bad mark on an entry or word delivers (R268, R415). -/
def badMark (m : Nat × Nat) : Delivered :=
  if m.1 = 1 then .trap .unresolvedTranslation m.2 else .trap .softError (6 * 2 ^ 56 + m.2)

/-- The bad mark of an image offset, or what is delivered where there is none. -/
def State.unlessBad (s : State) (r bank : Nat) (offs : List Nat) (d : Delivered) : Delivered :=
  match offs.findSome? (fun o => Table.find (s.rope r).bad (copyAt bank o)) with
  | some m => badMark m
  | none => d

/-- What the index word at a program counter delivers (R167, R168). -/
def State.deliver (s : State) (r bank pc : Nat) : Delivered :=
  if 2 ^ 16 ≤ pc then .trap .fetchOverrun 0
  else
    s.unlessBad r bank [wordOff pc]
      (match decodeIndexWord (s.indexWord r bank pc) with
      | .hold => .hold
      | .unassigned w => .trap .unassignedIndexWord w
      | .entry n => s.unlessBad r bank [48 * n] (.bits (s.copyNum r bank (48 * n) 48))
      | .escape =>
        if 2 ^ 16 < pc + 50 then .trap .fetchOverrun 0
        else s.unlessBad r bank ((List.range 24).map (fun j => wordOff (pc + 2 + 2 * j)))
          (.bits (s.copyNum r bank (wordOff (pc + 2)) 48)))

/-- The bundle at a program counter, with the 24 literal words of an escape; it can issue from a cycle on. -/
def State.fetch (s : State) (r bank pc at_ : Nat) : Fetched :=
  { pc := pc, bank := bank, succ := s.succOf r bank pc, what := s.deliver r bank pc, at_ := at_ }

/-- The word at a program counter is an escape that takes its 24 literal words with it (R168): it is neither marked bad
nor too near the end. -/
def State.escapes (s : State) (r bank pc : Nat) : Bool :=
  s.indexWord r bank pc == 0xFFFF && decide (pc + 50 ≤ 2 ^ 16) &&
  (Table.find (s.rope r).bad (copyAt bank (wordOff pc))).isNone

/-! ## Rope streams (R23, R24, R28, R50) -/

/-- The loop registers in order, for the key of a join (R184). -/
def Strand.loopKey (x : Strand) : Table LoopReg := [0, 1, 2, 3, 4, 5].map (fun n => (n, Table.get x.loops {} n))

/-- Stream `c` of rope `r`. -/
def State.stream (s : State) (r c : Nat) : Stream := Table.get (s.rope r).streams {} c

/-- Replace a stream. -/
def State.setStream (s : State) (r c : Nat) (t : Stream) : State :=
  s.onRope r (fun y => { y with streams := Table.set y.streams c t })

/-- The ctl instruction of a delivered bundle. -/
def Delivered.ctl (d : Delivered) : Option Instr :=
  match d with
  | .bits w =>
    if bitAt w 0 then
      match decodeSlot .ctl (slotBits w 0) with
      | .ok i => some i
      | .error _ => none
    else none
  | _ => none

/-- The DLY of a delivered bundle (R25, R169). -/
def Delivered.dly (d : Delivered) : Nat :=
  match d with
  | .bits w => (headerOf w).dly
  | _ => 0

/-- The bundle holds a YPOINT. -/
def Delivered.isYpoint (d : Delivered) : Bool :=
  match d.ctl with
  | some .ypoint => true
  | _ => false

/-- The stream goes on after the word at its program counter, through a loop end of its copy (R183). -/
def Stream.advance (t : Stream) (succ : Nat) : Stream :=
  let (l, back) := matchEnds (t.pc / 2) t.bank levelsDown t.loops
  let t := { t with loops := l, st := .streaming }
  match back with
  | none => { t with pc := succ }
  | some n => { t with pc := 2 * (Table.get l {} n).start }

/-- The stream after delivering a bundle (R28, R33, R50). -/
def Stream.after (t : Stream) (f : Fetched) : Stream :=
  match f.what.ctl with
  | some (.jmp g) => { t with st := .streaming, pc := 2 * g.word }
  | some (.call g) => { t with st := .streaming, pc := 2 * g.word }
  | some (.bswap g) => { t with st := .streaming, bank := 1 - t.bank, pc := 2 * g.word }
  | some (.br _) => { t with st := .resolving }
  | some (.jmpr _) => { t with st := .resolving }
  | some (.callr _) => { t with st := .resolving }
  | some (.ret _) => { t with st := .resolving }
  | some (.loop _) => { t with st := .pausing }
  | some .ifence => { t with st := .pausing }
  | some .ypoint => { t with st := .pausing }
  | some (.join _) => { t with st := .joining }
  | _ => t.advance f.succ

/-- Give a bundle to a strand's queue. -/
def Strand.enqueue (x : Strand) (f : Fetched) : Strand := { x with queue := x.queue ++ [f] }

/-- The bundle is a direct transfer, whose target is read a cycle later than a successor (R28, R176). -/
def Delivered.direct (d : Delivered) : Bool :=
  match d.ctl with
  | some (.jmp _) => true
  | some (.call _) => true
  | some (.bswap _) => true
  | _ => false

/-- The bundle is a transfer that depends on data, a LOOP, an IFENCE or a YPOINT: what follows is read on the cycle after
its issue at the earliest (R28, R176). -/
def Delivered.pauses (d : Delivered) : Bool :=
  match d.ctl with
  | some (.br _) => true
  | some (.jmpr _) => true
  | some (.callr _) => true
  | some (.ret _) => true
  | some .rtt => true
  | some (.loop _) => true
  | some .ifence => true
  | some .ypoint => true
  | _ => false

/-- One read at a stream's place, of an index word or of a literal word of an escape: the stream after it, and the bundle
that it delivers, if it delivers one, to issue from a cycle on (R23, R31, R168). -/
def State.readWord (s : State) (r : Nat) (t : Stream) (at_ : Nat) : Stream × Option Fetched :=
  if t.lits = 0 then
    if s.escapes r t.bank t.pc then ({ t with st := .streaming, lits := 24, bits := 0, bad := none }, none)
    else
      let f := s.fetch r t.bank t.pc at_
      (t.after f, some f)
  else
    let j := 24 - t.lits
    let off := wordOff (t.pc + 2 + 2 * j)
    let bits := t.bits + s.copyNum r t.bank off 2 * 2 ^ (16 * j)
    let bad := t.bad.or (Table.find (s.rope r).bad (copyAt t.bank off))
    if t.lits = 1 then
      let f : Fetched := { pc := t.pc, bank := t.bank, succ := t.pc + 50, at_ := at_
                           what := (bad.map badMark).getD (.bits bits) }
      (({ t with lits := 0, bits := 0, bad := none } : Stream).after f, some f)
    else ({ t with st := .streaming, lits := t.lits - 1, bits := bits, bad := bad }, none)

/-- The entries of a strand's queue at the start of the cycle: a bundle that has issued on this cycle frees its entry
on the next (R24). `lastIssue` is one more than the cycle of the last issue. -/
def Strand.queueLoad (x : Strand) (now : Nat) : Nat := x.queue.length + (if x.lastIssue = now + 1 then 1 else 0)

/-- A rope stream can make a read on this cycle (R23, R24, R28, R47). -/
def State.streamReads (s : State) (r c : Nat) : Bool :=
  let t := s.stream r c
  (t.st == .streaming || t.st == .stalled) && !(s.rope r).stopped && decide (t.readAt ≤ s.cycle)

/-- A queue of the strands attached to a stream is full (R24). -/
def State.streamFull (s : State) (r c : Nat) : Bool :=
  (s.positions r c Strand.onStream).any (fun p => decide (32 ≤ (s.strand (strandAt r c p)).queueLoad s.cycle))

/-- One read of a rope stream: with a full queue among its attached strands it stalls, but not within an escape; a bundle
reaches every attached strand and can issue three cycles after its last word is read (R23, R24). -/
def State.streamStep (s : State) (r c : Nat) : State :=
  let t := s.stream r c
  if !s.streamReads r c then s
  else if t.lits = 0 && s.streamFull r c then s.setStream r c { t with st := .stalled }
  else
    let (u, f) := s.readWord r t (s.cycle + 3)
    let give (s : State) (p : Nat) : State := match f with
      | some f => s.onStrand (strandAt r c p) (fun x => x.enqueue f)
      | none => s
    ((s.positions r c Strand.onStream).foldl give s).setStream r c
      { u with readAt := s.cycle + (if f.any (·.what.direct) then 2 else 1) }

/-! ## The private fetch port (R31, R187) -/

/-- Where the private port reads next for a strand: at its own program counter, or on from what it has read. While a
handler runs, no loop end is matched (R192). -/
def Strand.portPlace (x : Strand) : Stream :=
  x.port.getD { st := .streaming, pc := x.pc, bank := x.bank, loops := if x.handler = .none then x.loops else [] }

/-- A strand that runs by itself asks the port for a word: what it has been given has issued, its next read is due, and the
reloads that its last IFENCE waits for have ended (R31, R176, R187). That it reads no further ahead, even while its bundle
blocks, is how R31's bound on the issue of its bundles holds (log entry 132). -/
def State.portAsks (s : State) (k : Nat) : Bool :=
  let x := s.strand k
  let r := s.rope (ropeOf k)
  (x.st == .detached || (x.st == .waiting && !x.wasAttached)) && !x.freezing &&
  x.portPlace.st == .streaming && x.queue.isEmpty && !r.stopped &&
  decide (r.portAt ≤ s.cycle) && decide (x.readAt ≤ s.cycle) && x.fw.isNone && x.trapping.isNone && !x.rolling &&
  !x.reloadWait.any (fun n => r.reloads.any (fun l => l.num = n))

/-- The strands of a rope that run by themselves (R31). -/
def State.detachedOf (s : State) (r : Nat) : Nat :=
  ((List.range 32).filter (fun i =>
    let x := s.strand (32 * r + i)
    x.st == .detached || (x.st == .waiting && !x.wasAttached))).length

/-- The first cycle of the next read for a strand that has issued a bundle by itself: its next bundle issues no earlier than
`n` cycles after this one, where `n` strands of its rope run by themselves, and never on the cycle after it (R31). -/
def Strand.nextRead (x : Strand) (pre : Strand) (n now : Nat) : Nat :=
  if pre.onStream then x.readAt else max x.readAt (now + n - 2)

/-- A strand waits for its own issue of what it has been given: nothing is read behind it (R176). -/
def Stream.behind (t : Stream) (f : Fetched) : Stream := if f.what.pauses then { t with st := .resolving } else t

/-- The port grants a strand the read of one word: of an index word, or of a literal word of an escape. The bundle can
issue two cycles after its last word is read. -/
def State.privateStep (s : State) (k : Nat) : State :=
  if s.portAsks k then
    let (u, f) := s.readWord (ropeOf k) (s.strand k).portPlace (s.cycle + 2)
    (s.onStrand k (fun x => { x with
      port := some (f.elim u u.behind), queue := x.queue ++ f.toList, readAt := s.cycle + 2
      reloadWait := [] })).onRope (ropeOf k) (fun y => { y with granted := k, portAt := s.cycle + 1 })
  else s

/-- The next strand of a rope that the port grants, round-robin after the one that it granted last. -/
def State.portNext (s : State) (r : Nat) : Option Nat :=
  ((List.range 32).map (fun i => 32 * r + ((s.rope r).granted + 1 + i) % 32)).find? s.portAsks

/-! ## Outcomes (R28, R29, R187, R188) -/

/-- The outcomes make a strand leave its stream: the taken direction, the target or the trip count differs (R29). -/
def StreamOutcome.differs (a b : StreamOutcome) : Bool :=
  match a, b with
  | .branch x _, .branch y _ => x != y
  | .jump x, .jump y => x != y
  | .loop x _ _ _, .loop y _ _ _ => x != y
  | _, _ => false

/-- FREEZING one strand (R46, R47): it remembers whether it was attached. -/
def Strand.freeze (x : Strand) : Strand :=
  { x with st := .frozen, wasAttached := x.onStream || (x.st == .joining && x.wasAttached), queue := [],
           port := none, readAt := 0, expect := [], wait := none, freezing := false,
           inflight := x.inflight.filter (fun e => !e.landed) }

/-- CYC `n` cycles from now, at the present clock (R7, R365). -/
def State.cycIn (s : State) (n : Nat) : Nat := s.cyc.toNat + (s.cycRest + 2500 * n) / max 1 s.plat.freq

/-- A YPOINT or YIELD stops the strand: it issues nothing more, and freezes once it has drained. The cycle after this one
is its freeze cycle (R46, R188, R189, R290; log entry 24). -/
def State.stopStrand (s : State) (k : Nat) : State :=
  s.onStrand k (fun x => { x with freezing := true, expect := [], outcome := none, frozenCyc := s.cycIn 1 })

/-- A strand freezes: its gate releases, and its next bundle is a restart point (R41, R46, R47). -/
def State.freezeStrand (s : State) (k : Nat) : State :=
  (s.releaseGate k).onStrand k (fun x => x.freeze.restartAt x.pc x.bank x.lastX)

/-- A stopped strand has drained, and freezes (R46). -/
def State.stopEnds (s : State) (k : Nat) : Bool := (s.strand k).freezing && s.drainOver k

/-- Compare a strand's own outcome with the lead's: a mismatch detaches it, and a YPOINT with YREQ set freezes it. -/
def State.reconcile (s : State) (k : Nat) (lead own : StreamOutcome) : State :=
  if lead.differs own then s.leaveStream k
  else
    match lead with
    | .ypoint true => s.stopStrand k
    | _ => s

/-- Strand `k` has issued: compare its outcome with the lead's if that is already known (R29). -/
def State.meetExpected (s : State) (k : Nat) : State :=
  let x := s.strand k
  match x.expect, x.outcome with
  | o :: rest, some own =>
    (s.onStrand k (fun x => { x with expect := rest, outcome := none })).reconcile k o own
  | _, _ => s

/-- The lead's outcome reaches a strand that has not left the stream. One that has frozen in front of the transfer will
not be at the stream's place when it resumes (R48). -/
def State.tellOutcome (s : State) (k : Nat) (o : StreamOutcome) : State :=
  match (s.strand k).outcome, (s.strand k).st with
  | some own, .frozen =>
    let s := s.onStrand k (fun x => { x with outcome := none })
    if o.differs own then s.leaveStream k else s
  | some own, _ => (s.onStrand k (fun x => { x with outcome := none })).reconcile k o own
  | none, .frozen => s
  | none, _ => s.onStrand k (fun x => { x with expect := x.expect ++ [o] })

/-- Where the stream reads once an outcome has arrived. -/
def State.streamAfter (s : State) (r : Nat) (t : Stream) (o : StreamOutcome) : Stream :=
  let succ := s.succOf r t.bank t.pc
  match o with
  | .branch true next => { t with st := .streaming, pc := next }
  | .branch false _ => t.advance succ
  | .jump v => { t with st := .streaming, bank := v / 2 ^ 16, pc := v % 2 ^ 16 }
  | .loop _ lv l next => { t with st := .streaming, loops := Table.set t.loops lv l, pc := next }
  | .ifence => t.advance succ
  | .ypoint false => t.advance succ
  | .ypoint true => { t with yielding := true }

/-- The lead's outcome can reach the rope head: for an IFENCE, the reloads that it waits for have ended. -/
def State.outcomeReady (s : State) (r : Nat) (x : Strand) : Option StreamOutcome :=
  match x.outcome with
  | some .ifence =>
    if x.reloadWait.any (fun n => (s.rope r).reloads.any (fun l => l.num = n)) then none else some .ifence
  | o => o

/-- The outcome that a waiting stream can take, with the lead's position. -/
def State.leadReady (s : State) (r c : Nat) : Option (Nat × StreamOutcome) :=
  let t := s.stream r c
  if (t.st = .resolving ∨ t.st = .pausing) ∧ t.yielding = false then
    match s.leadOf r c with
    | none => none
    | some p => (s.outcomeReady r (s.strand (strandAt r c p))).map (fun o => (p, o))
  else none

/-- The lead's outcome reaches the rope head (R28, R29, R50). -/
def State.leadStep (s : State) (r c : Nat) : State :=
  match s.leadReady r c with
  | none => s
  | some (_, o) =>
    let t := s.stream r c
    let ps := s.positions r c Strand.belongs
    ps.foldl (fun s p => s.tellOutcome (strandAt r c p) o)
      (s.setStream r c { s.streamAfter r t o with readAt := s.cycle + 1 })

/-! ## Joins (R32, R33, R184) -/

/-- A pending join is complete: every member has arrived, or is Exited or Idle, and every strand still attached has
arrived (R32). -/
def State.joinReady (s : State) (r c : Nat) (j : Join) : Bool :=
  let ended (x : Strand) : Bool := x.st == .exited || x.st == .idle
  !(s.rope r).stopped && j.members.all (fun p => j.arrived.contains p || ended (s.strand (strandAt r c p))) &&
  (s.positions r c Strand.belongs).all (fun p => j.arrived.contains p)

/-- A join completes: every waiting strand is attached and the stream reads the word after the JOIN. -/
def State.completeJoin (s : State) (r c : Nat) (j : Join) : State :=
  let t := s.stream r c
  let t : Stream := ({ t with bank := j.bank, pc := j.pc, loops := j.loops, join := none, readAt := s.cycle + 1, lits := 0 } : Stream).advance j.succ
  let arrived := j.arrived.filter (fun p => decide ((s.strand (strandAt r c p)).st = .joining))
  arrived.foldl (fun s p => s.onStrand (strandAt r c p) (fun x =>
    { x with st := .attached, wasAttached := false, wait := none, bank := j.bank, queue := [], port := none })) (s.setStream r c t)

/-- A strand arrives at a JOIN whose key matches, or opens one (R32). -/
def State.arrive (s : State) (k mask : Nat) (j : Join) : State :=
  let r := ropeOf k
  let c := ctxOf k
  let p := posOf k
  let t := s.stream r c
  let named := [0, 1, 2, 3, 4, 5, 6, 7].filter (fun i => bitAt mask i)
  let j : Join := match t.join with
    | none => { j with members := p :: named, arrived := [p] }
    | some q => { q with members := p :: q.members, arrived := p :: q.arrived }
  (s.setStream r c { t with join := some j }).onStrand k (fun x =>
    { x with st := .joining, wasAttached := x.onStream, wait := some .join, queue := [], port := none })

/-! ## Meanings -/

/-- HOLD_BUNDLE, R25, R169: occupies its strand's issue for one cycle. -/
def execHoldBundle (s : State) : Host.Outcome State Fault Refusal :=
  match s.bundleWait [] with
  | some w => .next (s.block w)
  | none => .next (s.openBundle []).commit

/-- EMPTY_BUNDLE, R144: a bundle with SV = 0 issues with only its header's effects. -/
def execEmptyBundle (s : State) : Host.Outcome State Fault Refusal :=
  match s.bundleWait [] with
  | some w => .next (s.block w)
  | none => .next (s.openBundle []).commit

/-- STREAM_READ, R23, R24: the stream reads an index word and delivers its bundle. -/
def execStreamRead (rope slot : Nat) (s : State) : Host.Outcome State Fault Refusal := .next (s.streamStep rope slot)

/-- PRIVATE_FETCH_READ, R31, R187: the port grants the strand whose turn it is. -/
def execPrivateFetchRead (strand : Nat) (s : State) : Host.Outcome State Fault Refusal :=
  .next (if s.portNext (ropeOf strand) = some strand then s.privateStep strand else s)

/-- LEAD_OUTCOME, R28, R29, R50, R187, R188. -/
def execLeadOutcome (rope slot : Nat) (s : State) : Host.Outcome State Fault Refusal := .next (s.leadStep rope slot)

/-- JOIN_COMPLETE, R32, R33. -/
def execJoinComplete (rope slot : Nat) (s : State) : Host.Outcome State Fault Refusal :=
  match (s.stream rope slot).join with
  | none => .next s
  | some j => happens (s.joinReady rope slot j) s (s.completeJoin rope slot j)

end Sys2Proof.Machine
end

