-- ==== Sys2Proof/Machine/Control.lean ====
section
/-! DEFINITION. The ctl slot: transfers, loops, leaving and rejoining the stream, pauses, freezing, exit, and the traps
that a program raises (chapter 08, R175 to R194; R300, R404). -/

namespace Sys2Proof.Machine

/-! ## Shared operations -/

/-- The issuing bundle transfers control to a bank and a program counter (R175, R183). -/
def State.jump (s : State) (bank pc : Nat) : State :=
  (s.onMe (fun x => { x with bank := bank, pc := pc })).onIssue (fun i => { i with transfer := true })

/-- The return value of the issuing bundle (R175). -/
def State.returnValue (s : State) : Nat := s.issue.bank * 2 ^ 16 + s.issue.succ % 2 ^ 16

/-- An attached strand records its outcome for the comparison with the lead's (R28, R29). -/
def State.outcome (s : State) (o : StreamOutcome) : State :=
  s.onMe (fun x => if x.onStream then { x with outcome := some o } else x)

/-- The hurdle of a target in R63 format (R179, R194, R395). -/
def badTarget (v : Nat) : Option Hurdle :=
  if v / 2 ^ 17 ≠ 0 ∨ v % 2 ≠ 0 then some (.fault .badTarget v) else none

/-- Take an indirect target: the bank selector follows bit 16 (R179). -/
def State.jumpTo (s : State) (v : Nat) : State := (s.outcome (.jump (v % 2 ^ 17))).jump (fld v 16 1) (fld v 0 16)

/-- The bundle traps once it has committed (R193). -/
def State.trapAfter (s : State) (c : Cause) (imm : Nat) : State :=
  s.onIssue (fun i => { i with after := some (c, imm) })

/-! ## Transfers -/

/-- NOP, R191. -/
def execNop (s : State) : Host.Outcome State Fault Refusal := runSlot .nop free (fun s => s) s

/-- BR, R177. -/
def execBr (f : CB) (s : State) : Host.Outcome State Fault Refusal :=
  runSlot (.br f) free (fun s =>
    if branchTaken f.cc (s.rs f.ss) then
      (s.outcome (.branch true (2 * f.word))).jump s.issue.bank (2 * f.word)
    else s.outcome (.branch false s.issue.succ)) s

/-- JMP, R178. -/
def execJmp (f : CT) (s : State) : Host.Outcome State Fault Refusal :=
  runSlot (.jmp f) free (fun s => s.jump s.issue.bank (2 * f.word)) s

/-- JMPR, R179. -/
def execJmpr (f : CR) (s : State) : Host.Outcome State Fault Refusal :=
  runSlot (.jmpr f) (fun s => badTarget (s.ra f.tgt)) (fun s => s.jumpTo (s.ra f.tgt)) s

/-- CALL, R178. -/
def execCall (f : CL) (s : State) : Host.Outcome State Fault Refusal :=
  runSlot (.call f) free (fun s =>
    (s.result (.a f.lk) s.returnValue 1).jump s.issue.bank (2 * f.word)) s

/-- CALLR, R179. -/
def execCallr (f : CR) (s : State) : Host.Outcome State Fault Refusal :=
  runSlot (.callr f) (fun s => badTarget (s.ra f.tgt)) (fun s =>
    (s.result (.a f.lk) s.returnValue 1).jumpTo (s.ra f.tgt)) s

/-- RET, R179. -/
def execRet (f : CR) (s : State) : Host.Outcome State Fault Refusal :=
  runSlot (.ret f) (fun s => badTarget (s.ra f.tgt)) (fun s => s.jumpTo (s.ra f.tgt)) s

/-- BSWAP, R180: the target lies in the other bank. -/
def execBswap (f : CT) (s : State) : Host.Outcome State Fault Refusal :=
  runSlot (.bswap f) free (fun s => s.jump (1 - s.issue.bank) (2 * f.word)) s

/-! ## Loops -/

/-- The kind of a level in the kernel's loop table: 0 absent, 1 T, 2 C, 3 D (R43, R306). -/
def Gang.levelKind (g : Gang) (n : Nat) : Nat := ((g.desc.loop[n]?).map (·.1)).getD 0

/-- LOOP's checks (R182, R395). -/
def loopHurdle (f : CP) (s : State) : Option Hurdle :=
  let t := s.rs f.ss
  let kind := (s.gangOf s.issue.strand).levelKind f.lv
  if 2 ^ 32 ≤ t ∨ f.last ≤ s.issue.pc / 2 ∨ 2 ≤ kind ∨ s.issue.pre.handler ≠ .none then some (.fault .badLoop t)
  else none

/-- The loop register that LOOP writes. -/
def loopReg (f : CP) (s : State) : LoopReg :=
  let t := s.rs f.ss
  { act := decide (0 < t), bank := s.issue.bank, start := s.issue.succ / 2, last := f.last, left := t }

/-- Where LOOP goes on: into the body, or past its end for a trip count of zero. -/
def loopNext (f : CP) (s : State) : Nat :=
  if s.rs f.ss = 0 then s.succOf (ropeOf s.issue.strand) s.issue.bank (2 * f.last) else s.issue.succ

/-- LOOP, R182: its bundle matches no loop end. -/
def execLoop (f : CP) (s : State) : Host.Outcome State Fault Refusal :=
  runSlot (.loop f) (loopHurdle f) (fun s =>
    let s := s.outcome (.loop (s.rs f.ss) f.lv (loopReg f s) (loopNext f s))
    (s.onMe (fun x =>
      let x := x.keepLoop f.lv
      { x with loops := Table.set x.loops f.lv (loopReg f s), lix := Table.set x.lix f.lv 0 })).jump
        s.issue.bank (loopNext f s)) s

/-! ## Leaving and rejoining the stream -/

/-- The key of a JOIN that the issuing strand makes (R32, R184). -/
def State.joinKey (s : State) : Join :=
  { pc := s.issue.pc, bank := s.issue.bank, succ := s.issue.succ, loops := s.issue.pre.loopKey, members := [],
    arrived := [] }

/-- JOIN's checks: a handler state, or a key that differs from the pending one (R32, R184, R186, R395). -/
def joinHurdle (f : CJ) (s : State) : Option Hurdle :=
  if s.issue.pre.handler ≠ .none then some (.fault .badUse (Instr.encode (.join f)))
  else
    match (s.stream (ropeOf s.issue.strand) (ctxOf s.issue.strand)).join with
    | none => none
    | some j =>
      let k := s.joinKey
      if j.pc = k.pc ∧ j.bank = k.bank ∧ j.loops = k.loops then none
      else some (.fault .joinMismatch (j.bank * 2 ^ 16 + j.pc))

/-- JOIN, R186, R32: the strand waits for the join to complete. -/
def execJoin (f : CJ) (s : State) : Host.Outcome State Fault Refusal :=
  runSlot (.join f) (joinHurdle f) (fun s => s.arrive s.issue.strand f.mask s.joinKey) s

/-- DETACH, R185. -/
def execDetach (s : State) : Host.Outcome State Fault Refusal :=
  runSlot .detach free (fun s => if s.me.onStream then s.leaveStream s.issue.strand else s) s

/-- The reloads of a rope head that are under way. -/
def Rope.pendingReloads (r : Rope) : List Nat := r.reloads.map (·.num)

/-- IFENCE, R187: what follows is fetched once the reloads started before its issue have ended. -/
def execIfence (s : State) : Host.Outcome State Fault Refusal :=
  runSlot .ifence free (fun s =>
    let l := (s.rope (ropeOf s.issue.strand)).pendingReloads
    (s.onMe (fun x => { x with reloadWait := l })).outcome .ifence) s

/-- YPOINT, R188: an attached strand follows its lead's outcome, and a detached one its own YREQ. -/
def execYpoint (s : State) : Host.Outcome State Fault Refusal :=
  runSlot .ypoint free (fun s =>
    if s.me.onStream then s.outcome (.ypoint s.issue.pre.yreq)
    else if s.issue.pre.yreq then s.stopStrand s.issue.strand else s) s

/-- YIELD, R189: stops the strand, which freezes once drained, and asks the scheduler to pre-empt the gang. -/
def execYield (s : State) : Host.Outcome State Fault Refusal :=
  runSlot .yield free (fun s =>
    let s := s.stopStrand s.issue.strand
    match s.slotOfRope (ropeOf s.issue.strand) with
    | none => s
    | some h => s.onSlot h (fun x => { x with gang := x.gang.map (fun g => { g with byYield := true }) })) s

/-- A strand that holds a ticketed entry in its core's ticket table (R411). -/
def State.ticketsOpen (s : State) (k : Nat) : Bool :=
  (s.core (coreOf k)).tickets.any (fun t => t.2.strand == k && t.2.ticketed)

/-- EXIT's check: it does not commit while its strand has a ticketed entry (R374, R411). -/
def exitHurdle (s : State) : Option Hurdle :=
  if s.ticketsOpen s.issue.strand then some (.fault .ticketPending (2 * 2 ^ 10)) else none

/-- EXIT, R190: its strand ends as the bundle commits. -/
def execExit (s : State) : Host.Outcome State Fault Refusal :=
  runSlot .exit exitHurdle (fun s => s.onIssue (fun i => { i with exits := true })) s

/-! ## Timing and traps -/

/-- HOLD, R191: the next bundle issues no earlier than n + 1 cycles later. -/
def execHold (f : CI) (s : State) : Host.Outcome State Fault Refusal :=
  runSlot (.hold f) free (fun s => s.onMe (fun x => { x with ready := s.cycle + f.imm + 1 })) s

/-- TRAP, R193. -/
def execTrap (f : CI) (s : State) : Host.Outcome State Fault Refusal :=
  runSlot (.trap f) free (fun s => s.trapAfter .programTrap f.imm) s

/-- RTT's checks (R194, R395). -/
def rttHurdle (s : State) : Option Hurdle :=
  if s.issue.pre.handler = .none then some (.fault .badUse (Instr.encode .rtt)) else badTarget s.issue.pre.tba

/-- RTT, R194: the strand stays detached and goes on at TBA as it stood before the bundle. -/
def execRtt (s : State) : Host.Outcome State Fault Refusal :=
  runSlot .rtt rttHurdle (fun s =>
    let r := s.issue.pre.returnFromTrap
    (s.onMe (fun x => { x with handler := r.handler })).jump r.bank r.pc) s

/-- Breakpoints are enabled for the strand's context: QCTL.BKE (R193, R458). -/
def State.breakpoints (s : State) (k : Nat) : Bool :=
  match s.queueOf k with
  | none => false
  | some q => (s.queue q).bke

/-- BKPT, R193: a NOP while the context's breakpoint enable is clear. -/
def execBkpt (f : CI) (s : State) : Host.Outcome State Fault Refusal :=
  runSlot (.bkpt f) free (fun s =>
    if s.breakpoints s.issue.strand then s.trapAfter .breakpoint f.imm else s) s

/-- SVC 0, R193, R300: the service itself is the firmware's step (log entry 11). -/
def execSvcNull (s : State) : Host.Outcome State Fault Refusal :=
  runSlot .svcNull free (fun s => s.trapAfter .serviceCall 0) s

/-- SVC 1, R193, R300. -/
def execSvcEvent (s : State) : Host.Outcome State Fault Refusal :=
  runSlot .svcEvent free (fun s => s.trapAfter .serviceCall 1) s

/-- SVC 2, R193, R300. -/
def execSvcAbort (s : State) : Host.Outcome State Fault Refusal :=
  runSlot .svcAbort free (fun s => s.trapAfter .serviceCall 2) s

/-- SVC 3, R193, R300. -/
def execSvcReside (s : State) : Host.Outcome State Fault Refusal :=
  runSlot .svcReside free (fun s => s.trapAfter .serviceCall 3) s

/-- SVC 4, R193, R300. -/
def execSvcGroupinfo (s : State) : Host.Outcome State Fault Refusal :=
  runSlot .svcGroupinfo free (fun s => s.trapAfter .serviceCall 4) s

/-- SVC with an unassigned number, R193, R404. -/
def execSvcUnassigned (f : CI) (s : State) : Host.Outcome State Fault Refusal :=
  runSlot (.svcUnassigned f) free (fun s => s.trapAfter .serviceCall f.imm) s

end Sys2Proof.Machine
end

