-- ==== Sys2Proof/Machine/Scalar.lean ====
section
/-! DEFINITION. The alu slot: scalar and address arithmetic and the special registers (R61 to R66, R195 to R200,
R392, R393). -/

namespace Sys2Proof.Machine

/-! ## Shared operations -/

/-- Run an alu instruction: its result, modulo 2^64, reaches a register after a fixed latency (R195). -/
def runAlu (i : Instr) (d : Dest) (lat : Nat) (v : State → Nat) (s : State) : Host.Outcome State Fault Refusal :=
  runSlot i free (fun s => s.result d (v s % 2 ^ 64) lat) s

/-- The signed value of a scalar operand. -/
def State.rsInt (s : State) (n : Nat) : Int := sgn 64 (s.rs n)

/-- The shift count of an operand (R196). -/
def shiftCount (b : Nat) : Nat := b % 64

/-- Signed division that rounds toward zero, with R197's corners: quotient and remainder. -/
def divSigned (a b : Int) : Int × Int :=
  if b = 0 then (-1, a)
  else if a = -(2 ^ 63) ∧ b = -1 then (-(2 ^ 63), 0)
  else (Int.tdiv a b, Int.tmod a b)

/-- Unsigned division with R197's corner. -/
def divUnsigned (a b : Nat) : Nat × Nat := if b = 0 then (2 ^ 64 - 1, a) else (a / b, a % b)

/-- Leading zero bits of the low `n` bits. -/
def leadingZeros (v : Nat) : Nat → Nat
  | 0 => 0
  | n + 1 => if bitAt v n then 0 else 1 + leadingZeros v n

/-- Trailing zero bits of `n` bits from bit `i` up. -/
def trailingZeros (v : Nat) : Nat → Nat → Nat
  | _, 0 => 0
  | i, n + 1 => if bitAt v i then 0 else 1 + trailingZeros v (i + 1) n

/-- Set bits among the low `n`. -/
def countOnes (v : Nat) : Nat → Nat
  | 0 => 0
  | n + 1 => (if bitAt v n then 1 else 0) + countOnes v n

/-- The low `n` bits in reverse order. -/
def reverseBits (v : Nat) : Nat → Nat
  | 0 => 0
  | n + 1 => (if bitAt v 0 then 2 ^ n else 0) + reverseBits (v / 2) n

/-- CMP's conditions (R156, R196). -/
def compareScalar (cc a b : Nat) : Bool :=
  match cc with
  | 0 => a == b
  | 1 => a != b
  | 2 => decide (sgn 64 a < sgn 64 b)
  | 3 => decide (sgn 64 b ≤ sgn 64 a)
  | 4 => decide (a < b)
  | _ => decide (b ≤ a)

/-! ## Arithmetic -/

/-- ADD, R196. -/
def execAdd (f : AR) (s : State) : Host.Outcome State Fault Refusal :=
  runAlu (.add f) (.s f.d) 1 (fun s => s.rs f.a + s.rs f.b) s

/-- ADDI, R196. -/
def execAddi (f : AI) (s : State) : Host.Outcome State Fault Refusal :=
  runAlu (.addi f) (.s f.d) 1 (fun s => wrap 64 ((s.rs f.a : Int) + f.imm)) s

/-- SUB, R196. -/
def execSub (f : AR) (s : State) : Host.Outcome State Fault Refusal :=
  runAlu (.sub f) (.s f.d) 1 (fun s => wrap 64 ((s.rs f.a : Int) - (s.rs f.b : Int))) s

/-- MUL, R196. -/
def execMul (f : AR) (s : State) : Host.Outcome State Fault Refusal :=
  runAlu (.mul f) (.s f.d) 3 (fun s => s.rs f.a * s.rs f.b) s

/-- MULH, R196. -/
def execMulh (f : AR) (s : State) : Host.Outcome State Fault Refusal :=
  runAlu (.mulh f) (.s f.d) 3 (fun s => wrap 128 (s.rsInt f.a * s.rsInt f.b) / 2 ^ 64) s

/-- MULHN, R196. -/
def execMulhn (f : AR) (s : State) : Host.Outcome State Fault Refusal :=
  runAlu (.mulhn f) (.s f.d) 3 (fun s => s.rs f.a * s.rs f.b / 2 ^ 64) s

/-- DIV, R197. -/
def execDiv (f : AR) (s : State) : Host.Outcome State Fault Refusal :=
  runAlu (.div f) (.s f.d) 18 (fun s => wrap 64 (divSigned (s.rsInt f.a) (s.rsInt f.b)).1) s

/-- DIVN, R197. -/
def execDivn (f : AR) (s : State) : Host.Outcome State Fault Refusal :=
  runAlu (.divn f) (.s f.d) 18 (fun s => (divUnsigned (s.rs f.a) (s.rs f.b)).1) s

/-- REM, R197. -/
def execRem (f : AR) (s : State) : Host.Outcome State Fault Refusal :=
  runAlu (.rem f) (.s f.d) 18 (fun s => wrap 64 (divSigned (s.rsInt f.a) (s.rsInt f.b)).2) s

/-- REMN, R197. -/
def execRemn (f : AR) (s : State) : Host.Outcome State Fault Refusal :=
  runAlu (.remn f) (.s f.d) 18 (fun s => (divUnsigned (s.rs f.a) (s.rs f.b)).2) s

/-- AND, R196. -/
def execAnd (f : AR) (s : State) : Host.Outcome State Fault Refusal :=
  runAlu (.and f) (.s f.d) 1 (fun s => s.rs f.a &&& s.rs f.b) s

/-- OR, R196. -/
def execOr (f : AR) (s : State) : Host.Outcome State Fault Refusal :=
  runAlu (.or f) (.s f.d) 1 (fun s => s.rs f.a ||| s.rs f.b) s

/-- XOR, R196. -/
def execXor (f : AR) (s : State) : Host.Outcome State Fault Refusal :=
  runAlu (.xor f) (.s f.d) 1 (fun s => s.rs f.a ^^^ s.rs f.b) s

/-- ANDN, R196. -/
def execAndn (f : AR) (s : State) : Host.Outcome State Fault Refusal :=
  runAlu (.andn f) (.s f.d) 1 (fun s => s.rs f.a &&& (2 ^ 64 - 1 - s.rs f.b)) s

/-- SHL, R196. -/
def execShl (f : AR) (s : State) : Host.Outcome State Fault Refusal :=
  runAlu (.shl f) (.s f.d) 1 (fun s => s.rs f.a * 2 ^ shiftCount (s.rs f.b)) s

/-- SHR, R196. -/
def execShr (f : AR) (s : State) : Host.Outcome State Fault Refusal :=
  runAlu (.shr f) (.s f.d) 1 (fun s => s.rs f.a / 2 ^ shiftCount (s.rs f.b)) s

/-- SAR, R196. -/
def execSar (f : AR) (s : State) : Host.Outcome State Fault Refusal :=
  runAlu (.sar f) (.s f.d) 1 (fun s => wrap 64 (s.rsInt f.a / ((2 ^ shiftCount (s.rs f.b) : Nat) : Int))) s

/-- ROL, R196. -/
def execRol (f : AR) (s : State) : Host.Outcome State Fault Refusal :=
  runAlu (.rol f) (.s f.d) 1 (fun s =>
    let n := shiftCount (s.rs f.b)
    s.rs f.a * 2 ^ n % 2 ^ 64 + s.rs f.a / 2 ^ (64 - n)) s

/-- MIN, R196. -/
def execMin (f : AR) (s : State) : Host.Outcome State Fault Refusal :=
  runAlu (.min f) (.s f.d) 1 (fun s => if s.rsInt f.b < s.rsInt f.a then s.rs f.b else s.rs f.a) s

/-- MAX, R196. -/
def execMax (f : AR) (s : State) : Host.Outcome State Fault Refusal :=
  runAlu (.max f) (.s f.d) 1 (fun s => if s.rsInt f.a < s.rsInt f.b then s.rs f.b else s.rs f.a) s

/-- MINN, R196. -/
def execMinn (f : AR) (s : State) : Host.Outcome State Fault Refusal :=
  runAlu (.minn f) (.s f.d) 1 (fun s => Nat.min (s.rs f.a) (s.rs f.b)) s

/-- MAXN, R196. -/
def execMaxn (f : AR) (s : State) : Host.Outcome State Fault Refusal :=
  runAlu (.maxn f) (.s f.d) 1 (fun s => Nat.max (s.rs f.a) (s.rs f.b)) s

/-- CMP, R196. -/
def execCmp (f : AR) (s : State) : Host.Outcome State Fault Refusal :=
  runAlu (.cmp f) (.s f.d) 1 (fun s => if compareScalar f.f (s.rs f.a) (s.rs f.b) then 1 else 0) s

/-- SEL, R196. -/
def execSel (f : AR) (s : State) : Host.Outcome State Fault Refusal :=
  runAlu (.sel f) (.s f.d) 1 (fun s => if s.rs f.c ≠ 0 then s.rs f.a else s.rs f.b) s

/-- MOV, R196. -/
def execMov (f : AR) (s : State) : Host.Outcome State Fault Refusal :=
  runAlu (.mov f) (.s f.d) 1 (fun s => s.rs f.a) s

/-- MOVI, R196. -/
def execMovi (f : AM) (s : State) : Host.Outcome State Fault Refusal :=
  runAlu (.movi f) (.s f.d) 1 (fun _ => wrap 64 (sgn 32 f.imm)) s

/-- MOVHI, R196. -/
def execMovhi (f : AM) (s : State) : Host.Outcome State Fault Refusal :=
  runAlu (.movhi f) (.s f.d) 1 (fun s => f.imm * 2 ^ 32 + s.rs f.d % 2 ^ 32) s

/-- CLZ, R196. -/
def execClz (f : AR) (s : State) : Host.Outcome State Fault Refusal :=
  runAlu (.clz f) (.s f.d) 1 (fun s => leadingZeros (s.rs f.a) 64) s

/-- CTZ, R196. -/
def execCtz (f : AR) (s : State) : Host.Outcome State Fault Refusal :=
  runAlu (.ctz f) (.s f.d) 1 (fun s => trailingZeros (s.rs f.a) 0 64) s

/-- POPC, R196. -/
def execPopc (f : AR) (s : State) : Host.Outcome State Fault Refusal :=
  runAlu (.popc f) (.s f.d) 1 (fun s => countOnes (s.rs f.a) 64) s

/-- BREV, R196. -/
def execBrev (f : AR) (s : State) : Host.Outcome State Fault Refusal :=
  runAlu (.brev f) (.s f.d) 1 (fun s => reverseBits (s.rs f.a) 64) s

/-- BEXT, R198. -/
def execBext (f : AB) (s : State) : Host.Outcome State Fault Refusal :=
  runAlu (.bext f) (.s f.d) 1 (fun s => fld (s.rs f.a) f.pos (f.len + 1)) s

/-- BINS, R198. -/
def execBins (f : AB) (s : State) : Host.Outcome State Fault Refusal :=
  runAlu (.bins f) (.s f.d) 1 (fun s => setFld (s.rs f.d) f.pos (f.len + 1) (s.rs f.a)) s

/-! ## Addresses -/

/-- LEA, R199. -/
def execLea (f : AR) (s : State) : Host.Outcome State Fault Refusal :=
  runAlu (.lea f) (.a f.d) 1 (fun s => s.ra f.a + s.rs f.b * 2 ^ f.f) s

/-- ADDA, R199. -/
def execAdda (f : AR) (s : State) : Host.Outcome State Fault Refusal :=
  runAlu (.adda f) (.a f.d) 1 (fun s => s.ra f.a + s.rs f.b) s

/-- MOVA to an address register, R199. -/
def execMovaToAddress (f : AR) (s : State) : Host.Outcome State Fault Refusal :=
  runAlu (.movaToAddress f) (.a f.d) 1 (fun s => s.rs f.a) s

/-- MOVA to a scalar, R199. -/
def execMovaToScalar (f : AR) (s : State) : Host.Outcome State Fault Refusal :=
  runAlu (.movaToScalar f) (.s f.d) 1 (fun s => s.ra f.a) s

/-! ## Special registers (R61 to R66) -/

/-- The coding group of a context: that of its regions, or else an enabled group that is granted to it (R295, R335,
R347). -/
def State.groupOfQueue (s : State) (q : Nat) : Option Nat :=
  match s.cairn.regions.find? (fun r => r.queue = q) with
  | some r => some r.grp
  | none => (List.range 16).find? (fun g =>
      (s.group g).enabled && bitAt ((s.group g).reg 0x18) 63 && fld ((s.group g).reg 0x18) 0 12 == q)

/-- The group of a strand's context. -/
def State.groupOfStrand (s : State) (k : Nat) : Option Nat := (s.queueOf k).bind (fun q => s.groupOfQueue q)

/-- PITCHNO as a strand reads it (R347). -/
def State.pitchNo (s : State) (k : Nat) : Nat :=
  match s.groupOfStrand k with
  | some g => (s.group g).pitch
  | none => 0

/-- STKTOP (R245): the window may be empty, and then STKBASE is read. -/
def Strand.stkTop (x : Strand) : Nat := x.stkbase + x.depth % (x.stklim - x.stkbase)

/-- A special register as it stands (R61); LSCALE is sign-extended (R66). -/
def State.special (s : State) (k : Nat) (x : Strand) (n : Nat) : Nat :=
  if 0x08 ≤ n ∧ n ≤ 0x0D then Table.get x.lix 0 (n - 0x08)
  else if 0x40 ≤ n ∧ n ≤ 0x5F then (Table.get (s.gangOf k).nsm 0 (n - 0x40)).toNat
  else if 0x60 ≤ n ∧ n ≤ 0x6F then (Table.get (s.core (coreOf k)).rings 0 (n - 0x60)).toNat
  else
    match n with
    | 0x00 => s.cyc.toNat
    | 0x01 => ctxOf k
    | 0x02 => coreOf k
    | 0x03 => ropeOf k
    | 0x04 => dieOf k
    | 0x05 => s.devid
    | 0x06 => (s.core (coreOf k)).split
    | 0x10 => x.tvec
    | 0x11 => x.rvec
    | 0x12 => x.tba
    | 0x13 => x.tfm
    | 0x14 => x.tcause
    | 0x15 => x.tinfo
    | 0x16 => x.flags
    | 0x17 => wrap 64 (sgn 8 x.lscale)
    | 0x18 => x.srseed.toNat
    | 0x19 => if x.yreq then 1 else 0
    | 0x1A => x.pdl
    | 0x1B => s.pitchNo k
    | 0x1C => s.cairn.pace
    | 0x20 => x.stkbase
    | 0x21 => x.stklim
    | 0x22 => x.stkTop
    | 0x23 => x.stkspill
    | 0x24 => x.stkmark
    | 0x28 => Table.get x.img 0 0
    | 0x29 => Table.get x.img 0 1
    | _ => 0

/-- Registers that only supervisor state may write (R61). -/
def isSupReg (n : Nat) : Bool := n == 0x10 || n == 0x28 || n == 0x29

/-- MFS, R200. -/
def execMfs (f : AS) (s : State) : Host.Outcome State Fault Refusal :=
  runAlu (.mfs f) (.s f.s) 1 (fun s => s.special s.issue.strand s.issue.pre f.reg) s

/-- MTS's checks: privilege (R61), and stack registers while the stack holds an entry (R393). -/
def mtsHurdle (f : AS) (s : State) : Option Hurdle :=
  if isSupReg f.reg && s.issue.pre.handler != .sup then some (.fault .privilege f.reg)
  else if (f.reg == 0x20 || f.reg == 0x21 || f.reg == 0x23) && !s.issue.pre.sizes.isEmpty then
    some (.fault .badUse (Instr.encode (.mts f)))
  else none

/-- MTS, R200: takes effect when its bundle commits. -/
def execMts (f : AS) (s : State) : Host.Outcome State Fault Refusal :=
  runSlot (.mts f) (mtsHurdle f) (fun s =>
    s.onIssue (fun i => { i with special := some (f.reg, s.rs f.s) })) s

/-- RDCYC, R200. -/
def execRdcyc (f : AR) (s : State) : Host.Outcome State Fault Refusal :=
  runAlu (.rdcyc f) (.s f.d) 1 (fun s => s.cyc.toNat) s

end Sys2Proof.Machine
end

