-- ==== Sys2Proof/Machine/Access.lean ====
section
/-! DEFINITION. The mem slot, local accesses: scalar, vector, gather, scatter and tensor accesses, tagged words, and
atomics (R249 to R260, R399, R400). -/

namespace Sys2Proof.Machine

/-! ## Shared operations -/

/-- The first fault of a list of checks, or else the first thing that stands in the way. -/
def firstHurdle (l : List (Option Hurdle)) : Option Hurdle :=
  match l.findSome? (fun h => h.bind (fun x => if x.isFault then some x else none)) with
  | some h => some h
  | none => l.findSome? id

/-- An acquire or release access's checks that come before its own (R127, R140). -/
def State.ordered (s : State) (at_ : Attr) (rest : Option Hurdle) : Option Hurdle :=
  if at_.ord = 2 ∨ at_.ord = 3 then firstHurdle [rest, s.releaseHurdle (2 ^ at_.cls) at_.sc at_.nm] else rest

/-- Extend a loaded number of `n` bytes: i formats by sign, n formats by zero (R254). -/
def extendTo64 (fmt n v : Nat) : Nat := if fmt < 12 then wrap 64 (sgn (8 * n) v) else v

/-- How device registers see an access of `n` bytes: only 32 and 64 bits reach them (R249). -/
def useOf (n : Nat) : Use := if n = 4 ∨ n = 8 then .word else .data

/-- Bytes of an LD or ST format. -/
def fmtBytes (fmt : Nat) : Nat := fmtWidth fmt / 8

/-! ## Scalar and vector accesses -/

/-- LD's check. Like that of every load, it judges what the access finds after its acquire, which has dropped the L1 copies. -/
def ldHurdle (f : LA) (s : State) : Option Hurdle :=
  let n := fmtBytes f.fmt
  (s.acquired f.at_).accessHurdle (s.effective f.ab f.off) n n loadKinds false (useOf n)

/-- LD, R254. -/
def execLd (f : LA) (s : State) : Host.Outcome State Fault Refusal :=
  runSlot (.ld f) (ldHurdle f) (fun s =>
    let n := fmtBytes f.fmt
    let (v, s) := s.loadNum (s.effective f.ab f.off) n (useOf n) f.at_
    s.later (.s f.d) (some (extendTo64 f.fmt n v)) .memory f.at_.lat 0) s

/-- ST's check. -/
def stHurdle (f : LA) (s : State) : Option Hurdle :=
  let n := fmtBytes f.fmt
  s.storeHurdle f.at_ (s.accessHurdle (s.effective f.ab f.off) n n storeKinds true (useOf n))

/-- ST, R254. -/
def execSt (f : LA) (s : State) : Host.Outcome State Fault Refusal :=
  runSlot (.st f) (stHurdle f) (fun s =>
    let n := fmtBytes f.fmt
    s.storeNum (s.effective f.ab f.off) n (s.rs f.d % 256 ^ n) (useOf n) f.at_) s

/-- VLD's check. -/
def vldHurdle (f : LA) (s : State) : Option Hurdle :=
  (s.acquired f.at_).accessHurdle (s.effective f.ab f.off) 128 16 loadKinds false .data

/-- VLD, R255. -/
def execVld (f : LA) (s : State) : Host.Outcome State Fault Refusal :=
  runSlot (.vld f) (vldHurdle f) (fun s =>
    let (v, s) := s.loadNum (s.effective f.ab f.off) 128 .data f.at_
    s.laterVec f.d (some v) .memory f.at_.lat 0) s

/-- VST's check. -/
def vstHurdle (f : LA) (s : State) : Option Hurdle :=
  s.storeHurdle f.at_ (s.accessHurdle (s.effective f.ab f.off) 128 16 storeKinds true .data)

/-- VST, R255. -/
def execVst (f : LA) (s : State) : Host.Outcome State Fault Refusal :=
  runSlot (.vst f) (vstHurdle f) (fun s =>
    let (v, s) := s.readVec f.d
    s.storeNum (s.effective f.ab f.off) 128 v .data f.at_) s

/-! ## Gather and scatter (R257) -/

/-- How many elements a gather or scatter of a format moves. -/
def gatherCount (fmt : Nat) : Nat := min 32 (1024 / fmtWidth fmt)

/-- The address of element `i`. -/
def State.elementAddr (s : State) (f : LG) (i : Nat) : Nat :=
  (s.ra f.ab + fld (s.rd (.v f.ix)) (32 * i) 32 * fmtBytes f.fmt) % 2 ^ 64

/-- The elements' numbers. -/
def elements (fmt : Nat) : List Nat := List.range (gatherCount fmt)

/-- VGATH's check: each element's address is judged. -/
def vgathHurdle (f : LG) (s : State) : Option Hurdle :=
  let n := fmtBytes f.fmt
  firstHurdle ((elements f.fmt).map (fun i =>
    (s.acquired f.at_).accessHurdle (s.elementAddr f i) n n loadKinds false .data))

/-- The bytes of a gather's elements, in order. -/
def State.gathered (s : State) (f : LG) : List Piece :=
  (elements f.fmt).flatMap (fun i => s.pieces (s.elementAddr f i) (fmtBytes f.fmt) false .data)

/-- The core's TLB holds the pages of a gather's or scatter's elements. -/
def State.walkedAll (s : State) (f : LG) : State :=
  (elements f.fmt).foldl (fun t i => t.walked (s.elementAddr f i) (fmtBytes f.fmt)) s

/-- VGATH, R257: an acquire invalidates once, before its first element. -/
def execVgath (f : LG) (s : State) : Host.Outcome State Fault Refusal :=
  runSlot (.vgath f) (vgathHurdle f) (fun s =>
    let k := s.issue.strand
    let s := s.acquired f.at_
    let ps := s.gathered f
    let v := ofBytes (ps.map (s.loadByte k))
    ((s.walkedAll f).touch k f.at_.ev ps).laterVec f.d (some v) .memory f.at_.lat 0) s

/-- VSCAT's check. -/
def vscatHurdle (f : LG) (s : State) : Option Hurdle :=
  let n := fmtBytes f.fmt
  s.storeHurdle f.at_
    (firstHurdle ((elements f.fmt).map (fun i => s.accessHurdle (s.elementAddr f i) n n storeKinds true .data)))

/-- VSCAT, R257: elements in increasing number, so the highest stands where indices repeat. -/
def execVscat (f : LG) (s : State) : Host.Outcome State Fault Refusal :=
  runSlot (.vscat f) (vscatHurdle f) (fun s =>
    let n := fmtBytes f.fmt
    let (v, t) := s.readVec f.d
    let parts := (elements f.fmt).map (fun i =>
      (s.pieces (s.elementAddr f i) n true .data, copies (s.elementAddr f i) (toBytes n (fld v (8 * n * i) (8 * n)))))
    (t.walkedAll f).holdStore (storeOf s.myCore (parts.flatMap (·.1)) (parts.flatMap (·.2))) f.at_) s

/-! ## Tensor accesses (R106 to R111, R256) -/

/-- The flat address of a tensor-table entry (R106, R306). -/
def State.tensorAddr (s : State) (tid : Nat) : Nat := (s.gangOf s.issue.strand).desc.ttab + 32 * tid

/-- The entry of a tensor, if it can be read. -/
def State.tensor (s : State) (tid : Nat) : Option Tensor :=
  (s.tableNum s.issue.strand (s.tensorAddr tid) 32).map tensorOf

/-- The entry admits an access whose coordinates start at scalar `sx` (R256, R277). -/
def Tensor.admits (x : Tensor) (sx : Nat) : Bool := x.valid && decide (sx + x.nd ≤ 64)

/-- The scalars that hold the coordinates. -/
def tensorScalars (f : LT) (s : State) : List Dest :=
  match s.tensor f.tid with
  | some x => if x.admits f.sx then (List.range x.nd).map (fun j => Dest.s (f.sx + j)) else []
  | none => []

/-- The coordinates of element `i` of the vector. -/
def State.coords (s : State) (f : LT) (x : Tensor) (i : Nat) : List Nat :=
  [0, 1, 2, 3, 4].map (fun j =>
    (if j < x.nd then s.rs (f.sx + j) else 0) + (if j = 0 then i else 0))

/-- An element of a tensor: number in the vector, flat address of its tile-table entry, bit offset in the tile. -/
structure Elem where
  i : Nat
  entry : Nat
  bit : Nat
deriving DecidableEq, Repr

/-- The elements that are present, from element 0 on (R109, R256). -/
def State.elems (s : State) (f : LT) (x : Tensor) : List Elem :=
  ((List.range (1024 / fmtWidth x.fmt)).filter (fun i => x.inBounds (s.coords f x i))).map (fun i =>
    let (tile, idx) := x.place (s.coords f x i)
    { i := i, entry := x.tiles + 8 * tile, bit := idx * fmtWidth x.fmt })

/-- The flat address and length of the bytes that hold an element, given its tile's entry. -/
def Elem.span (e : Elem) (entry w : Nat) : Nat × Nat :=
  (fld entry 16 41 * 2 ^ 16 + e.bit / 8, cdiv (e.bit % 8 + w) 8)

/-- What stands in the way of one element: its tile-table entry, or its bytes (R111, R406). -/
def State.elemHurdle (s : State) (e : Elem) (w : Nat) (write : Bool) : Option Hurdle :=
  let k := s.issue.strand
  match s.tileEntry k e.entry with
  | none => some (s.tableHurdle k e.entry 8)
  | some t =>
    if !bitAt t 0 then some (.miss (.page 0x18 e.entry))
    else
      let (va, n) := e.span t w
      match s.flatReach k va n write .data with
      | .stop h => some h
      | .ok ps => s.piecesHurdle ps write

/-- The checks of a tensor access (R256, R277, R399). -/
def tensorHurdle (f : LT) (write : Bool) (s : State) : Option Hurdle :=
  let bits := if write then Instr.encode (.vstt f) else Instr.encode (.vldt f)
  match s.tensor f.tid with
  | none => some (s.tableHurdle s.issue.strand (s.tensorAddr f.tid) 32)
  | some x =>
    if !x.admits f.sx || !x.inBounds (s.coords f x 0) then some (.fault .badTensor bits)
    else
      let q := if write then s else s.acquired f.at_
      firstHurdle ((s.elems f x).map (fun e => q.elemHurdle e (fmtWidth x.fmt) write))

/-- The layout unit's reads before the elements: the entries are cached, and their pages and the elements' in the
TLB. -/
def State.tilesRead (s : State) (es : List Elem) (w : Nat) : State :=
  let k := s.issue.strand
  es.foldl (fun s e =>
    match s.tileEntry k e.entry with
    | none => s
    | some t => ((s.cacheTile k e.entry t).walked e.entry 8).walked (e.span t w).1 (e.span t w).2) s

/-- The bytes of an element. -/
def State.elemPieces (s : State) (e : Elem) (w : Nat) (write : Bool) : List Piece :=
  let k := s.issue.strand
  match s.tileEntry k e.entry with
  | none => []
  | some t =>
    match s.flatReach k (e.span t w).1 (e.span t w).2 write .data with
    | .ok ps => ps
    | .stop _ => []

/-- VLDT, R256. -/
def execVldt (f : LT) (s : State) : Host.Outcome State Fault Refusal :=
  runSlotWith (.vldt f) (tensorScalars f) (tensorHurdle f false) (fun s =>
    match s.tensor f.tid with
    | none => s
    | some x =>
      let k := s.issue.strand
      let w := fmtWidth x.fmt
      let es := s.elems f x
      let s := s.acquired f.at_
      let parts := es.map (fun e => (e, s.elemPieces e w false))
      let v := parts.foldl (fun v p =>
        v + fld (ofBytes (p.2.map (s.loadByte k))) (p.1.bit % 8) w * 2 ^ (w * p.1.i)) 0
      let s := (s.tilesRead es w).touch k f.at_.ev (parts.flatMap (·.2))
      s.laterVec f.d (some v) .memory f.at_.lat 0) s

/-- The bytes of a store of sub-byte elements: each element's bits replace its part of the bytes as they then stand. -/
def State.mergeElem (s : State) (w v : Nat) (cells : List (Nat × Byte)) (p : Elem × List Piece) : List (Nat × Byte) :=
  let now (q : Piece) : Byte := ((cells.reverse.find? (fun c => c.1 = q.loc)).map (·.2)).getD
    (s.loadByte s.issue.strand q)
  let old := ofBytes (p.2.map now)
  cells ++ (p.2.map (·.loc)).zip (toBytes p.2.length (setFld old (p.1.bit % 8) w (fld v (w * p.1.i) w)))

/-- VSTT, R256. -/
def execVstt (f : LT) (s : State) : Host.Outcome State Fault Refusal :=
  runSlotWith (.vstt f) (tensorScalars f) (fun s => s.storeHurdle f.at_ (tensorHurdle f true s)) (fun s =>
    match s.tensor f.tid with
    | none => s
    | some x =>
      let w := fmtWidth x.fmt
      let es := s.elems f x
      let (v, t) := s.readVec f.d
      let parts := es.map (fun e => (e, s.elemPieces e w true))
      let cells := parts.foldl (s.mergeElem w v) []
      let whole := storeOf s.myCore (parts.flatMap (·.2)) []
      (t.tilesRead es w).holdStore { whole with cells := cells } f.at_) s

/-! ## Tagged words (R68, R132, R258, R259) -/

/-- The kinds of a full/empty instruction. -/
def tagKinds : List Nat := [0x8, 0x9]

/-- The location of an aligned scratchpad word. -/
def State.wordLoc (s : State) (f : LA) : Nat :=
  match s.reach s.issue.strand (s.effective f.ab f.off) 8 false .data with
  | .ok (p :: _) => p.loc
  | _ => 0

/-- The tag of a word: full or empty (R68). -/
def State.tag (s : State) (l : Nat) : Bool := s.full.contains (l / 8)

/-- Set a word's tag. -/
def State.setTag (s : State) (l : Nat) (b : Bool) : State :=
  let rest := s.full.filter (· ≠ l / 8)
  { s with full := if b then l / 8 :: rest else rest }

/-- The full/empty operation at the head of a waiting strand's queue: word and the tag that it waits for. -/
def State.tagWaiter (s : State) (k : Nat) : Option (Nat × Bool) :=
  let x := s.strand k
  let at_ (ab : Nat) (off : Int) : Nat :=
    let a := wrap 64 (((Table.get x.a 0 ab).toNat : Int) + off)
    match s.reach k a 8 false .data with
    | .ok (p :: _) => p.loc
    | _ => 0
  match x.st, x.met, x.queue with
  | .waiting, none, f :: _ =>
    match f.what with
    | .bits w => (bundleSlots w).findSome? (fun e => match e.2.2 with
        | .ok (.ldf g) => some (at_ g.ab g.off, true)
        | .ok (.ldfk g) => some (at_ g.ab g.off, true)
        | .ok (.ste g) => some (at_ g.ab g.off, false)
        | _ => none)
    | _ => none
  | _, _, _ => none

/-- An operation that waits on the word longer than the issuing strand's, and whose condition holds (R259). -/
def State.olderWaiter (s : State) (l : Nat) : Bool :=
  let k := s.issue.strand
  let mine := s.issue.pre.since.getD s.cycle
  s.strands.any (fun e => e.1 != k && e.2.since.any (fun t => decide (t < mine) || (t == mine && decide (e.1 < k))) &&
    (match s.tagWaiter e.1 with
     | some (m, b) => m == l && b == s.tag l
     | none => false))

/-- No operation can act on the word now: one has been served on this cycle, or an older one is to be (R259). -/
def State.wordTaken (s : State) (l : Nat) : Bool := s.granted.contains l || s.olderWaiter l

/-- The checks of a full/empty operation that waits for a tag: an acqrel access at core scope over all classes
(R132). -/
def tagHurdle (f : LA) (want : Bool) (s : State) : Option Hurdle :=
  match s.accessHurdle (s.effective f.ab f.off) 8 8 tagKinds false .data with
  | some h => some h
  | none =>
    match s.releaseHurdle 0xFFFF 1 0 with
    | some h => some h
    | none =>
      let l := s.wordLoc f
      if s.tag l != want || s.wordTaken l then some (.wait .fullEmpty) else none

/-- The checks of a full/empty operation that waits for no tag: it does not come between a granted operation and the one that
waits for it (R259). -/
def plainTagHurdle (f : LA) (s : State) : Option Hurdle :=
  match s.accessHurdle (s.effective f.ab f.off) 8 8 tagKinds false .data with
  | some h => some h
  | none => if s.wordTaken (s.wordLoc f) then some (.wait .fullEmpty) else none

/-- A full/empty operation has been served on this cycle at its word. -/
def State.grant (s : State) (l : Nat) : State := { s with granted := l :: s.granted }

/-- The event of LDF: the word, and the word empty (R258). -/
def ldfAccess (f : LA) (s : State) : Nat × State :=
  let l := s.wordLoc f
  (s.num l 8, ((s.setTag l false).grant l).releaseCore)

/-- The event of LDFK: the word (R258). -/
def ldfkAccess (f : LA) (s : State) : Nat × State :=
  let l := s.wordLoc f
  (s.num l 8, (s.grant l).releaseCore)

/-- The event of STE: the word written and full (R258). -/
def steAccess (f : LA) (s : State) : Nat × State :=
  let l := s.wordLoc f
  (0, (((s.setNum l 8 (s.rs f.d)).setTag l true).grant l).recount.releaseCore)

/-- LDF, R258. -/
def execLdf (f : LA) (s : State) : Host.Outcome State Fault Refusal :=
  runSlot (.ldf f) (unlessMet (tagHurdle f true)) (fun s =>
    let (v, s) := s.metOr (ldfAccess f)
    s.later (.s f.d) (some v) .memory f.at_.lat 0) s

/-- LDFK, R258. -/
def execLdfk (f : LA) (s : State) : Host.Outcome State Fault Refusal :=
  runSlot (.ldfk f) (unlessMet (tagHurdle f true)) (fun s =>
    let (v, s) := s.metOr (ldfkAccess f)
    s.later (.s f.d) (some v) .memory f.at_.lat 0) s

/-- STE, R258. -/
def execSte (f : LA) (s : State) : Host.Outcome State Fault Refusal :=
  runSlot (.ste f) (unlessMet (tagHurdle f false)) (fun s => (s.metOr (steAccess f)).2) s

/-- FESET, R258. -/
def execFeset (f : LA) (s : State) : Host.Outcome State Fault Refusal :=
  runSlot (.feset f) (plainTagHurdle f) (fun s => s.setTag (s.wordLoc f) (bitAt (s.rs f.d) 0)) s

/-- FEPROBE, R258. -/
def execFeprobe (f : LA) (s : State) : Host.Outcome State Fault Refusal :=
  runSlot (.feprobe f) (plainTagHurdle f) (fun s =>
    s.later (.s f.d) (some (if s.tag (s.wordLoc f) then 1 else 0)) .memory f.at_.lat 0) s

/-! ## Atomics (R260) -/

/-- The new value of an atomic's location, `w` bits wide (R260, R269). -/
def atomicNew (op w old x cmp : Nat) : Nat :=
  match op with
  | 0 => (old + x) % 2 ^ w
  | 1 => old &&& x
  | 2 => old ||| x
  | 3 => old ^^^ x
  | 4 => if sgn w x < sgn w old then x else old
  | 5 => if sgn w old < sgn w x then x else old
  | 6 => min old x
  | 7 => max old x
  | 8 => x
  | _ => if old = cmp then x else old

/-- The home L2 slice writes back its copy of a sector, and the core drops its L1 copy (R260). -/
def State.atomicHome (s : State) (c sec : Nat) : State :=
  let s := (s.cleanL1 c sec).onCore c (fun x => x.dropSector sec)
  s.cleanL2 sec

/-- An atomic at a location performs: the value before, and the state after. Nothing is written where a compare
fails. -/
def State.atomicAt (s : State) (c loc op w x cmp : Nat) : Nat × State :=
  let s := s.atomicHome c (loc / 64)
  let old := s.num loc (w / 8)
  if op = 9 ∧ old ≠ cmp then (old, s)
  else
    let s := s.captureFor [loc]
    (old, (s.setNum loc (w / 8) (atomicNew op w old x cmp)).recount)

/-- The checks of a local atomic. -/
def atomHurdle (f : LX) (s : State) : Option Hurdle :=
  let n := fmtBytes f.fmt
  let a := s.ra f.ab
  let reach := match s.accessHurdle a n n [0x0] true .atomic with
    | some h => some h
    | none => s.poisonHurdle s.myCore ((s.pieces a n true .atomic).map (fun p => { p with l1 := false }))
  s.ordered f.at_ reach

/-- A local atomic with its ordering: release, acquire, the operation, its result. -/
def runAtom (f : LX) (op : Nat) (cmp : Nat) (s : State) : State :=
  let k := s.issue.strand
  let n := fmtBytes f.fmt
  let a := s.ra f.ab
  let s := if f.at_.ord = 2 ∨ f.at_.ord = 3 then s.releaseAt k (2 ^ f.at_.cls) f.at_.sc f.at_.nm else s
  let s := if f.at_.ord = 1 ∨ f.at_.ord = 3 then s.acquire k f.at_.sc f.at_.nm else s
  match s.pieces a n true .atomic with
  | [] => s
  | p :: _ =>
    let (old, t) := (s.walked a n).atomicAt s.myCore p.loc op (8 * n) (s.rs f.sb % 256 ^ n) (cmp % 256 ^ n)
    t.later (.s f.d) (some (extendTo64 f.fmt n old)) .memory f.at_.lat 0

/-- ATOM, R260. -/
def execAtom (f : LX) (s : State) : Host.Outcome State Fault Refusal :=
  runSlot (.atom f) (atomHurdle f) (fun s => runAtom f f.k 0 s) s

/-- ATOMCAS, R260. -/
def execAtomcas (f : LX) (s : State) : Host.Outcome State Fault Refusal :=
  runSlot (.atomcas f) (atomHurdle f) (fun s => runAtom f 9 (s.rs f.k) s) s

end Sys2Proof.Machine
end

