-- ==== Sys2Proof/Machine/Sync.lean ====
section
/-! DEFINITION. The mem slot: semaphores, mark counters, fences, write tokens, buffer rings, and cache and code control,
with the arrival of a token, of a semaphore message and of a reload (R58 to R60, R115 to R119, R129, R137, R261 to R268,
R330, R331). -/

namespace Sys2Proof.Machine

/-! ## What a waiting strand waits for -/

/-- The mem instruction of a delivered bundle. -/
def Delivered.mem (d : Delivered) : Option Instr :=
  match d with
  | .bits w => (bundleSlots w).findSome? (fun e => match e.2.1, e.2.2 with
      | _, .ok i => if i.slotKind = some .mem then some i else none
      | _, .error _ => none)
  | _ => none

/-- The mem instruction at the head of the queue of a strand whose wait has not been met. -/
def Strand.waitingMem (x : Strand) : Option Instr :=
  match x.st, x.met, x.queue with
  | .waiting, none, f :: _ => f.what.mem
  | _, _, _ => none

/-! ## Semaphores (R58, R261, R262, R330, R331) -/

/-- A semaphore's count. -/
def State.sem (s : State) (c n : Nat) : Nat := (Table.get (s.core c).sems 0 n).toNat

/-- Set a semaphore's count. -/
def State.setSem (s : State) (c n v : Nat) : State :=
  s.onCore c (fun x => { x with sems := Table.set x.sems n (BitVec.ofNat 32 v) })

/-- Add to a semaphore, saturating (R261). -/
def State.semAdd (s : State) (c n v : Nat) : State := s.setSem c n (min (s.sem c n + v) (2 ^ 32 - 1))

/-- Add to a counter of the fabric status, saturating (R429): register 0 or 1, lowest bit, width. -/
def State.countStat (s : State) (reg lo n : Nat) : State :=
  let bump (w : Nat) : Nat := setFld w lo n (min (fld w lo n + 1) (2 ^ n - 1))
  if reg = 0 then { s with fab := { s.fab with fstat0 := bump s.fab.fstat0 } }
  else { s with fab := { s.fab with fstat1 := bump s.fab.fstat1 } }

/-- The egress entry of the current generation (R328). -/
def State.egress (s : State) (dest : Nat) : Nat := Table.get s.fab.egress 0 (1024 * s.fab.cur + dest)

/-- The effective set of a destination: its stations that are not retired (R425). -/
def State.effectiveSet (s : State) (dest : Nat) : List Nat :=
  (List.range 24).filter (fun i => bitAt (s.egress dest) i && !(Table.get s.fab.stations {} i).ret)

/-- The path key of a requester (R327): strands and engines by class, the device's own senders in class 0. -/
def pathKey (who cls : Nat) : Nat := if who < 1088 then who * 16 + cls else who * 16

/-- The station of a requester's path to a destination (R327, R425). -/
def State.stationFor (s : State) (dest who cls : Nat) : Option Nat :=
  let l := s.effectiveSet dest
  l[pathKey who cls % l.length]?

/-- Requests to a destination can be sent: it is the device itself or has an effective set (R327, R425). -/
def State.reachable (s : State) (dest : Nat) : Bool := dest == s.devid || !(s.effectiveSet dest).isEmpty

/-- The pair of a destination and a class is still on the old generation (R329, R425). Requests to an unreachable destination
do not wait: they are answered at once. -/
def State.pairWaits (s : State) (dest cls : Nat) : Bool :=
  dest != s.devid && s.fab.pairs.contains (dest, cls) && !(s.effectiveSet dest).isEmpty

/-- The requester of a parcel. -/
def Parcel.who : Parcel → Nat
  | .request r => r.who
  | .message who _ _ => who

/-- The class of a parcel. -/
def Parcel.cls : Parcel → Nat
  | .request r => r.cls
  | .message _ cls _ => cls

/-- The die of a requester: of a strand's core, of a haul engine, of a base camp core, of a cairn engine's stack (R14, R15,
R327). -/
def senderDie (who : Nat) : Nat :=
  if who < 1024 then who / 256 else if who < 1088 then (who - 1024) / 16 else if who < 1096 then who - 1088
  else (who - 1096) / 2

/-- The station that something leaves by. -/
def Sent.station : Sent → Nat
  | .request _ st _ => st
  | .reply _ st _ _ _ _ => st
  | .message _ st _ => st

/-- The queue of its kind: 0 requests, semaphore messages among them, 1 replies, 2 control messages (R326, R330, R345). -/
def Sent.kind : Sent → Nat
  | .request _ _ _ => 0
  | .reply _ _ _ _ _ _ => 1
  | .message _ _ m => if m.kind = 3 ∨ 8 ≤ m.kind then 2 else 0

/-- What a die sends can leave by its station: the station carries traffic, the link to its die is up (R14, R16), and nothing
that the die has sent by it earlier waits in the queue of the same kind (R326, R332, R423). -/
def State.canDepart (s : State) (earlier : List Outgoing) (die : Nat) (x : Sent) : Bool :=
  !(Table.get s.fab.stations {} x.station).down && !s.cutOff die (x.station / 6) &&
  !earlier.any (fun q => q.die == die && q.item.station == x.station && q.item.kind == x.kind)

/-- What a die sends leaves by its station, or waits in its queues (R326, R332, R423). -/
def State.depart (s : State) (die : Nat) (x : Sent) : State :=
  if s.canDepart s.fab.egressQ die x then { s with fab := { s.fab with sent := s.fab.sent ++ [x] } }
  else { s with fab := { s.fab with egressQ := s.fab.egressQ ++ [{ die := die, item := x, at_ := s.cyc.toNat }] } }

/-- A message is lost where its destination is unreachable: it is counted as a semaphore message or as another (R427,
R429). -/
def State.loseMessage (s : State) (m : Msg) : State :=
  if m.kind = 1 ∨ m.kind = 2 then s.countStat 0 32 16 else s.countStat 0 48 16

/-- A parcel leaves its requester by the station of its path: from then on a request waits for its answer (R327, R426). A
request goes only to a destination that is reachable. -/
def State.leave (s : State) (dest : Nat) (p : Parcel) : State :=
  match s.stationFor dest p.who p.cls, p with
  | none, .request _ => s
  | none, .message _ _ m => s.loseMessage m
  | some st, .request r =>
    ({ s with fab := { s.fab with out := s.fab.out ++ [⟨dest, r.cls, r.who, r.tag, s.cyc.toNat⟩] } } : State).depart
      (senderDie r.who) (.request dest st r)
  | some st, .message who _ m => s.depart (senderDie who) (.message dest st m)

/-- Send a parcel to another accelerator; while its pair of destination and class has not switched it is held (R327,
R329). -/
def State.post (s : State) (dest : Nat) (p : Parcel) : State :=
  if s.pairWaits dest p.cls then { s with fab := { s.fab with held := s.fab.held ++ [(dest, p)] } } else s.leave dest p

/-- Send a request to a reachable destination: to the device's own ingress, on the requester's die, or to another accelerator
(R327). -/
def State.transmit (s : State) (dest : Nat) (r : FabReq) : State :=
  if dest = s.devid then { s with fab := { s.fab with
    ingress := s.fab.ingress ++ [{ r with port := 24 + senderDie r.who }]
    out := s.fab.out ++ [⟨dest, r.cls, r.who, r.tag, s.cyc.toNat⟩] } }
  else s.post dest (.request r)

/-- Send a vendor message for a requester in a class: to a DX940 part alone (R327, R330, R331). -/
def State.sendMsg (s : State) (dest who cls : Nat) (m : Msg) : State :=
  if bitAt (s.egress dest) 32 then s.post dest (.message who cls m) else s.loseMessage m

/-- An operation reaches a semaphore from an engine or from outside its core: it takes effect at the cycle's end, in
R58's order. -/
def State.semReach (s : State) (o : SemOp) : State := { s with semOps := s.semOps ++ [o] }

/-- An operation takes effect on its semaphore (R261). -/
def State.semApply (s : State) (o : SemOp) : State :=
  if o.sets then s.setSem o.core o.sem o.val else s.semAdd o.core o.sem o.val

/-- Enter an operation in the order of R58: engines in increasing number, then the others in order of arrival. -/
def enterSemOp (o : SemOp) : List SemOp → List SemOp
  | [] => [o]
  | p :: t =>
    match o.engine, p.engine with
    | some a, some b => if a < b then o :: p :: t else p :: enterSemOp o t
    | some _, none => o :: p :: t
    | none, _ => p :: enterSemOp o t

/-- What has reached the semaphores on this cycle takes effect (R58). -/
def State.semArrivals (s : State) : State :=
  (s.semOps.foldl (fun l o => enterSemOp o l) []).foldl State.semApply { s with semOps := [], arrived := true, turn := 0 }

/-- The semaphore operation that a message is: KIND 1 adds, KIND 2 sets (R261, R330). -/
def semOpOf (m : Msg) : SemOp :=
  { core := m.core % 256, sem := m.sel % 64, sets := m.kind == 2, val := m.val % 2 ^ 32 }

/-- A semaphore message arrives (R261, R330). -/
def State.semMsg (s : State) (m : Msg) : State :=
  if m.kind = 1 ∨ m.kind = 2 then s.semReach (semOpOf m) else s.countStat 0 48 16

/-- The message of a semaphore operation (R330). -/
def semMessageOf (s : State) (kind : Nat) (f : LS) : Msg :=
  { kind := kind, rk := 0, src := s.devid, core := f.core, sel := f.sem, tnum := 0, val := s.rs f.sn % 2 ^ 32, gid := 0,
    cause := 0, pitch := 0 }

/-- A semaphore operation reaches its target: the issuing core at once, another core of this device on this cycle, or
another accelerator by message, dropped and counted where the destination is no DX940 or unreachable (R58, R261, R327,
R331, R401). -/
def State.semSend (s : State) (kind : Nat) (f : LS) : State :=
  let m := semMessageOf s kind f
  if f.far = 0 ∨ f.dev = s.devid then
    if f.core = s.myCore then s.semApply (semOpOf m)
    else s.semReach (semOpOf m)
  else s.sendMsg f.dev s.issue.strand f.at_.cls m

/-- The checks of an arrival operation: one whose pair of destination and class has not switched waits, and so does one to a
core of a die that no link reaches now (R16, R329, R431). -/
def arrivalHurdle (f : LS) (s : State) : Option Hurdle :=
  match s.ordered f.at_ none with
  | some h => some h
  | none =>
    if f.far = 1 ∧ s.pairWaits f.dev f.at_.cls then some (.wait .engineFull)
    else if (f.far = 0 ∨ f.dev = s.devid) ∧ s.cutOff (dieOf s.issue.strand) (f.core / 64) then some (.wait .engineFull)
    else none

/-- A release ordering's effect before an operation. -/
def State.releasing (s : State) (at_ : Attr) : State :=
  if at_.ord = 2 ∨ at_.ord = 3 then s.releaseAt s.issue.strand (2 ^ at_.cls) at_.sc at_.nm else s

/-- An acquire ordering's effect before an operation. -/
def State.acquiring (s : State) (at_ : Attr) : State :=
  if at_.ord = 1 ∨ at_.ord = 3 then s.acquire s.issue.strand at_.sc at_.nm else s

/-- SEMADD, R261. -/
def execSemadd (f : LS) (s : State) : Host.Outcome State Fault Refusal :=
  runSlot (.semadd f) (arrivalHurdle f) (fun s => (s.releasing f.at_).semSend 1 f) s

/-- SEMSET, R261. -/
def execSemset (f : LS) (s : State) : Host.Outcome State Fault Refusal :=
  runSlot (.semset f) (arrivalHurdle f) (fun s => (s.releasing f.at_).semSend 2 f) s

/-- What a strand's SEMWAIT on semaphore `n` needs, while it waits; one that a fence holds is not evaluated (R129, R262). -/
def State.semNeed (s : State) (k n : Nat) : Option Nat :=
  match (s.strand k).waitingMem with
  | some (.semwait g) =>
    let i : Instr := .semwait g
    if g.sem = n ∧ !(s.strand k).pending (.s g.sn) ∧ !s.heldOf k (s.strand k) i.accessMask i.storeMask then some ((Table.get (s.strand k).s 0 g.sn).toNat % 2 ^ 32) else none
  | _ => none

/-- The waits of the core's strands below the issuing one are evaluated first, in increasing number: those that the count
meets complete, each subtracting before the next (R262). -/
def State.semLower (s : State) (n : Nat) : State :=
  (List.range (ctxOf s.issue.strand)).foldl (fun s j =>
    let k := 4 * s.myCore + j
    match s.semNeed k n with
    | some t =>
      if t ≤ s.sem s.myCore n then
        (s.setSem s.myCore n (s.sem s.myCore n - t)).onStrand k (fun x => { x with met := some 0 })
      else s
    | none => s) s

/-- SEMWAIT's wait: the count that lower strands leave is below t (R262). -/
def semwaitHurdle (f : LS) (s : State) : Option Hurdle :=
  let t := s.rs f.sn % 2 ^ 32
  if t = 0 then none
  else if (s.semLower f.sem).sem s.myCore f.sem < t then some (.wait .semaphore)
  else none

/-- The event of SEMWAIT: t is subtracted; a t of 0 changes nothing (R262). -/
def semwaitAccess (f : LS) (s : State) : Nat × State :=
  let t := s.rs f.sn % 2 ^ 32
  if t = 0 then (0, s)
  else
    let u := s.semLower f.sem
    (0, u.setSem s.myCore f.sem (u.sem s.myCore f.sem - t))

/-- SEMWAIT, R262. -/
def execSemwait (f : LS) (s : State) : Host.Outcome State Fault Refusal :=
  runSlot (.semwait f) (unlessMet (semwaitHurdle f)) (fun s => (s.metOr (semwaitAccess f)).2.acquiring f.at_) s

/-- SEMRD, R262. -/
def execSemrd (f : LS) (s : State) : Host.Outcome State Fault Refusal :=
  runSlot (.semrd f) free (fun s =>
    (s.acquiring f.at_).later (.s f.sn) (some (s.sem s.myCore f.sem)) .memory f.at_.lat 0) s

/-- SEM_MESSAGE, R330, R58. -/
def execSemMessage (msg : Msg) (s : State) : Host.Outcome State Fault Refusal := .next (s.semMsg msg)

/-! ## Mark counters and fences (R129 to R131, R263, R264) -/

/-- The value of a location at its home, with what the strand's own gate and its core's Dirty sectors hold for it
(R123, R124). -/
def State.homeByte (s : State) (k : Nat) (p : Piece) : Byte :=
  match gateByte (s.strand k).gate p.loc with
  | some b => b
  | none =>
    if (s.core (coreOf k)).l1Dirty.contains (p.loc / 64) then s.loadByte k p else s.byte p.loc

/-- CNTWAIT's checks and wait; it reads no counter while a fence holds it (R129, R263). -/
def cntwaitHurdle (f : LQ) (s : State) : Option Hurdle :=
  let a := s.ra f.ab
  match s.accessHurdle a 8 8 [0x0, 0x8, 0xC] false .data with
  | some h => some h
  | none =>
    let ps := s.pieces a 8 false .data
    let v := ofBytes (ps.map (s.homeByte s.issue.strand))
    if s.held (Instr.accessMask (.cntwait f)) 0 then some (.wait .engineFull)
    else if v < s.rs f.s then some (.wait (.counter (ps.map (·.loc)) (s.rs f.s))) else none

/-- CNTWAIT, R263. -/
def execCntwait (f : LQ) (s : State) : Host.Outcome State Fault Refusal :=
  runSlot (.cntwait f) (unlessMet (cntwaitHurdle f)) (fun s => (s.walked (s.ra f.ab) 8).acquiring f.at_) s

/-- The strand's remote accesses in the classes of a mask that are not answered. -/
def State.openTags (s : State) (mask : Nat) (loadsOnly : Bool) : List Nat :=
  ((s.core s.myCore).tickets.filter (fun t => t.2.unanswered s.issue.strand && bitAt mask t.2.cls &&
    (!loadsOnly || t.2.loads))).map (·.1)

/-- The strand's reloads in the classes of a mask. -/
def State.openReloads (s : State) (mask : Nat) : List Nat :=
  let k := s.issue.strand
  s.ropes.flatMap (fun r => (r.2.reloads.filter (fun l => l.strand = k && bitAt mask l.cls)).map (·.num)) ++
  s.fab.mcast.filterMap (fun m => (m.what.asked.filter (fun a => a.2.1 = k && bitAt mask a.2.2)).map (·.1))

/-- The number below which the strand's mx commands have stores that a fence over a mask orders: they are of class 0
(R231). -/
def State.openStores (s : State) (mask : Nat) : Nat :=
  let c := s.core s.myCore
  if bitAt mask 0 && c.storesPend s.issue.strand then c.mxNum else 0

/-- A fence over a mask, with its ord (R129): what it waits for and what it holds. -/
def State.fence (s : State) (mask ord sc nm : Nat) : State :=
  let k := s.issue.strand
  let wide := s.wide k sc nm
  let loadsOnly := ord = 1 || (ord = 2 && !wide)
  let tags := s.openTags mask loadsOnly ++ s.openReloads mask
  let mx := s.openStores mask
  if tags.isEmpty && mx == 0 then s
  else s.onMe (fun x => { x with fences := x.fences ++
    [{ mask := mask, storesOnly := ord = 2, tags := tags, mx := mx, acq := ord = 1 ∨ ord = 3, rel := ord = 2 ∨ ord = 3
       level := s.level k sc nm }] })

/-- The fences of a strand that are complete take effect as releases and acquires and are dropped: its later accesses
go on (R128 to R130, R264). -/
def State.endFences (s : State) (k : Nat) : State :=
  let done := (s.strand k).fences.filter (fun f => !s.fenceOpen k f)
  let s := done.foldl (fun s f =>
    let s := if f.rel then s.releaseLevel (coreOf k) f.level else s
    if f.acq then s.acquireLevel (coreOf k) f.level else s) s
  s.onStrand k (fun x => { x with fences := x.fences.filter (fun f => s.fenceOpen k f) })

/-- FENCE's check: a class with an unreplayed ticket (R140); a zero mask does nothing (R129). -/
def fenceHurdle (f : LF) (s : State) : Option Hurdle := if f.mask = 0 then none else s.ticketFault f.mask

/-- FENCE, R264, R129: later accesses of its classes wait for what it orders. -/
def execFence (f : LF) (s : State) : Host.Outcome State Fault Refusal :=
  runSlot (.fence f) (fenceHurdle f) (fun s =>
    if f.mask = 0 then s
    else
      let k := s.issue.strand
      let s := if f.at_.ord = 2 ∨ f.at_.ord = 3 then s.releaseAt k f.mask f.at_.sc f.at_.nm else s
      (s.acquiring f.at_).fence f.mask f.at_.ord f.at_.sc f.at_.nm) s

/-! ## Write tokens (R116, R137, R265) -/

/-- The gang's region that a token of the issuing die names (R265). -/
def State.tokenRegion (s : State) (tok : Nat) : Option TokenRegion :=
  let k := s.issue.strand
  (s.gangOf k).desc.regions.find? (fun r => r.tok == tok && r.die == dieOf k)

/-- The table index of a token of the issuing die. -/
def State.tokenIdx (s : State) (tok : Nat) : Nat := 1024 * dieOf s.issue.strand + tok

/-- The issuing core holds a token. -/
def State.iHold (s : State) (tok : Nat) : Bool := s.holdsToken s.myCore (dieOf s.issue.strand) tok

/-- TOKACQ's check and wait (R265). -/
def tokacqHurdle (f : LK) (s : State) : Option Hurdle :=
  if (s.tokenRegion f.tok).isNone then some (.fault .badTokenOrRing (Instr.encode (.tokacq f)))
  else if s.iHold f.tok then none
  else some (.wait .semaphore)

/-- TOKACQ, R265: an acquire at die scope. -/
def execTokacq (f : LK) (s : State) : Host.Outcome State Fault Refusal :=
  runSlot (.tokacq f) (unlessMet (tokacqHurdle f)) (fun s => s.acquire s.issue.strand 4 0) s

/-- TOKPASS's checks (R265, R140). -/
def tokpassHurdle (f : LK) (s : State) : Option Hurdle :=
  if (s.tokenRegion f.tok).isNone || !s.iHold f.tok || f.core / 64 != dieOf s.issue.strand then
    some (.fault .badTokenOrRing (Instr.encode (.tokpass f)))
  else s.releaseHurdle 0xFFFF 4 0

/-- The gate of a strand that is not issuing releases, and its next bundle becomes its restart point, as where a gate is
full (R41, R116). -/
def State.drainGate (s : State) (k : Nat) : State :=
  let s := s.releaseGate k
  if (s.strand k).trapping.isSome then s
  else s.onStrand k (fun x => x.restartAt x.pc x.bank x.lastX)

/-- The gates of a core's strands that hold stores to held shared regions are drained: they are the holder's outstanding
writes (R116, R137). A strand that is rolled back drops its own. -/
def State.drainGates (s : State) (c : Nat) : State :=
  [0, 1, 2, 3].foldl (fun s i =>
    let x := s.strand (4 * c + i)
    if !x.rolling && x.gate.any (fun g => !g.held.isEmpty) then s.drainGate (4 * c + i) else s) s

/-- TOKPASS, R265: a release at die scope, after which the token travels. -/
def execTokpass (f : LK) (s : State) : Host.Outcome State Fault Refusal :=
  runSlot (.tokpass f) (tokpassHurdle f) (fun s =>
    if f.core = s.myCore then s
    else
      let s := (s.drainGates s.myCore).releaseAt s.issue.strand 0xFFFF 4 0
      { s with tokens := Table.erase s.tokens (s.tokenIdx f.tok)
               transit := s.transit ++ [{ token := s.tokenIdx f.tok, dest := f.core, source := s.myCore }] }) s

/-- The core that passed a token has no command with stores to held regions outstanding (R116, R265). -/
def Core.drainedStores (c : Core) : Bool := !c.storing.any (fun m => m.mem.any (fun l => l.any (·.held)))

/-- A token can arrive: its source has performed its stores, and the link between the cores' dies carries traffic (R16). -/
def State.passes (s : State) (e : Passing) : Bool :=
  (s.core e.source).drainedStores && !s.cutOff (e.source / 64) (e.dest / 64)

/-- A token arrives at the core that a pass named: its source has written its last sectors home (R116, R137). -/
def State.tokenArrives (s : State) (i : Nat) : State :=
  match s.transit.find? (fun e => e.token = i) with
  | none => s
  | some e =>
    if s.passes e then
      let s := s.cleanCore e.source
      { s with tokens := Table.set s.tokens i e.dest, transit := s.transit.filter (fun x => x.token ≠ i) }
    else s

/-- TOKEN_ARRIVAL, R265, R137. -/
def execTokenArrival (die tok : Nat) (s : State) : Host.Outcome State Fault Refusal :=
  .next (s.tokenArrives (1024 * die + tok))

/-! ## Buffer rings (R60, R266) -/

/-- The fields of a ring entry. -/
structure Ring where
  en : Bool
  free : Nat
  head : Nat
  tail : Nat
  count : Nat
  size : Nat
  base : Nat
deriving DecidableEq, Repr

/-- Read a ring entry (R60). -/
def ringOf (v : Nat) : Ring :=
  { en := bitAt v 63, free := fld v 56 7, head := fld v 50 6, tail := fld v 44 6, count := fld v 37 7,
    size := fld v 23 14, base := fld v 8 15 }

/-- A ring of the issuing core. -/
def State.ring (s : State) (n : Nat) : Ring := ringOf (Table.get (s.core s.myCore).rings 0 n).toNat

/-- Change FREE, HEAD and TAIL of a ring. -/
def State.setRing (s : State) (n free head tail : Nat) : State :=
  s.onCore s.myCore (fun c =>
    let v := (Table.get c.rings 0 n).toNat
    { c with rings := Table.set c.rings n (w64 (setFld (setFld (setFld v 56 7 free) 50 6 head) 44 6 tail)) })

/-- Buffer `h` ends beyond the scratchpad. -/
def State.bufferOut (s : State) (r : Ring) (h : Nat) : Bool :=
  decide (s.spmSize s.myCore < (r.base + (h + 1) * r.size) * 256)

/-- A ring that no operation may use (R399). -/
def Ring.bad (r : Ring) : Bool :=
  !r.en || r.count == 0 || r.size == 0 || decide (r.count < r.free) || decide (r.count ≤ r.head) ||
  decide (r.count ≤ r.tail)

/-- BUFACQ's checks and wait (R266, R399). -/
def bufacqHurdle (f : LK) (s : State) : Option Hurdle :=
  let r := s.ring f.ring
  if r.bad || s.bufferOut r r.head then some (.fault .badTokenOrRing (Instr.encode (.bufacq f)))
  else if r.free = 0 then some (.wait .ring)
  else none

/-- The event of BUFACQ: the buffer's address, and the ring without it (R266). -/
def bufacqAccess (f : LK) (s : State) : Nat × State :=
  let r := s.ring f.ring
  (0x8000000000000000 + (r.base + r.head * r.size) * 256,
    s.setRing f.ring (r.free - 1) ((r.head + 1) % r.count) r.tail)

/-- BUFACQ, R266. -/
def execBufacq (f : LK) (s : State) : Host.Outcome State Fault Refusal :=
  runSlot (.bufacq f) (unlessMet (bufacqHurdle f)) (fun s =>
    let (a, s) := s.metOr (bufacqAccess f)
    s.later (.a f.ad) (some a) .memory f.at_.lat 0) s

/-- BUFREL's checks (R266, R399); it is a release at core scope over all classes (R140). -/
def bufrelHurdle (f : LK) (s : State) : Option Hurdle :=
  let r := s.ring f.ring
  if r.bad || r.free == r.count || s.bufferOut r r.tail then
    some (.fault .badTokenOrRing (Instr.encode (.bufrel f)))
  else s.releaseHurdle 0xFFFF 1 0

/-- BUFREL, R266. -/
def execBufrel (f : LK) (s : State) : Host.Outcome State Fault Refusal :=
  runSlot (.bufrel f) (bufrelHurdle f) (fun s =>
    let r := s.ring f.ring
    (s.setRing f.ring (r.free + 1) r.head ((r.tail + 1) % r.count)).releaseCore) s

/-! ## Cache control (R117 to R119, R267) -/

/-- The range of a cache-control instruction: start and length (R267). -/
def State.range (s : State) (f : LA) : Nat × Nat :=
  let a := s.effective f.ab f.off
  if f.d = 0 then (a / 256 * 256, 256) else (a, s.rs f.d)

/-- The parts of a flat range that lie in one page of `z` bytes each: address and length. -/
def partsOf (z va n : Nat) : List (Nat × Nat) :=
  if n = 0 then []
  else
    (List.range ((va + n - 1) / z - va / z + 1)).map (fun i =>
      let lo := max va ((va / z + i) * z)
      let hi := min (va + n) ((va / z + i + 1) * z)
      (lo, hi - lo))

/-- The parts of a flat range as strand `k`'s space is paged. -/
def State.pageParts (s : State) (k va n : Nat) : List (Nat × Nat) := partsOf (s.pageSize k) va n

/-- A part of a range in memory, and whether it is cacheable; or why it cannot be reached (R102, R120, R406, R420). -/
def State.partSpan (s : State) (k : Nat) (p : Nat × Nat) : Except Hurdle Span :=
  match s.walkNeeded k p.1 with
  | some root => .error (.wait (.walking root (p.1 / 2 ^ 16)))
  | none =>
    match s.translateFor k p.1 false ((s.strand k).handler == .sup) with
    | .moving => .error (.wait (s.moveWait k p.1))
    | .hostMiss => .error (.miss (.hostMiss p.1))
    | .fail code => .error (.miss (.page code p.1))
    | .ok pa mt =>
      if s.behind k p.1 then .error (.wait (s.moveWait k p.1))
      else if mt = 2 then .error (.miss (.page 0x0D p.1))
      else if s.sleeping pa || s.cutOff (dieOf k) (homeDie pa) then .error (.wait .walk)
      else .ok { loc := pa, len := p.2, cached := mt == 0 && isHbm pa }

/-- Its location and length alone. -/
def State.partReach (s : State) (k : Nat) (p : Nat × Nat) : Except Hurdle (Nat × Nat) :=
  (s.partSpan k p).map (fun x => (x.loc, x.len))

/-- The parts of a range that can be reached. -/
def State.rangeParts (s : State) (f : LA) : List (Nat × Nat) :=
  let (a, n) := s.range f
  (s.pageParts s.issue.strand a n).filterMap (fun p => (s.partReach s.issue.strand p).toOption)

/-- The kind and the length of a range (R249, R267, R399). -/
def rangeHurdle (f : LA) (s : State) : Option Hurdle :=
  let a := s.effective f.ab f.off
  if s.badAddr s.issue.strand a 1 1 [0x0] || decide (2 ^ 32 ≤ (s.range f).2) then some (.fault .badAddress a) else none

/-- Those, and the translation of every page of the range (R406). -/
def cacheHurdle (f : LA) (s : State) : Option Hurdle :=
  match rangeHurdle f s with
  | some h => some h
  | none =>
    let (a, n) := s.range f
    firstHurdle ((s.pageParts s.issue.strand a n).map (fun p =>
      match s.partReach s.issue.strand p with
      | .error h => some h
      | .ok _ => none))

/-- The core's TLB holds the pages of a range (R103). -/
def State.walkedRange (s : State) (f : LA) : State :=
  let (a, n) := s.range f
  (s.pageParts s.issue.strand a n).foldl (fun s p => s.fillFor s.issue.strand p.1) s

/-- A sector overlaps a part. -/
def overlaps (parts : List (Nat × Nat)) (sec : Nat) : Bool :=
  parts.any (fun p => decide (sec * 64 < p.1 + p.2) && decide (p.1 < sec * 64 + 64))

/-- A sector lies wholly in a part. -/
def within (parts : List (Nat × Nat)) (sec : Nat) : Bool :=
  parts.any (fun p => decide (p.1 ≤ sec * 64) && decide (sec * 64 + 64 ≤ p.1 + p.2))

/-- The sectors that a core's L1 or the L2 slices hold apart from their controllers. -/
def State.cachedSectors (s : State) (c : Nat) : List Nat :=
  ((s.core c).l1.map (·.1) ++ s.sys.below.map (·.1)).dedup

/-- DISCARD, R267, R118, R119. -/
def execDiscard (f : LA) (s : State) : Host.Outcome State Fault Refusal :=
  runSlot (.discard f) (cacheHurdle f) (fun s =>
    let parts := s.rangeParts f
    ((s.cachedSectors s.myCore).filter (within parts)).foldl (fun s sec => s.dropSector s.myCore sec) (s.walkedRange f)) s

/-- WBACK, R267, R123. -/
def execWback (f : LA) (s : State) : Host.Outcome State Fault Refusal :=
  runSlot (.wback f) (cacheHurdle f) (fun s =>
    let parts := s.rangeParts f
    if s.wide s.issue.strand f.at_.sc f.at_.nm then
      ((s.cachedSectors s.myCore).filter (overlaps parts)).foldl (fun s sec =>
        let s := s.cleanL1 s.myCore sec
        if f.at_.sc = 6 then s.cleanL2 sec else s) (s.walkedRange f)
    else s.walkedRange f) s

/-- A core belongs to a scope of strand `k` (R126). -/
def State.inScope (s : State) (k sc nm c : Nat) : Bool :=
  c == coreOf k ||
  (match sc with
   | 2 => c / 8 == ropeOf k
   | 3 => (s.gangOf k).ropes.contains (c / 8)
   | 4 => c / 64 == dieOf k
   | 5 => true
   | 6 => true
   | 7 => bitAt (s.nsm k nm) c
   | _ => false)

/-- A core's L1 drops the sectors of some parts, Dirty ones written home first. -/
def State.invalCore (s : State) (c : Nat) (parts : List (Nat × Nat)) : State :=
  let s := ((s.core c).l1Dirty.filter (overlaps parts)).foldl (fun s sec => s.cleanL1 c sec) s
  (((s.core c).l1.map (·.1)).filter (overlaps parts)).foldl (fun s sec => s.onCore c (fun x => x.dropSector sec)) s

/-- Cores drop the sectors of some parts, and the tile-table entries of a range of their space that their layout units
hold (R111, R267). -/
def State.invalCores (s : State) (parts : List (Nat × Nat)) (lo len : Nat) (cores : List Nat) : State :=
  ((s.cores.map (·.1)).filter cores.contains).foldl (fun s c => (s.invalCore c parts).onCore c (fun x =>
    { x with tileTable := x.tileTable.filter (fun e => !(decide (e.1 < lo + len) && decide (lo < e.1 + 8))) })) s

/-- INVAL, R267: on the other dies that its scope reaches, by a multicast (R332). -/
def execInval (f : LA) (s : State) : Host.Outcome State Fault Refusal :=
  runSlot (.inval f) (cacheHurdle f) (fun s =>
    let k := s.issue.strand
    let parts := s.rangeParts f
    let (a, n) := s.range f
    let cores := (List.range 256).filter (fun c => s.inScope k f.at_.sc f.at_.nm c)
    let far := (cores.map (· / 64)).dedup.filter (· ≠ dieOf k)
    let s := (s.walkedRange f).invalCores parts a n (cores.filter (fun c => c / 64 = dieOf k))
    if far.isEmpty then s
    else ({ s with serial := s.serial + 1 } : State).multicast (dieOf k) far
      (.caches s.serial k f.at_.cls parts a n (cores.filter (fun c => c / 64 ≠ dieOf k)))) s

/-- The sectors of a part. -/
def sectorsOf (p : Nat × Nat) : List Nat :=
  if p.2 = 0 then [] else (List.range ((p.1 + p.2 - 1) / 64 - p.1 / 64 + 1)).map (fun i => p.1 / 64 + i)

/-- PREF waits for the walks of its pages; what cannot be translated is dropped (R102, R267). -/
def prefHurdle (f : LA) (s : State) : Option Hurdle :=
  match rangeHurdle f s with
  | some h => some h
  | none =>
    let (a, n) := s.range f
    (s.pageParts s.issue.strand a n).findSome? (fun p =>
      match s.walkNeeded s.issue.strand p.1 with
      | some root => some (.wait (.walking root (p.1 / 2 ^ 16)))
      | none => none)

/-- PREF, R267, R112: it fetches the cacheable sectors into L1 at core scope or below, and otherwise into L2 alone; what
cannot be translated is dropped without report. -/
def execPref (f : LA) (s : State) : Host.Outcome State Fault Refusal :=
  runSlot (.pref f) (prefHurdle f) (fun s =>
    let (a, n) := s.range f
    let k := s.issue.strand
    let parts := ((s.pageParts k a n).filterMap (fun p => (s.partSpan k p).toOption)).filter (·.cached)
    let secs := (parts.flatMap (fun p => sectorsOf (p.loc, p.len))).filter (fun sec => !s.sys.poison.contains sec)
    let wide := s.wide k f.at_.sc f.at_.nm
    secs.foldl (fun s sec => if wide then s.useL2 sec f.at_.ev else s.fillL1 s.myCore sec f.at_.ev) (s.walkedRange f)) s

/-! ## Code control (R70, R71, R187, R268) -/

/-- The rope heads that an IINVAL reaches (R268). -/
def State.iinvalRopes (s : State) (k sc nm : Nat) : List Nat :=
  let own := ropeOf k
  let gang := (s.gangOf k).ropes
  if sc ≤ 2 then [own]
  else if sc = 7 then
    own :: gang.filter (fun r => r ≠ own && fld (s.nsm k nm) (8 * r) 8 ≠ 0)
  else own :: gang.filter (· ≠ own)

/-- The overlap of a flat range with the image of a bank, as image offsets: first and length. -/
def imageOverlap (img a n : Nat) : Option (Nat × Nat) :=
  let lo := max a img
  let hi := min (a + n) (img + 2 ^ 18)
  if lo < hi then some (lo - img, hi - lo) else none

/-- Reloads begin in rope heads (R268). -/
def State.addReloads (s : State) (l : List Reload) (ropes : List Nat) : State :=
  ropes.foldl (fun s r => s.onRope r (fun x => { x with reloads := x.reloads ++ l })) s

/-- IINVAL, R267, R268: the reloads start, on other dies by a multicast, and end by RELOAD_COMPLETE. -/
def execIinval (f : LA) (s : State) : Host.Outcome State Fault Refusal :=
  runSlot (.iinval f) (rangeHurdle f) (fun s =>
    let k := s.issue.strand
    let (a, n) := s.range f
    let num := s.serial
    let after := s.podFork { f.at_ with sc := 6 }
    let one (b : Nat) : List Reload :=
      match imageOverlap (Table.get s.issue.pre.img 0 b) a n with
      | some (lo, len) => [{ num := num, strand := k, cls := f.at_.cls, bank := b, lo := lo, len := len, after := after }]
      | none => []
    let s := s.releaseLevel s.myCore 1
    let l := one 0 ++ one 1
    let ropes := s.iinvalRopes k f.at_.sc f.at_.nm
    let far := (ropes.map (· / 8)).dedup.filter (· ≠ dieOf k)
    let s := ({ s with serial := num + 1 } : State).addReloads l (ropes.filter (fun r => r / 8 = dieOf k))
    if far.isEmpty || l.isEmpty then s
    else s.multicast (dieOf k) far (.reloads num k f.at_.cls (ropes.filter (fun r => r / 8 ≠ dieOf k)) l)) s

/-- Replace a part of a sparse table of bytes by what memory holds from a location on. -/
def State.copyIn (s : State) (t : Table Byte) (at_ loc n : Nat) : Table Byte :=
  let mine := (s.mem.filter (fun c => decide (loc ≤ c.1) && decide (c.1 < loc + n))).map (fun c => (c.1 - loc + at_, c.2))
  t.filter (fun e => decide (e.1 < at_)) ++ mine ++ t.filter (fun e => decide (at_ + n ≤ e.1))

/-- The units of a bank that a range of image offsets overlaps, entries of 48 bytes and index words of 2: offset and
length (R70). -/
def imageUnits (lo len : Nat) : List (Nat × Nat) :=
  let hi := lo + len
  let entries := if lo < 0x30000 then
      (List.range ((min hi 0x30000 - 1) / 48 - lo / 48 + 1)).map (fun i => ((lo / 48 + i) * 48, 48))
    else []
  let words := if 0x30000 < hi then
      let a := max lo 0x30000
      (List.range ((hi - 1) / 2 - a / 2 + 1)).map (fun i => ((a / 2 + i) * 2, 2))
    else []
  entries ++ words

/-- A range of image offsets widened to whole units. -/
def wholeUnits (lo len : Nat) : Nat × Nat :=
  let hi := lo + len
  let lo' := if lo < 0x30000 then lo / 48 * 48 else lo / 2 * 2
  let hi' := if hi ≤ 0x30000 then cdiv hi 48 * 48 else cdiv hi 2 * 2
  (lo', hi' - lo')

/-- What a rope head of a die reads of a strand's space (R71, R268). -/
def State.ropePart (s : State) (r k : Nat) (p : Nat × Nat) : Except EngStop EngPart :=
  s.unitPart (8192 + r) (r / 8) (s.spaceOf k) false ((s.strand k).handler == .sup) p

/-- What keeps a unit of an image from being read: a page with no translation, or a poisoned sector (R268). -/
def State.unitBad (s : State) (r k img : Nat) (u : Nat × Nat) : Option (Nat × Nat) :=
  (s.pageParts k (img + u.1) u.2).findSome? (fun p =>
    match s.ropePart r k p with
    | .error _ => some (1, img + u.1)
    | .ok x => ((locsFrom x.loc x.len).find? (fun l => s.sys.poison.contains (l / 64))).map (fun l => (2, l)))

/-- Some page of a range cannot be read whole. -/
def State.partsBad (s : State) (r k : Nat) (parts : List (Nat × Nat)) : Bool :=
  parts.any (fun p => match s.ropePart r k p with
    | .error _ => true
    | .ok x => s.sys.poison.any (fun sec => overlaps [(x.loc, x.len)] sec))

/-- A rope head reads part of a bank's image: bytes, and the marks of what cannot be read (R71, R268). -/
def State.reload (s : State) (r k bank img lo len : Nat) : State :=
  let (a, n) := wholeUnits lo len
  let parts := s.pageParts k (img + a) n
  let copy := parts.foldl (fun t p =>
    match s.ropePart r k p with
    | .error _ => t
    | .ok x => s.copyIn t (copyAt bank (p.1 - img)) x.loc x.len) (s.rope r).copy
  let marks := if s.partsBad r k parts then
      (imageUnits a n).filterMap (fun u => (s.unitBad r k img u).map (fun m => (copyAt bank u.1, m)))
    else []
  s.onRope r (fun x => { x with
    copy := copy
    bad := x.bad.filter (fun e => decide (e.1 < copyAt bank a)) ++ marks ++
      x.bad.filter (fun e => decide (copyAt bank (a + n) ≤ e.1)) })

/-- What keeps parts of an image from being read yet: a page to be walked or on the move, a stack asleep, a line under repair,
or a page that the host has still to give and has not refused (R102, R105, R120, R415, R420). -/
def State.partsStop (s : State) (reach : Nat × Nat → Except EngStop EngPart) (refused : List Nat) (parts : List (Nat × Nat)) :
    Option EngStop :=
  parts.findSome? (fun p => match reach p with
    | .error .fail => none
    | .error (.miss va) => if refused.contains va then none else some (.miss va)
    | .error e => some e
    | .ok x => if s.sys.poison.any (fun sec => overlaps [(x.loc, x.len)] sec && s.repairable sec) then some .wait else none)

/-- The unit of a bank at an image offset: an entry of 48 bytes or an index word (R70). -/
def unitOf (o : Nat) : Nat × Nat := if o < 0x30000 then (o / 48 * 48, 48) else (o / 2 * 2, 2)

/-- What keeps a reload from reading the next unit of its range. -/
def State.reloadStop (s : State) (r : Nat) (l : Reload) (img : Nat) : Option EngStop :=
  s.partsStop (s.ropePart r l.strand) l.refused (s.pageParts l.strand (img + (unitOf l.lo).1) (unitOf l.lo).2)

/-- A reload that has taken the unit at its start goes on behind it, or is over. -/
def Reload.next (l : Reload) : Option Reload :=
  let hi := (unitOf l.lo).1 + (unitOf l.lo).2
  if l.lo + l.len ≤ hi then none else some { l with lo := hi, len := l.lo + l.len - hi }

/-- The copy takes one unit of a reload's range (R268). -/
def State.reloadUnit (s : State) (r idx : Nat) (l : Reload) (img : Nat) : State :=
  let s := s.reload r l.strand l.bank img (unitOf l.lo).1 (unitOf l.lo).2
  match l.next with
  | some m => s.onRope r (fun x => { x with reloads := listSet x.reloads idx m })
  | none => ((s.onRope r (fun x => { x with reloads := listDrop x.reloads idx })).forgetFound (8192 + r)).endFences l.strand

/-- RELOAD_COMPLETE, R268, R71: once the strand's earlier accesses of the class have performed, the rope head reads the
range, one entry or index word with each event and in rising order, so that a strand that has not waited for the reload may
meet new and old ones (R354; log entry 134). -/
def execReloadComplete (rope idx : Nat) (s : State) : Host.Outcome State Fault Refusal :=
  match (s.rope rope).reloads[idx]? with
  | none => .next s
  | some l =>
    let img := Table.get (s.strand l.strand).img 0 l.bank
    if !s.forkOver l.strand l.after then .next s
    else
      match s.reloadStop rope l img with
      | some (.miss va) => .next (s.askPage (8192 + rope) (rope / 8) (s.spaceOf l.strand) va 0)
      | some (.walk die root page sup) => .next (s.startWalk (8192 + rope) die root page sup)
      | some _ => .next s
      | none => .next (s.reloadUnit rope idx l img)

end Sys2Proof.Machine
end

