-- ==== Sys2Proof/Machine/Remote.lean ====
section
/-! DEFINITION. Remote access as its requester sees it: the ticket table, RLD, RST, RATOM, TICKWAIT, REPLAY, replies,
tickets, deadlines and notices, the egress map and the stations (R138 to R140, R269 to R273, R325 to R331, R408 to R412,
R423 to R430). -/

namespace Sys2Proof.Machine

/-! ## Sending (R325, R327, R425, R426) -/

/-- A request has been answered: by a reply, a ticket or its deadline. -/
def State.answered (s : State) (who tag : Nat) : State :=
  { s with fab := { s.fab with out := s.fab.out.filter (fun e => !(e.who == who && e.tag == tag)) } }

/-- A reply that no requester waits for any more: the request is answered, and one that has reached its deadline is counted
as late (R427, R429). -/
def State.lateReply (s : State) (who tag : Nat) : State :=
  if s.fab.out.any (fun e => e.who == who && e.tag == tag) then s.answered who tag else s.countStat 1 32 32

/-- The deadline of a request in cycles (R426). -/
def State.deadline (s : State) : Nat := max 1 s.fab.tmo * 1024

/-! ## The ticket table (R270) -/

/-- The accelerator and the export address that a fabric address names (R97, R121). -/
def fabricParts (a : Nat) : Nat × Nat := (fld a 50 10, fld a 0 50)

/-- A write of `n` bytes through the mask of a span that holds them (R325). -/
def maskedWrite (r : FabReq) (span : Nat × Nat) (addr n : Nat) : FabReq :=
  { r with op := 1, addr := span.1, len := span.2, data := r.data % 256 ^ n * 256 ^ (addr - span.1)
           mask := (2 ^ n - 1) * 2 ^ (addr - span.1) }

/-- The bytes of an entry's access at its owner: all that it names. -/
def Ticket.bytes (t : Ticket) : Nat :=
  match t.i with
  | .rld f => if f.fmt = 0 then 128 else fmtBytes f.fmt
  | .rst f => if f.fmt = 0 then 128 else fmtBytes f.fmt
  | .ratom f => fmtBytes f.fmt
  | _ => 0

/-- The request that an entry sends (R269, R325): a scalar load reads the 64-byte sector that holds its bytes, and a scalar
store writes its bytes there through the mask. -/
def Ticket.request (t : Ticket) (devid tag : Nat) : FabReq :=
  let addr := (fabricParts t.addr).2
  let sector := (addr / 64 * 64, 64)
  let base : FabReq :=
    { src := devid, who := t.strand, tag := tag, cls := t.cls, op := 0, addr := addr, len := 64, aop := 0, fmt := 0,
      data := t.data, cmp := t.cmp, poison := false, dxp := true }
  match t.i with
  | .rld f => if f.fmt = 0 then { base with len := 128 } else { base with addr := sector.1 }
  | .rst f => maskedWrite base (if f.fmt = 0 then (addr, 128) else sector) addr t.bytes
  | .ratom f => { base with op := 2, len := fmtBytes f.fmt, aop := f.k, fmt := f.fmt }
  | _ => base

/-- TINFO of a remote failure: a sub-code, the accelerator, the low bits of the export address (R410, R415, R427). -/
def remoteInfo (top addr : Nat) : Nat :=
  top * 2 ^ 56 + (fabricParts addr).1 * 2 ^ 46 + fld (fabricParts addr).2 0 46

/-- An entry fails: the firmware will kill the context with code 0x18 (R410, R427). -/
def State.failTicket (s : State) (c tag sub : Nat) : State :=
  match Table.find (s.core c).tickets tag with
  | none => s
  | some t =>
    let s := s.onCore c (fun x => { x with tickets := Table.erase x.tickets tag })
    s.onStrand t.strand (fun x =>
      { x with fw := x.fw.or (some (.kill 1 0x18 0 0 0x18 (remoteInfo sub t.addr) 0)) })

/-- Send the request of an entry, or fail it at once where its destination is unreachable, as if its deadline had passed
(R425, R427, R429). -/
def State.sendTicket (s : State) (c tag : Nat) : State :=
  match Table.find (s.core c).tickets tag with
  | none => s
  | some t =>
    if s.reachable t.owner then s.transmit t.owner (t.request s.devid tag)
    else (s.failTicket c tag 2).countStat 0 0 16

/-- An entry's access shares bytes with one of `n` bytes at an address. -/
def Ticket.meets (t : Ticket) (addr n : Nat) : Bool :=
  t.owner == (fabricParts addr).1 &&
  decide ((fabricParts t.addr).2 < (fabricParts addr).2 + n) && decide ((fabricParts addr).2 < (fabricParts t.addr).2 + t.bytes)

/-- The entries of a strand that a new access has to follow although no path orders it behind them: those of other classes that
share bytes with it, and those of its class and owner that have to follow such an entry themselves (R124, R125; log entry
133). -/
def State.mustFollow (s : State) (k addr n cls : Nat) : List (Nat × Ticket) :=
  (s.core (coreOf k)).tickets.filter (fun e => e.2.strand == k &&
    ((e.2.cls != cls && e.2.meets addr n) ||
      (e.2.cls == cls && e.2.owner == (fabricParts addr).1 && e.2.behind.isSome)))

/-- The destination of a tag is ticket-poisoned until the replayed result lands (R271). -/
def State.poisonDest (s : State) (k tag : Nat) : State :=
  s.onStrand k (fun x => { x with inflight := x.inflight.map (fun e =>
    if e.source = .remote ∧ e.tag = tag ∧ !e.landed then { e with ticketed := true } else e) })

/-- A remote access takes an entry and is sent: its tag, and the state after. One that has to follow an entry with a ticket holds
its own place as if it had one, and is ready when that entry has been answered (R124; log entry 133). -/
def State.remote (s : State) (i : Instr) (addr data cmp cls : Nat) : Nat × State :=
  let tag := s.serial
  let c := s.myCore
  let t : Ticket :=
    { strand := s.issue.strand, i := i, addr := addr, data := data, cmp := cmp, cls := cls, owner := (fabricParts addr).1 }
  let first := (s.mustFollow s.issue.strand addr t.bytes cls).getLast?.map (·.1)
  let last := (((s.core c).tickets.filter (fun e =>
    e.2.strand == s.issue.strand && e.2.cls == cls && e.2.owner == t.owner && e.2.ticketed)).getLast?.map (·.2.tnum)).getD 0
  let s := { s with serial := tag + 1 }
  match first with
  | none => (tag, (s.onCore c (fun x => { x with tickets := Table.set x.tickets tag t })).sendTicket c tag)
  | some b =>
    (tag, s.onCore c (fun x =>
      { x with tickets := Table.set x.tickets tag { t with ticketed := true, behind := some b, tnum := last } }))

/-- The destination of an access that has not been sent is ticket-poisoned. -/
def State.chained (s : State) (tag : Nat) : State :=
  match Table.find (s.core s.myCore).tickets tag with
  | some t => if t.ticketed then s.poisonDest s.issue.strand tag else s
  | none => s

/-- The checks and waits of a remote access (R124, R249, R270, R329): one that has to follow another waits until that is
answered or has a ticket. -/
def State.remoteHurdle (s : State) (a n : Nat) (at_ : Attr) : Option Hurdle :=
  match s.addrHurdle a n n [0x4] with
  | some h => some h
  | none =>
    match s.ordered at_ none with
    | some h => some h
    | none =>
      if 64 ≤ (s.core s.myCore).tickets.length then some (.wait .ticketTable)
      else if (s.mustFollow s.issue.strand a n at_.cls).any (fun e => !e.2.ticketed) then some (.wait .engineFull)
      else if s.pairWaits (fabricParts a).1 at_.cls then some (.wait .engineFull)
      else none

/-- Later accesses of its class wait for a remote acquire (R128). -/
def State.awaitAcquire (s : State) (tag : Nat) (at_ : Attr) : State :=
  if at_.ord = 1 ∨ at_.ord = 3 then
    s.onMe (fun x => { x with fences := x.fences ++
      [{ mask := 2 ^ at_.cls, tags := [tag], acq := true, level := s.level s.issue.strand at_.sc at_.nm }] })
  else s

/-- The bytes of a remote access's format: 128 for a vector. -/
def remoteBytes (fmt : Nat) : Nat := if fmt = 0 then 128 else fmtBytes fmt

/-- RLD's checks. -/
def rldHurdle (f : LA) (s : State) : Option Hurdle :=
  s.remoteHurdle (s.effective f.ab f.off) (remoteBytes f.fmt) f.at_

/-- RLD, R269, R270. -/
def execRld (f : LA) (s : State) : Host.Outcome State Fault Refusal :=
  runSlot (.rld f) (rldHurdle f) (fun s =>
    let (tag, s) := (s.acquiring f.at_).remote (.rld f) (s.effective f.ab f.off) 0 0 f.at_.cls
    let s := s.awaitAcquire tag f.at_
    (if f.fmt = 0 then s.laterVec f.d none .remote f.at_.lat tag
     else s.later (.s f.d) none .remote f.at_.lat tag).chained tag) s

/-- RST's checks. -/
def rstHurdle (f : LA) (s : State) : Option Hurdle :=
  s.remoteHurdle (s.effective f.ab f.off) (remoteBytes f.fmt) f.at_

/-- RST, R269. -/
def execRst (f : LA) (s : State) : Host.Outcome State Fault Refusal :=
  runSlot (.rst f) (rstHurdle f) (fun s =>
    let (v, s) := if f.fmt = 0 then s.readVec f.d else (s.rs f.d % 256 ^ fmtBytes f.fmt, s)
    ((s.releasing f.at_).remote (.rst f) (s.effective f.ab f.off) v 0 f.at_.cls).2) s

/-- RATOM's checks. -/
def ratomHurdle (f : LX) (s : State) : Option Hurdle := s.remoteHurdle (s.ra f.ab) (fmtBytes f.fmt) f.at_

/-- RATOM, R269: the compare operand of cas is the next scalar. -/
def execRatom (f : LX) (s : State) : Host.Outcome State Fault Refusal :=
  runSlot (.ratom f) (ratomHurdle f) (fun s =>
    let z := 256 ^ fmtBytes f.fmt
    let cmp := if f.k = 9 then s.rs (f.sb + 1) % z else 0
    let (tag, s) := ((s.releasing f.at_).acquiring f.at_).remote (.ratom f) (s.ra f.ab) (s.rs f.sb % z) cmp f.at_.cls
    ((s.awaitAcquire tag f.at_).later (.s f.d) none .remote f.at_.lat tag).chained tag) s

/-! ## Waiting for tickets and replaying them (R272, R273) -/

/-- The strand's entries that hold a ticket. -/
def Core.ticketed (c : Core) (k : Nat) : List (Nat × Ticket) :=
  c.tickets.filter (fun t => t.2.strand == k && t.2.ticketed)

/-- TICKWAIT's wait (R272). -/
def tickwaitHurdle (s : State) : Option Hurdle :=
  let l := (s.core s.myCore).ticketed s.issue.strand
  if l.isEmpty || l.any (fun t => t.2.ready) then none else some (.wait .ticket)

/-- TICKWAIT's word: INFL, OPEN, READY. -/
def State.tickWord (s : State) : Nat :=
  let k := s.issue.strand
  let c := s.core s.myCore
  let l := c.ticketed k
  (c.tickets.filter (fun t => t.2.unanswered k)).length * 2 ^ 32 + l.length * 2 ^ 16 +
  (l.filter (fun t => t.2.ready)).length

/-- TICKWAIT, R272: an acquire at pod scope over the classes of the entries that are ready. -/
def execTickwait (f : LQ) (s : State) : Host.Outcome State Fault Refusal :=
  runSlot (.tickwait f) (unlessMet tickwaitHurdle) (fun s =>
    let (w, s) := s.metOr (fun s => (s.tickWord, s))
    let s := if (s.core s.myCore).hasReady s.issue.strand then s.acquire s.issue.strand 6 0 else s
    s.later (.s f.s) (some w) .memory f.at_.lat 0) s

/-- Ticket number `a` does not come after `b`: both lie within the 64 that can be open (R330). -/
def ticketLe (a b : Nat) : Bool := decide ((b % 2 ^ 16 + 2 ^ 16 - a % 2 ^ 16) % 2 ^ 16 < 64)

/-- An entry comes before another of its owner and class in ticket order (R273). -/
def Ticket.before (t u : Ticket) : Bool :=
  t.owner == u.owner && t.cls == u.cls && ticketLe t.tnum u.tnum && t.tnum != u.tnum

/-- Insert an entry by ticket number, before the first that it precedes. -/
def byTicket (t : Nat × Ticket) : List (Nat × Ticket) → List (Nat × Ticket)
  | [] => [t]
  | u :: l => if t.2.before u.2 then t :: u :: l else u :: byTicket t l

/-- The ready entries of a strand, in ticket order within each owner and class (R273). -/
def Core.readyInOrder (c : Core) (k : Nat) : List (Nat × Ticket) :=
  ((c.ticketed k).filter (fun t => t.2.ready)).foldl (fun l t => byTicket t l) []

/-- Re-issue one entry with its original attributes (R273). -/
def State.replayOne (s : State) (c tag : Nat) : State :=
  (s.onCore c (fun x => match Table.find x.tickets tag with
    | none => x
    | some t =>
      let t := { t with ticketed := false, ready := false, replaying := true, told := none }
      { x with tickets := Table.set x.tickets tag t })).sendTicket c tag

/-- REPLAY's effect for a strand (R273). -/
def State.replayAll (s : State) (k : Nat) : State :=
  ((s.core (coreOf k)).readyInOrder k).foldl (fun s t => s.replayOne (coreOf k) t.1) s

/-- REPLAY, R273: the strand's next bundle waits for the re-issued accesses. -/
def execReplay (f : LQ) (s : State) : Host.Outcome State Fault Refusal :=
  runSlot (.replay f) free (fun s => s.replayAll s.issue.strand) s

/-! ## Replies to strands (R270, R410, R415) -/

/-- The position of the result in flight that waits for a tag. -/
def findTag (l : List InFlight) (tag : Nat) (i : Nat) : Option Nat :=
  match l with
  | [] => none
  | e :: t => if e.source = .remote ∧ e.tag = tag ∧ !e.landed then some i else findTag t tag (i + 1)

/-- The value that a reply brings to its destination (R254, R260, R269). -/
def Ticket.value (t : Ticket) (data : Nat) : Nat :=
  match t.i with
  | .rld f =>
    if f.fmt = 0 then data % 2 ^ 1024
    else extendTo64 f.fmt (fmtBytes f.fmt) (fld data (8 * ((fabricParts t.addr).2 % 64)) (fmtWidth f.fmt))
  | .ratom f => extendTo64 f.fmt (fmtBytes f.fmt) (data % 256 ^ fmtBytes f.fmt)
  | _ => 0

/-- An answered entry leaves the table, and one that had to follow it is ready (R124). -/
def Core.dropTicket (c : Core) (tag : Nat) : Core :=
  { c with tickets := (Table.erase c.tickets tag).map (fun e =>
      (e.1, if e.2.behind = some tag then { e.2 with behind := none, ready := true } else e.2)) }

/-- The value of a remote access lands, and its entry leaves the table. -/
def State.landRemote (s : State) (k tag v : Nat) : State :=
  let s := match findTag (s.strand k).inflight tag 0 with
    | some i => s.landAt k i v
    | none => s
  (s.onCore (coreOf k) (fun x => x.dropTicket tag)).endFences k

/-- A free value for the destination of a tag (R2, log entry 3). -/
def State.freeFor (s : State) (k tag : Nat) : Nat :=
  match findTag (s.strand k).inflight tag 0 with
  | none => 0
  | some i =>
    match (s.strand k).inflight[i]? with
    | some e => (Config.freeReg s.freeCount e.dest.code).toNat % 2 ^ destWidth e.dest
    | none => 0

/-- A reply reaches a strand's entry: data, an error, or poison (R270, R410, R415). -/
def State.replyToStrand (s : State) (k tag status data : Nat) : State :=
  let c := coreOf k
  match Table.find (s.core c).tickets tag with
  | none => s.lateReply k tag
  | some t =>
    if t.strand ≠ k ∨ t.ticketed then s.lateReply k tag
    else
      let s := s.answered k tag
      if status = 0 then s.landRemote k tag (t.value data)
      else if status = 3 then
        let s := ({ s with freeCount := s.freeCount + 1 } : State).landRemote k tag (s.freeFor k tag)
        s.onStrand k (fun x => { x with mxBad := x.mxBad.or (some (remoteInfo 7 t.addr)) })
      else s.failTicket c tag 0

/-- A ticket reaches a strand's entry (R271), whose notice may have come before it (R454); the eighth in a row fails it (R410). -/
def State.ticketToStrand (s : State) (k tag tnum : Nat) : State :=
  let c := coreOf k
  match Table.find (s.core c).tickets tag with
  | none => s.lateReply k tag
  | some t =>
    if t.strand ≠ k ∨ t.ticketed then s.lateReply k tag
    else
      let s := s.answered k tag
      let u := { t with ticketed := true, replaying := false, tnum := tnum % 2 ^ 16, chain := t.chain + 1,
                        ready := t.told.any (fun n => ticketLe (tnum % 2 ^ 16) n), told := none, ticketAt := s.cyc.toNat }
      let s := (s.onCore c (fun x => { x with tickets := Table.set x.tickets tag u })).poisonDest k tag
      if 8 ≤ t.chain + 1 then s.failTicket c tag 0 else s

/-! ## Replies to haul engines (R289, R427) -/

/-- Change the command of an engine that has an access with a tag. -/
def onAccess (tag : Nat) (f : Haul → EngAccess → Haul) (l : List Haul) : List Haul :=
  l.map (fun h => match h.pend.find? (fun a => a.tag = tag) with
    | some a => f h a
    | none => h)

/-- An engine has an access with a tag. -/
def Engine.hasTag (e : Engine) (tag : Nat) : Bool := e.run.any (fun h => h.pend.any (fun a => a.tag = tag))

/-- Drop an access from a command. -/
def Haul.drop (h : Haul) (tag : Nat) : Haul := { h with pend := h.pend.filter (fun a => a.tag ≠ tag) }

/-- The span that a read or a masked write over the fabric names for `n` bytes: 64, 128 or 256 bytes (R325). -/
def readSpan (addr n : Nat) : Nat × Nat :=
  let lo := addr / 64 * 64
  let len := (addr + n - 1) / 64 * 64 + 64 - lo
  if len ≤ 128 then (lo, len) else (addr / 256 * 256, 256)

/-- The request of an engine's access. -/
def EngAccess.request (a : EngAccess) (devid e cls : Nat) : FabReq :=
  let addr := (fabricParts a.addr).2
  let base : FabReq :=
    { src := devid, who := 1024 + e, tag := a.tag, cls := cls, op := 2, addr := addr, len := a.len, aop := 0, fmt := 11,
      data := a.data, cmp := 0, poison := false, dxp := true }
  if a.atomic then base
  else if a.write then maskedWrite base (readSpan addr a.len) addr a.len
  else { base with op := 0, addr := (readSpan addr a.len).1, len := (readSpan addr a.len).2 }

/-- Accesses of an engine's commands in a class to an owner that are out, answered by nothing or by a ticket. -/
def Engine.open_ (g : Engine) (owner cls : Nat) : Nat :=
  ((g.run.filter (fun h => h.at_.cls = cls)).flatMap (fun h => h.pend.filter (fun a =>
    a.sent && (fabricParts a.addr).1 == owner))).length

/-- Send an engine's first access that can leave: at most 64 of a pair are open at once (R289). -/
def State.sendOne (s : State) (e : Nat) : Option State :=
  let g := s.engine e
  (g.run.findSome? (fun h => (h.pend.find? (fun a =>
      !a.sent && decide (g.open_ (fabricParts a.addr).1 h.at_.cls < 64))).map (fun a => (h, a)))).map (fun r =>
    let owner := (fabricParts r.2.addr).1
    let out (h : Haul) (a : EngAccess) : Haul :=
      { h with pend := h.pend.map (fun b => if b.tag = a.tag then { b with sent := true } else b) }
    let fail (h : Haul) (_ : EngAccess) : Haul := { h with failed := true, pend := [] }
    if s.reachable owner then
      (s.transmit owner (r.2.request s.devid e r.1.at_.cls)).onEngine e (fun x =>
        { x with run := onAccess r.2.tag out x.run })
    else (s.onEngine e (fun x => { x with run := onAccess r.2.tag fail x.run })).countStat 0 0 16)

/-- Send what can be sent, at most `n` accesses. -/
def State.sendMany (s : State) (e : Nat) : Nat → State
  | 0 => s
  | n + 1 =>
    match s.sendOne e with
    | some t => t.sendMany e n
    | none => s

/-- Send all that an engine's accesses and its limit allow. -/
def State.engineSend (s : State) (e : Nat) : State :=
  s.sendMany e ((s.engine e).run.foldl (fun n h => n + h.pend.length) 0)

/-- The strands of a gang's ropes. -/
def Gang.strands (g : Gang) : List Nat := g.ropes.flatMap (fun r => (List.range 32).map (fun i => 32 * r + i))

/-- The gang is frozen: its strands that have not ended are Frozen (R46, R47). -/
def State.gangFrozen (s : State) (g : Gang) : Bool :=
  let l := g.strands.map (fun k => (s.strand k).st)
  l.contains .frozen && l.all (fun x => x == .frozen || x == .exited || x == .idle)

/-- PROG of a slot's gang counts, while the gang runs and is not frozen (R318). -/
def State.progress (s : State) (h n : Nat) : State :=
  match (s.slot h).queue, (s.slot h).gang with
  | some q, some g =>
    if (g.phase = .running ∨ g.phase = .freezing) ∧ !s.gangFrozen g then
      s.onQueue q (fun c => { c with prog := (c.prog + n) % 2 ^ 64 })
    else s
  | _, _ => s

/-- The destination bytes of an engine's access that an acknowledgement completes: the slot of its command, and their number. -/
def Engine.completes (e : Engine) (tag : Nat) : Option (Nat × Nat) :=
  e.run.findSome? (fun h => (h.pend.find? (fun a => a.tag == tag && a.write && !a.atomic)).map (fun a => (h.slot, a.len)))

/-- A reply reaches an engine's access: the command collects what its reads return, and counts the bytes that its
acknowledged writes have written, as PROG does (R288, R289, R318, R415). -/
def State.replyToEngine (s : State) (e tag status data : Nat) : State :=
  if (s.engine e).hasTag tag then
    let fail (h : Haul) (_ : EngAccess) : Haul := { h with failed := true, pend := [] }
    let done (h : Haul) (a : EngAccess) : Haul :=
      let h := h.drop tag
      if a.atomic then h
      else if a.write then { h with bytes := h.bytes + a.len }
      else
        let addr := (fabricParts a.addr).2
        let off := addr - (readSpan addr a.len).1
        { h with got := h.got ++ [(a.addr, toBytes a.len (data / 256 ^ off))] }
    let f := if status = 0 then done else fail
    let s := match if status = 0 then (s.engine e).completes tag else none with
      | some (h, n) => s.progress h n
      | none => s
    ((s.answered (1024 + e) tag).onEngine e (fun x => { x with run := onAccess tag f x.run })).engineSend e
  else s.lateReply (1024 + e) tag

/-- A ticketed access of an engine with a tag. -/
def Engine.ticketOf (e : Engine) (tag : Nat) : Option EngAccess :=
  e.run.findSome? (fun h => h.pend.find? (fun a => a.tag = tag))

/-- An access of an engine fails, and its command ends with ST = 1 (R289, R410, R427). -/
def State.failEngine (s : State) (e tag : Nat) : State :=
  let fail (h : Haul) (_ : EngAccess) : Haul := { h with failed := true, pend := [] }
  (s.answered (1024 + e) tag).onEngine e (fun x => { x with run := onAccess tag fail x.run })

/-- A ticket reaches an engine's access, which the engine holds (R289), and whose notice may have come before it (R454); the
eighth in a row fails it (R410). -/
def State.ticketToEngine (s : State) (e tag tnum : Nat) : State :=
  match (s.engine e).ticketOf tag with
  | none => s.lateReply (1024 + e) tag
  | some b =>
    let held (a : EngAccess) : EngAccess :=
      if a.tag = tag then
        { a with ticket := some (tnum % 2 ^ 16), ready := a.told.any (fun n => ticketLe (tnum % 2 ^ 16) n), told := none,
                 ticketAt := s.cyc.toNat, chain := a.chain + 1 }
      else a
    let hold (h : Haul) (_ : EngAccess) : Haul := { h with pend := h.pend.map held }
    if 8 ≤ b.chain + 1 then s.failEngine e tag
    else (s.answered (1024 + e) tag).onEngine e (fun x => { x with run := onAccess tag hold x.run })

/-! ## Replies to the device's own senders (R308, R346, R427) -/

/-- A group whose open commit waits for a delta with a tag. -/
def State.deltaGroup (s : State) (tag : Nat) : Option Nat :=
  (s.groups.find? (fun g => match g.2.commit with
    | some c => c.deltas.contains tag
    | none => false)).map (·.1)

/-- A delta is acknowledged, or fails with a cause (R346, R427). -/
def State.deltaDone (s : State) (tag : Nat) (cause : Nat) : State :=
  match s.deltaGroup tag with
  | none => s
  | some g => s.onGroup g (fun x => { x with commit := x.commit.map (fun c =>
      { c with deltas := c.deltas.filter (· ≠ tag), failed := if c.failed = 0 then cause else c.failed }) })

/-- The RATOM that adds a launch's DONEI has been answered (R308). -/
def State.addDone (s : State) (tag : Nat) : State :=
  { s with slots := s.slots.map (fun e => (e.1, { e.2 with gang := e.2.gang.map (fun g =>
      if g.doneTag = some tag then { g with doneTag := none } else g) })) }

/-- The read of a dependence's counter has been answered, or has failed with a status (R307, R327). -/
def State.depAnswered (s : State) (tag status data : Nat) : State :=
  { s with slots := s.slots.map (fun e => (e.1, { e.2 with gang := e.2.gang.map (fun g =>
      if g.depTag = some tag then { g with depTag := none, depGot := some (status, data) } else g) })) }

/-- The read of a dependence's counter has brought a ticket: the counter is read again (R307; log entry 100). -/
def State.depTicket (s : State) (tag : Nat) : State :=
  { s with slots := s.slots.map (fun e => (e.1, { e.2 with gang := e.2.gang.map (fun g =>
      if g.depTag = some tag then { g with depTag := none, depGot := none } else g) })) }

/-- A read of a row's job has been answered: its bytes are kept, or its member cannot be read, and the job begins again without
it (R416, R445). -/
def RowJob.answered (j : RowJob) (tag status data : Nat) : RowJob :=
  match j.reads.find? (fun r => r.tag == tag) with
  | none => j
  | some r =>
    if status = 0 then
      { j with reads := j.reads.map (fun x => if x.tag = tag then { x with data := some (toBytes 256 data) } else x) }
    else { j with bad := r.member :: j.bad, reads := [] }

/-- A read of the cairn engines has been answered (R416, R445). -/
def State.rowAnswered (s : State) (tag status data : Nat) : State :=
  { s with cairn := { s.cairn with jobs := s.cairn.jobs.map (fun j => j.answered tag status data) } }

/-- A job of the cairn engines awaits the answer to a request. -/
def State.rowTag (s : State) (tag : Nat) : Bool := s.cairn.jobs.any (fun j => j.reads.any (fun r => r.tag == tag))

/-- A launch of a slot awaits the answer to a request. -/
def State.launchTag (s : State) (tag : Nat) : Bool :=
  s.slots.any (fun e => e.2.gang.any (fun g => g.doneTag == some tag || g.depTag == some tag))

/-- A reply reaches its requester. -/
def State.reply (s : State) (who tag status data : Nat) : State :=
  if who < 1024 then s.replyToStrand who tag status data
  else if who < 1088 then s.replyToEngine (who - 1024) tag status data
  else if (s.deltaGroup tag).isSome || s.launchTag tag || s.rowTag tag then
    ((((s.answered who tag).deltaDone tag (if status = 0 then 0 else 3)).addDone tag).depAnswered tag status data).rowAnswered
      tag status data
  else s.lateReply who tag

/-- A ticket reaches its requester. -/
def State.ticketTo (s : State) (who tag tnum : Nat) : State :=
  if who < 1024 then s.ticketToStrand who tag tnum
  else if who < 1088 then s.ticketToEngine (who - 1024) tag tnum
  else (((s.answered who tag).addDone tag).depTicket tag).rowAnswered tag 2 0

/-- REMOTE_REPLY, R270, R410, R415: status 0 data or acknowledgement, 3 poison, any other an error completion. -/
def execRemoteReply (requester tag status data : Nat) (s : State) : Host.Outcome State Fault Refusal :=
  .next (s.reply requester tag status data)

/-- FAULT_TICKET, R271, R330. -/
def execFaultTicket (requester tag tnum : Nat) (s : State) : Host.Outcome State Fault Refusal :=
  .next (s.ticketTo requester tag tnum)

/-- An entry's ticket has had no notice for 2^26 CYC cycles, beside those in which its gang was saved (R410). -/
def Ticket.overdue (t : Ticket) (now : Nat) : Bool :=
  t.ticketed && !t.ready && !t.paused && t.behind.isNone && decide (t.ticketAt + 2 ^ 26 ≤ now)

/-- So for an access that an engine holds. -/
def EngAccess.overdue (a : EngAccess) (now : Nat) : Bool :=
  a.ticket.isSome && !a.ready && decide (a.ticketAt + 2 ^ 26 ≤ now)

/-- TICKET_TIMEOUT, R410: a ticket with no notice for 2^26 CYC cycles. -/
def execTicketTimeout (requester tag : Nat) (s : State) : Host.Outcome State Fault Refusal :=
  if requester < 1024 then
    match Table.find (s.core (coreOf requester)).tickets tag with
    | none => .next s
    | some t =>
      happens (t.strand == requester && t.overdue s.cyc.toNat) s
        (s.failTicket (coreOf requester) tag 0)
  else
    match (s.engine (requester - 1024)).ticketOf tag with
    | none => .next s
    | some a =>
      happens (a.overdue s.cyc.toNat) s
        (s.failEngine (requester - 1024) tag)

/-- A request that has left is past its deadline. -/
def State.overdueOut (s : State) (who tag : Nat) : Bool :=
  s.fab.out.any (fun e => e.who == who && e.tag == tag && decide (e.at_ + s.deadline ≤ s.cyc.toNat))

/-- The request is a record read, whose deadline its group keeps (R436). -/
def State.isAsked (s : State) (tag : Nat) : Bool := s.groups.any (fun g => g.2.asked.any (fun e => e.2.1 == tag))

/-- What a request leads to that gets no answer: sub-code 1 at its deadline, 2 where its destination is unreachable (R425,
R427). It is counted in TMO (R429). -/
def State.lapse (s : State) (who tag sub : Nat) : State :=
  let s := s.answered who tag
  (if who < 1024 then s.failTicket (coreOf who) tag sub
   else if who < 1088 then s.failEngine (who - 1024) tag
   else (((s.deltaDone tag 1).addDone tag).depAnswered tag 1 0).rowAnswered tag 1 0).countStat 0 0 16

/-- REQUEST_DEADLINE, R426, R427: of a request that has left its requester's queue and has no answer. -/
def execRequestDeadline (requester tag : Nat) (s : State) : Host.Outcome State Fault Refusal :=
  happens (s.overdueOut requester tag && !s.isAsked tag) s (s.lapse requester tag 1)

/-! ## Replay notices (R273, R289, R330, R412) -/

/-- A notice's requester: a strand's number, or 1,024 + an engine's. -/
def noticeFor (m : Msg) : Nat := if m.rk = 0 then 4 * m.core + m.sel % 4 else 1024 + m.core

/-- A notice readies an entry whose number it covers; one that is still to get its ticket keeps it (R330, R454). -/
def Ticket.notice (t : Ticket) (tnum : Nat) : Ticket :=
  if !t.ticketed then { t with told := some tnum }
  else if t.behind.isNone && ticketLe t.tnum tnum then { t with ready := true }
  else t

/-- A notice reaches the entries of a strand's owner and class. -/
def readyTickets (k src cls tnum : Nat) (c : Core) : Core :=
  { c with tickets := c.tickets.map (fun t =>
      if t.2.strand = k ∧ t.2.owner = src ∧ t.2.cls = cls then (t.1, t.2.notice tnum) else t) }

/-- A notice readies the accesses of an engine's owner and class up to its number. -/
def readyHauls (src cls tnum : Nat) (l : List Haul) : List Haul :=
  l.map (fun h =>
    if h.at_.cls = cls then
      { h with pend := h.pend.map (fun a =>
          if (fabricParts a.addr).1 ≠ src then a
          else
            match a.ticket with
            | some n => if ticketLe n tnum then { a with ready := true } else a
            | none => { a with told := some tnum }) }
    else h)

/-- The save area of a gang records a notice (R412). -/
def Gang.notice (who src cls tnum : Nat) (g : Gang) : Gang :=
  { g with saved := g.saved.map (fun v =>
      { v with cores := v.cores.map (fun c => (c.1, readyTickets who src cls tnum c.2)) }) }

/-- A replay notice arrives; one for a saved strand is recorded in the save area (R412). -/
def State.notice (s : State) (m : Msg) : State :=
  let cls := fld m.sel 4 4
  let who := noticeFor m
  let note (g : Gang) : Gang := g.notice who m.src cls m.tnum
  if m.rk = 0 then
    let s := s.onCore m.core (readyTickets who m.src cls m.tnum)
    { s with slots := s.slots.map (fun e => (e.1, { e.2 with gang := e.2.gang.map note }))
             queues := s.queues.map (fun e => (e.1, { e.2 with frozen := e.2.frozen.map note })) }
  else s.onEngine (who - 1024) (fun e => { e with run := readyHauls m.src cls m.tnum e.run })

/-- REPLAY_NOTICE, R330: KIND 3. -/
def execReplayNotice (msg : Msg) (s : State) : Host.Outcome State Fault Refusal :=
  .next (if msg.kind = 3 then s.notice msg else s.countStat 0 48 16)

/-! ## The egress map (R328, R329, R425) -/

/-- Pairs of a destination and a class that have requests under the old generation; the device itself is no destination of the
egress map (R327). -/
def State.openPairs (s : State) : List (Nat × Nat) :=
  ((s.fab.out.filter (fun e => e.dest != s.devid)).map (fun e => (e.dest, e.cls))).dedup

/-- A generation switch can begin: the other value of CUR while none is in progress. -/
def State.canSwitch (s : State) (gen : Nat) : Bool := !s.fab.busy && gen % 2 != s.fab.cur

/-- A generation switch begins (R329). -/
def State.switchEgress (s : State) (gen : Nat) : State :=
  let pairs := (s.fab.pairs ++ s.openPairs).dedup
  { s with fab := { s.fab with cur := gen % 2, pairs := pairs, busy := !pairs.isEmpty } }

/-- EGRESS_SWITCH, R329: writing the other value of CUR while no switch is in progress. -/
def execEgressSwitch (gen : Nat) (s : State) : Host.Outcome State Fault Refusal :=
  happens (s.canSwitch gen && !s.bootHeld) s (s.switchEgress gen)

/-- A held parcel leaves; where no station is left its request is answered at once (R329, R425). -/
def State.letGo (s : State) (dest : Nat) (p : Parcel) : State :=
  match p with
  | .request r => if s.reachable dest then s.leave dest p else s.lapse r.who r.tag 2
  | .message _ _ _ => s.leave dest p

/-- A pair switches: its held requests leave in issue order (R329). -/
def State.pairSwitch (s : State) (dest cls : Nat) : State :=
  let mine := s.fab.held.filter (fun h => decide (h.1 = dest) && decide (h.2.cls = cls))
  let pairs := s.fab.pairs.filter (fun p => p ≠ (dest, cls))
  let s := { s with fab := { s.fab with
    pairs := pairs, busy := s.fab.busy && !pairs.isEmpty
    held := s.fab.held.filter (fun h => !(decide (h.1 = dest) && decide (h.2.cls = cls))) } }
  mine.foldl (fun s h => s.letGo h.1 h.2) s

/-- A pair that waits can switch: its old requests are answered, or its destination has become unreachable (R329, R425). -/
def State.pairReady (s : State) (dest cls : Nat) : Bool :=
  s.fab.pairs.contains (dest, cls) && (!s.openPairs.contains (dest, cls) || !s.reachable dest)

/-- EGRESS_PAIR_SWITCH, R329. -/
def execEgressPairSwitch (dest cls : Nat) (s : State) : Host.Outcome State Fault Refusal :=
  happens (s.pairReady dest cls) s (s.pairSwitch dest cls)

/-! ## Stations (R423 to R425) -/

/-- Station `i`. -/
def State.station (s : State) (i : Nat) : Station := Table.get s.fab.stations {} i

/-- Replace a station. A change of the effective sets switches every pair whose station changes (R425). -/
def State.setStation (s : State) (i : Nat) (x : Station) : State :=
  let t := { s with fab := { s.fab with stations := Table.set s.fab.stations i x } }
  let moved := (s.fab.out.filter (fun e => e.dest != s.devid &&
    s.stationFor e.dest e.who e.cls != t.stationFor e.dest e.who e.cls)).map (fun e => (e.dest, e.cls))
  { t with fab := { t.fab with pairs := (t.fab.pairs ++ moved).dedup } }

/-- FLIT_REPLAY, R423; a corrected fault counts as a recoverable event (R369). -/
def execFlitReplay (station : Nat) (s : State) : Host.Outcome State Fault Refusal :=
  let x := s.station station
  happens (!x.ret) s (s.recoverable.setStation station { x with rpl := min (x.rpl + 1) (2 ^ 32 - 1) })

/-- A retrain begins: DOWN, the bucket and the counter rise; a bucket above its threshold retires (R423, R424). -/
def Station.retrain (x : Station) (now bthr : Nat) : Station :=
  let b := min (x.bkt + 1) 255
  let x := { x with down := true, bkt := b, rtr := min (x.rtr + 1) 65535, training := some now,
                    leakFrom := if x.bkt = 0 then now else x.leakFrom }
  if max 1 bthr < b then { x with ret := true, training := none } else x

/-- The last entries of a list, at most `n`. -/
def latest {α : Type} (n : Nat) : List α → List α
  | [] => []
  | a :: t => if t.length < n then a :: t else latest n t

/-- It is a vendor message. -/
def Sent.isMessage : Sent → Bool
  | .message _ _ _ => true
  | _ => false

/-- A station is retired: its replay buffer is discarded, and the messages that it held are counted as lost (R424, R427,
R429). -/
def State.retire (s : State) (i : Nat) (x : Station) : State :=
  let lost := x.replay.filter Sent.isMessage
  let s := lost.foldl (fun s _ => s.countStat 0 48 16) s
  (s.raiseBit (32 + i)).setStation i { x with ret := true, down := true, training := none, replay := [] }

/-- STATION_RETRAIN, R423, R424: the replay buffer keeps what has not been acknowledged (log entry 59). -/
def execStationRetrain (station : Nat) (s : State) : Host.Outcome State Fault Refusal :=
  let x := s.station station
  let y := { x.retrain s.cyc.toNat s.fab.bthr with
    replay := latest (Config.unacked s.freeCount) (s.fab.sent.filter (fun m => m.station == station)) }
  let t := { s with freeCount := s.freeCount + 1 }
  happens (!x.ret && !x.down) s (if y.ret then t.retire station y else t.setStation station y)

/-- RETRAIN_COMPLETE, R423: the station sends its replay buffer again, which loses and doubles nothing, and runs on. No station
comes up while FEN is 0, or trains after a failed verification (R424, R434). -/
def execRetrainComplete (station : Nat) (s : State) : Host.Outcome State Fault Refusal :=
  let x := s.station station
  happens (x.training.isSome && !x.ret && s.fab.fen && !s.bootHeld) s
    (s.setStation station { x with down := false, training := none, replay := [] })

/-- A retrain has run for 2^24 cycles. -/
def Station.overdue (x : Station) (now : Nat) : Bool :=
  match x.training with
  | some t => decide (t + 2 ^ 24 ≤ now)
  | none => false

/-- RETRAIN_TIMEOUT, R423: the station is retired. -/
def execRetrainTimeout (station : Nat) (s : State) : Host.Outcome State Fault Refusal :=
  let x := s.station station
  happens (x.overdue s.cyc.toNat && !x.ret) s (s.retire station x)

/-- The first of what waits in the egress queues that can leave (R326, R332, R423). -/
def State.egressReady (s : State) : Option (Outgoing × Nat) :=
  s.fab.egressQ.zipIdx.find? (fun e => s.canDepart (s.fab.egressQ.take e.2) e.1.die e.1.item)

/-- It leaves. -/
def State.egressLeaves (s : State) (i : Nat) (x : Outgoing) : State :=
  { s with fab := { s.fab with sent := s.fab.sent ++ [x.item], egressQ := listDrop s.fab.egressQ i } }

/-- A reply or a control message has waited for one deadline of TMO (R430). -/
def State.stale (s : State) (x : Outgoing) : Bool := x.item.kind != 0 && decide (x.at_ + s.deadline ≤ s.cyc.toNat)

/-- REPLY_EGRESS_DISCARD, R430: a reply or control message that has not left its station's queue within a deadline of TMO is
discarded. -/
def execReplyEgressDiscard (idx : Nat) (s : State) : Host.Outcome State Fault Refusal :=
  match s.fab.egressQ[idx]? with
  | none => .next s
  | some x =>
    happens (s.stale x) s
      (({ s with fab := { s.fab with egressQ := listDrop s.fab.egressQ idx } } : State).countStat 1 0 32)

/-- BUCKET_LEAK, R424: every LEAK x 2^20 cycles while the bucket is above zero; a retired station does not leak. -/
def execBucketLeak (station : Nat) (s : State) : Host.Outcome State Fault Refusal :=
  let x := s.station station
  let next := x.leakFrom + s.fab.leak * 2 ^ 20
  happens (!x.ret && decide (0 < x.bkt) && decide (0 < s.fab.leak) && decide (next ≤ s.cyc.toNat)) s
    (s.setStation station { x with bkt := x.bkt - 1, leakFrom := next })

/-- A retired station begins again: RET and BKT are cleared and it retrains (R424). -/
def State.clearRet (s : State) (i : Nat) : State :=
  s.setStation i { s.station i with ret := false, bkt := 0, training := some s.cyc.toNat }

/-- STATION_RET_CLEAR, R424: writing 1 to RET clears retirement and starts a retrain. -/
def execStationRetClear (station : Nat) (s : State) : Host.Outcome State Fault Refusal :=
  happens ((s.station station).ret && s.clears (32 + station) && !s.bootHeld) s (s.clearRet station)

/-- A write of LNKCFG: FEN trains every station that is not retired, or takes all of them down (R424). -/
def State.writeLnkcfg (s : State) (v : Nat) : State :=
  let fen := bitAt v 63
  let one (x : Station) : Station :=
    if fen && !s.fab.fen then (if x.ret then x else { x with training := some s.cyc.toNat })
    else if fen then x
    else { x with down := true, training := none }
  { s with fab := { s.fab with
      fen := fen, bthr := fld v 32 8, leak := fld v 0 32
      stations := if fen = s.fab.fen then s.fab.stations
                  else (List.range 24).map (fun i => (i, one (s.station i))) } }

/-- FABRIC_ENABLE_WRITE, R424; after a failed verification the register ignores writes (R434). -/
def execFabricEnableWrite (value : Nat) (s : State) : Host.Outcome State Fault Refusal :=
  happens (!s.bootHeld) s (s.writeLnkcfg value)

end Sys2Proof.Machine
end

