-- ==== Sys2Proof/Machine/Landing.lean ====
section
/-! DEFINITION. Landing of results, entry into traps, rollback for soft errors, and stream ports with the engine's work
for them (R34, R37, R42, R54, R135, R274 to R276, R371, R375, R376, R422). -/

namespace Sys2Proof.Machine

/-! ## Results (R34, R37) -/

/-- The result can land now by an event: a variable-latency one whose producer has its value. One that is kept from
landing by its bound can land on a later cycle (R37). -/
def InFlight.canLand (e : InFlight) (now : Nat) : Bool :=
  e.source == .memory && e.value.isSome && !e.landed && !e.ticketed &&
  (!e.exposed || e.lands.isSome || (e.late && decide (e.due < now)))

/-- RESULT_LAND, R34, R251. -/
def execResultLand (strand idx : Nat) (s : State) : Host.Outcome State Fault Refusal :=
  match (s.strand strand).inflight[idx]? with
  | none => .next s
  | some e => happens (e.canLand s.cycle) s (s.landAt strand idx (e.value.getD 0))

/-- POISON_AT_BOUND, R37: the result does not land by its bound. -/
def execPoisonAtBound (strand idx : Nat) (s : State) : Host.Outcome State Fault Refusal :=
  match (s.strand strand).inflight[idx]? with
  | none => .next s
  | some e =>
    happens (e.exposed && e.source != .fixed && !e.landed && !e.ticketed) s
      (s.onStrand strand (fun x => { x with
        inflight := listSet x.inflight idx { e with lands := none, late := e.late || decide (e.due ≤ s.cycle) } }))

/-! ## Traps and rollbacks (R42, R371, R373, R375, R376) -/

/-- TRAP_ENTRY, R371: the entry completes once every result can land. A trap in a handler state never has one: the
context is killed when it is taken (R373). -/
def execTrapEntry (strand : Nat) (s : State) : Host.Outcome State Fault Refusal :=
  happens ((s.strand strand).trapping.isSome && s.drained strand) s (s.finishTrap strand)

/-- An error counter block (R417). -/
def State.errUnit (s : State) (u : Nat) : ErrUnit := Table.get s.plat.errs {} u

/-- Change one. -/
def State.onErr (s : State) (u : Nat) (f : ErrUnit → ErrUnit) : State :=
  { s with plat := { s.plat with errs := Table.set s.plat.errs u (f (s.errUnit u)) } }

/-- The error counter of a location (R417): a stack's or a channel's. -/
def errUnitOf (pa : Nat) : Nat := if isHbm pa then pa / 2 ^ 36 else 8 + pa / 2 ^ 12 % 16

/-- The error counter of an L2 slice's or staging memory's die. -/
def dieUnitOf (loc : Nat) : Nat := 24 + homeDie loc

/-- An error has been corrected: it is counted, and it is a recoverable event (R348, R369, R414, R417, R422). -/
def State.corrected (s : State) (u : Nat) : State := s.recoverable.onErr u (fun x => { x with ce := min (x.ce + 1) (2 ^ 24 - 1) })

/-- An uncorrectable error is counted (R417). -/
def State.uncorrected (s : State) (u : Nat) : State := s.onErr u (fun x => { x with ue := min (x.ue + 1) (2 ^ 16 - 1) })

/-- A sector is stored with a poison code (R414). -/
def State.poisonSector (s : State) (sec : Nat) : State :=
  if s.sys.poison.contains sec then s else { s with sys := { s.sys with poison := sec :: s.sys.poison } }

/-- An uncorrectable error in a sector of the HBM or of the low-power DRAM poisons it; a value that L2 holds Dirty is written over
it (R414). -/
def State.dramError (s : State) (sec : Nat) : State :=
  let s := s.uncorrected (errUnitOf (64 * sec))
  if (Table.find s.sys.below sec).isSome then s else s.poisonSector sec

/-- One in a core's L1: a Dirty sector is written home as a poisoned one, a Clean one is dropped and fetched again (R414,
R422). -/
def State.l1Error (s : State) (c sec : Nat) : State :=
  if (s.core c).l1Dirty.contains sec then
    (((s.cleanL1 c sec).onCore c (fun x => x.dropSector sec)).poisonSector sec).uncorrected (24 + c / 64)
  else if (Table.find (s.core c).l1 sec).isSome then (s.onCore c (fun x => x.dropSector sec)).corrected (24 + c / 64)
  else s

/-- One in an L2 slice or in staging memory: a Clean sector is fetched again, a Dirty one or one of staging memory is
poisoned (R414, R422). -/
def State.l2Error (s : State) (sec : Nat) : State :=
  if isStaging (64 * sec) then (s.poisonSector sec).uncorrected (dieUnitOf (64 * sec))
  else if (Table.find s.sys.below sec).isSome then ((s.cleanL2 sec).poisonSector sec).uncorrected (dieUnitOf (64 * sec))
  else (s.dropL2 sec).corrected (dieUnitOf (64 * sec))

/-- One in a rope head's copy: the entry or word at an offset of a bank is loaded again from its image (R422). The reload has no
class, since no instruction has asked for it. -/
def State.copyError (s : State) (k loc : Nat) : State :=
  let s : State := { s with serial := s.serial + 1 }
  (s.onRope (ropeOf k) (fun x => { x with reloads := x.reloads ++
    [{ num := s.serial, strand := k, cls := 16, bank := loc / 2 ^ 18, lo := loc % 2 ^ 18, len := 1 }] })).corrected (24 + dieOf k)

/-- One in a TLB or a tile-table cache: the entries for an address of a strand's space are dropped without report (R422). -/
def State.tlbError (s : State) (k va : Nat) : State :=
  let gone (e : TlbEntry) : Bool := match s.spaceOf k with
    | some (.device root) => e.covers root va
    | some (.host pasid) => e.coversHost pasid va
    | none => false
  let s : State := { s with sys := { s.sys with tlb := s.sys.tlb.filter (fun e => !(e.die == dieOf k && gone e)) } }
  s.onCore (coreOf k) (fun c => { c with
    tlb := c.tlb.filter (fun e => !gone e), tileTable := c.tileTable.filter (fun e => e.1 != va) })

/-- One in a ticket table or an engine's buffer: the context is killed with CODE 0x19 (R422). -/
def State.bufferError (s : State) (k : Nat) : State :=
  (s.uncorrected (24 + dieOf k)).onStrand k (fun x => { x with fw := if x.doomed then x.fw else some (.kill 1 0x19 0 0 0x19 0 0) })

/-- The instruction itself reads the register, scratchpad word or tile of a soft error; what an mx command reads, it reads
after its bundle (R42, R64, R230, R376). -/
def readsAt (kind loc : Nat) (i : Instr) : Bool :=
  match kind with
  | 0 => i.reads.any (fun d => d.code == loc)
  | 1 => i.slotKind == some .mem && i.accessMask != 0 && i.storeMask == 0
  | 2 => match i with
    | .mdrain f => f.acc == loc
    | _ => false
  | _ => false

/-- The slot in whose read an error is found: of the strand's next bundle, if that can issue at a cycle; or 6 (R64, R376). -/
def Strand.erringSlot (x : Strand) (kind loc now : Nat) : Nat :=
  match x.queue with
  | f :: _ =>
    if now < max x.ready (max f.at_ (x.lastIssue + f.what.dly)) then 6 else
    match f.what with
    | .bits w => ((bundleSlots w).findSome? (fun e => match e.2.2 with
        | .ok i => if readsAt kind loc i then some e.1 else none
        | .error _ => none)).getD 6
    | _ => 6
  | [] => 6

/-- The strand can trap or be rolled back: it is Attached or Detached (R49). -/
def Strand.active (x : Strand) : Bool :=
  (x.st == .attached || x.st == .detached) && x.trapping.isNone && !x.rolling

/-- A rollback for a soft error is a recoverable event, and its die's REP counts it (R348, R376, R417, R422). -/
def State.countRollback (s : State) (k : Nat) : State :=
  s.recoverable.onErr (24 + dieOf k) (fun u => { u with rep := min (u.rep + 1) 255 })

/-- A soft error meets a strand (R376, R422): kind 0 register, 1 scratchpad, 2 tile, 3 latch, 4 shadow slot, 5 gate
entry. The first at a register or a word rolls back; what cannot be rebuilt traps. -/
def State.softError (s : State) (k kind loc : Nat) : State :=
  let x := s.strand k
  if 2 ≤ kind || x.softErrs.contains (kind, loc) then
    s.takeTrap k (x.bank * 2 ^ 16 + x.pc) [{ slot := x.erringSlot kind loc s.cycle, cause := .softError, info := kind * 2 ^ 56 + loc % 2 ^ 56 }]
  else
    let s := s.onStrand k (fun x => { x with softErrs := (kind, loc) :: x.softErrs })
    (s.countRollback k).rollBack k

/-- A soft error in another store than those of TINFO's kinds (R414, R422): kind 7 L1, 8 an L2 slice or staging memory, 9 a rope
head's copy, 10 a TLB or a tile-table cache, 11 a ticket table or an engine's buffer, 12 a sector of DRAM; and errors that have
been corrected: 16 in DRAM, and 17 in a store of the strand's die. -/
def State.storeError (s : State) (k kind loc : Nat) : State :=
  match kind with
  | 7 => s.l1Error (coreOf k) loc
  | 8 => s.l2Error loc
  | 9 => s.copyError k loc
  | 10 => s.tlbError k loc
  | 11 => s.bufferError k
  | 12 => s.dramError loc
  | 16 => s.corrected (errUnitOf (64 * loc))
  | 17 => s.corrected (24 + dieOf k)
  | _ => s

/-- ROLLBACK, R42, R375, R376, R422: a soft error of a kind at a location, of which kind 6 is a decoded-bundle queue's and rolls
the strand back too; or, for kinds from 32 on, the end of a rollback that waits for results. -/
def execRollback (strand kind loc : Nat) (s : State) : Host.Outcome State Fault Refusal :=
  if kind ≤ 5 then happens (s.strand strand).active s (s.softError strand kind loc)
  else if kind = 6 then happens (s.strand strand).active s ((s.countRollback strand).rollBack strand)
  else if kind < 32 then .next (s.storeError strand kind loc)
  else happens ((s.strand strand).rolling && s.drained strand) s (s.finishRollback strand)

/-! ## Stream ports (R54, R135, R274 to R276) -/

/-- A descriptor's fields (R274). -/
structure StreamDesc where
  base : Nat
  ndm : Nat
  eng : Nat
  counts : List Nat
  strides : List Int
  rest : Nat
deriving DecidableEq, Repr

/-- Read a descriptor from its 64 bytes. -/
def streamDescOf (v : Nat) : StreamDesc :=
  { base := fld v 0 64
    ndm := fld v 68 2
    eng := fld v 64 4
    counts := [0, 1, 2, 3].map (fun d => fld v (128 + 64 * d) 32)
    strides := [0, 1, 2, 3].map (fun d => sgn 32 (fld v (160 + 64 * d) 32))
    rest := fld v 384 128 }

/-- The least and the greatest offset of a stream's vectors from its base. -/
def StreamDesc.reach (d : StreamDesc) : Int × Int :=
  (d.counts.zip d.strides).foldl (fun r e =>
    let far : Int := ((max e.1 1 : Nat) - 1 : Int) * e.2
    (r.1 + min 0 far, r.2 + max 0 far)) (0, 0)

/-- The size and the offset of the memory that a stream's base names (R274). -/
def State.streamRoom (s : State) (k base : Nat) : Nat × Nat :=
  if addrKind base = 0x8 then (s.spmSize (coreOf k), fld base 0 23)
  else (s.stagingSize (fld base 22 6), fld base 0 22)

/-- A descriptor is legal (R274, R399). -/
def State.streamOk (s : State) (k : Nat) (d : StreamDesc) : Bool :=
  let used := d.ndm + 1
  let (room, off) := s.streamRoom k d.base
  let (lo, hi) := d.reach
  !s.badAddr k d.base 128 128 [0x8, 0xC] && d.rest == 0 &&
  (d.counts.take used).all (fun c => c != 0) && (d.counts.drop used).all (fun c => c == 0) &&
  (d.strides.drop used).all (fun c => c == 0) && d.strides.all (fun c => c % 128 == 0) &&
  decide (0 ≤ (off : Int) + lo) && decide ((off : Int) + hi + 128 ≤ (room : Int))

/-- The descriptor that SBIND names, as the strand sees memory. -/
def State.streamDesc (s : State) (a : Nat) : StreamDesc :=
  streamDescOf (ofBytes ((s.pieces a 64 false .data).map (s.loadByte s.issue.strand)))

/-- SBIND's checks (R275, R399): a bound port is judged without the descriptor. -/
def sbindHurdle (f : LQ) (s : State) : Option Hurdle :=
  let a := s.ra f.ab
  let bad (b : Bool) : Option Hurdle := if b then some (.fault .badStreamOrPort (Instr.encode (.sbind f))) else none
  firstHurdle
    [s.addrHurdle a 64 64 [0x0, 0x8],
     bad (Table.find s.issue.pre.ports f.q).isSome,
     (s.accessHurdle a 64 64 [0x0, 0x8] false .data).or (bad (!s.streamOk s.issue.strand (s.streamDesc a)))]

/-- SBIND, R275. -/
def execSbind (f : LQ) (s : State) : Host.Outcome State Fault Refusal :=
  runSlot (.sbind f) (sbindHurdle f) (fun s =>
    let a := s.ra f.ab
    let d := s.streamDesc a
    let p : StreamPort :=
      { write := f.dir = 1, base := d.base, eng := d.eng, counts := d.counts.take (d.ndm + 1),
        strides := d.strides.take (d.ndm + 1), at_ := f.at_, fork := s.podFork f.at_ }
    ((s.releaseLevel s.myCore (if f.at_.sc = 6 then 2 else 0)).walked a 64).onMe (fun x => { x with ports := Table.set x.ports f.q p })) s

/-- SDONE of a write-bound port: it is a release of the stream's class and scope, and waits until every vector written has
performed (R127, R135, R140, R276). -/
def sdoneHurdle (f : LQ) (s : State) : Option Hurdle :=
  match Table.find s.issue.pre.ports f.q with
  | none => none
  | some p =>
    if p.write then firstHurdle
      [s.releaseHurdle (2 ^ p.at_.cls) p.at_.sc p.at_.nm, if p.buf.isEmpty then none else some (.wait .engineFull)]
    else none

/-- SDONE, R276. Its release at a named scope reads the mask as SDONE issues, not as SBIND did (R59; log entry 123). -/
def execSdone (f : LQ) (s : State) : Host.Outcome State Fault Refusal :=
  runSlot (.sdone f) (sdoneHurdle f) (fun s =>
    let s := match Table.find s.issue.pre.ports f.q with
      | some p => if p.write then s.releaseAt s.issue.strand (2 ^ p.at_.cls) p.at_.sc p.at_.nm else s
      | none => s
    s.onMe (fun x => { x with ports := Table.erase x.ports f.q })) s

/-- The offset of vector `n` of a stream from its base: mixed radix, dimension 0 fastest (R274). -/
def streamOffset : List Nat → List Int → Nat → Int
  | c :: cs, z :: zs, n => (n % c : Nat) * z + streamOffset cs zs (n / c)
  | _, _, _ => 0

/-- The vectors of a stream. -/
def StreamPort.total (p : StreamPort) : Nat := p.counts.foldl (· * ·) 1

/-- The location of the next vector that the engine moves, once a link reaches it (R16, R275). -/
def State.streamLoc (s : State) (k : Nat) (p : StreamPort) : Option Nat :=
  let a := wrap 64 ((p.base : Int) + streamOffset p.counts p.strides p.moved)
  match s.reach k a 128 p.write .data with
  | .ok (x :: _) => some x.loc
  | _ => none

/-- The engine can deliver the next vector of a read-bound port (R275). -/
def StreamPort.canFill (p : StreamPort) : Bool :=
  !p.write && decide (p.buf.length < 8) && decide (p.moved < p.total)

/-- The first poisoned location of a range, if any. -/
def State.poisonIn (s : State) (loc n : Nat) : Option Nat :=
  (locsFrom loc n).find? (fun l => decide (l < 2 ^ 48) && s.sys.poison.contains (l / 64))

/-- The serving engine delivers the next vector; a poisoned staging sector traps the strand before its next bundle
(R415). -/
def State.fillPort (s : State) (k q : Nat) (p : StreamPort) (loc : Nat) : State :=
  let v : Place := { id := s.serial, val := some (BitVec.ofNat 1024 (s.num loc 128)) }
  ({ s with serial := s.serial + 1 } : State).onStrand k (fun x => { x with
    ports := Table.set x.ports q { p with moved := p.moved + 1, buf := p.buf ++ [v] }
    mxBad := x.mxBad.or ((s.poisonIn loc 128).map (fun l => 6 * 2 ^ 56 + l)) })

/-- STREAM_PORT_FILL, R275. -/
def execStreamPortFill (strand port : Nat) (s : State) : Host.Outcome State Fault Refusal :=
  match Table.find (s.strand strand).ports port with
  | none => .next s
  | some p =>
    match s.streamLoc strand p with
    | none => .next s
    | some loc => happens (p.canFill && s.forkOver strand p.fork) s (s.fillPort strand port p loc)

/-- The vector that a write-bound port can perform next. -/
def StreamPort.canDrain (p : StreamPort) : Option Vec :=
  if p.write then
    match p.buf with
    | b :: _ => b.val
    | [] => none
  else none

/-- The serving engine performs the next vector written. -/
def State.drainPort (s : State) (k q : Nat) (p : StreamPort) (v : Vec) (loc : Nat) : State :=
  (s.writeHome ((locsFrom loc 128).zip (toBytes 128 v.toNat)) []).onStrand k (fun x => { x with
    ports := Table.set x.ports q { p with moved := p.moved + 1, buf := p.buf.drop 1 } })

/-- STREAM_PORT_DRAIN, R135. -/
def execStreamPortDrain (strand port : Nat) (s : State) : Host.Outcome State Fault Refusal :=
  match Table.find (s.strand strand).ports port with
  | none => .next s
  | some p =>
    match p.canDrain, s.streamLoc strand p with
    | some v, some loc => happens (s.forkOver strand p.fork) s (s.drainPort strand port p v loc)
    | _, _ => .next s

end Sys2Proof.Machine
end

