-- ==== Sys2Proof/Machine/Flags.lean ====
section
/-! DEFINITION. Floating-point formats (R73), rounding (R78, R79), and every flag computation of R65, R75, R77, R82. -/

namespace Sys2Proof.Machine

/-! ## Flag bits (R65) -/

/-- NV, invalid. -/
def flNV : Nat := 1
/-- OF, overflow. -/
def flOF : Nat := 2
/-- UF, underflow. -/
def flUF : Nat := 4
/-- NX, inexact. -/
def flNX : Nat := 8
/-- NAN, a NaN from non-NaN inputs. -/
def flNAN : Nat := 16

/-- A flag if its condition holds. -/
def flagIf (c : Bool) (f : Nat) : Nat := if c then f else 0

/-! ## Formats (R73) -/

/-- What a format has at its all-ones exponent: infinity and NaN, NaN at one pattern only, or finite values. -/
inductive Top where
  | ieee
  | nanOnly
  | finite
deriving DecidableEq, Repr

/-- A floating-point format: width, fraction bits, bias, and its all-ones exponent. -/
structure FpFmt where
  w : Nat
  m : Nat
  bias : Nat
  top : Top
  /-- E5M2 saturates although it has infinity (R82) -/
  saturates : Bool
deriving DecidableEq, Repr

/-- The float formats of FMT codes 0 to 7 (R73, R108). -/
def fpFmt (c : Nat) : FpFmt :=
  match c with
  | 0 => ⟨32, 23, 127, .ieee, false⟩
  | 1 => ⟨16, 10, 15, .ieee, false⟩
  | 2 => ⟨16, 7, 127, .ieee, false⟩
  | 3 => ⟨8, 2, 15, .ieee, true⟩
  | 4 => ⟨8, 3, 7, .nanOnly, true⟩
  | 5 => ⟨6, 2, 3, .finite, true⟩
  | 6 => ⟨6, 3, 1, .finite, true⟩
  | _ => ⟨4, 1, 1, .finite, true⟩

/-- binary32. -/
def f32 : FpFmt := fpFmt 0

/-- The all-ones biased exponent. -/
def FpFmt.ones (f : FpFmt) : Nat := 2 ^ (f.w - 1 - f.m) - 1

/-- The exponent of the smallest normal. -/
def FpFmt.emin (f : FpFmt) : Int := 1 - (f.bias : Int)

/-- The magnitude pattern of the largest finite value (R73). -/
def FpFmt.maxBits (f : FpFmt) : Nat :=
  match f.top with
  | .ieee => f.ones * 2 ^ f.m - 1
  | .nanOnly => 2 ^ (f.w - 1) - 2
  | .finite => 2 ^ (f.w - 1) - 1

/-- The magnitude pattern of infinity, where the format has one. -/
def FpFmt.infBits (f : FpFmt) : Nat := f.ones * 2 ^ f.m

/-- A pattern with its sign. -/
def FpFmt.signed (f : FpFmt) (neg : Bool) (mag : Nat) : Nat := (if neg then 2 ^ (f.w - 1) else 0) + mag

/-- The canonical NaN (R75). -/
def FpFmt.canonical (f : FpFmt) : Nat :=
  match f.top with
  | .ieee => f.infBits + 2 ^ (f.m - 1)
  | .nanOnly => 2 ^ (f.w - 1) - 1
  | .finite => 0

/-! ## Exact values and rounding -/

/-- An exact non-negative magnitude with a sign: num / den x 2^exp. -/
structure Exact where
  neg : Bool
  num : Nat
  den : Nat
  exp : Int
deriving DecidableEq, Repr

/-- The exponent of the leading bit of num / den x 2^exp. -/
def Exact.lead (x : Exact) : Int :=
  let l : Int := (Nat.log2 x.num : Int) - (Nat.log2 x.den : Int)
  let fits := if 0 ≤ l then decide (x.den * 2 ^ l.toNat ≤ x.num) else decide (x.den ≤ x.num * 2 ^ (-l).toNat)
  (if fits then l else l - 1) + x.exp

/-- |x| / 2^q as a quotient and a remainder over a divisor. -/
def Exact.scaled (x : Exact) (q : Int) : Nat × Nat × Nat :=
  let d := x.exp - q
  let n := if 0 ≤ d then x.num * 2 ^ d.toNat else x.num
  let m := if 0 ≤ d then x.den else x.den * 2 ^ (-d).toNat
  (n / m, n % m, m)

/-- Round a quotient with its remainder to an integer magnitude: modes of R78, stochastic by R79 with the 32-bit
draw `r`. -/
def roundInt (rm : Nat) (neg : Bool) (n rem den r : Nat) : Nat :=
  if rem = 0 then n
  else
    match rm with
    | 0 => if den < 2 * rem ∨ (2 * rem = den ∧ n % 2 = 1) then n + 1 else n
    | 1 => n
    | 2 => if neg then n else n + 1
    | 3 => if neg then n + 1 else n
    | _ => if r < rem * 2 ^ 32 / den then n + 1 else n

/-- Round an exact value to an integer magnitude and say whether it was inexact. -/
def Exact.toInteger (x : Exact) (rm r : Nat) : Nat × Bool :=
  let (n, rem, den) := x.scaled 0
  (roundInt rm x.neg n rem den r, rem != 0)

/-- What a finite result beyond the largest finite value becomes (R82). -/
def FpFmt.overflow (f : FpFmt) (rm : Nat) (neg : Bool) : Nat :=
  if f.saturates then f.signed neg f.maxBits
  else
    match rm with
    | 1 => f.signed neg f.maxBits
    | 2 => if neg then f.signed true f.maxBits else f.infBits
    | 3 => if neg then f.signed true f.infBits else f.maxBits
    | _ => f.signed neg f.infBits

/-- The result is tiny: after rounding to the format's width at unbounded exponent, or before rounding in stochastic
mode (R77). -/
def Exact.tiny (x : Exact) (f : FpFmt) (rm r : Nat) : Bool :=
  let l := x.lead
  if rm = 4 then decide (l < f.emin)
  else
    let q := l - f.m
    let (n, rem, den) := x.scaled q
    let n := roundInt rm x.neg n rem den r
    decide (l < f.emin) && !(decide (l + 1 = f.emin) && decide (n = 2 ^ (f.m + 1)))

/-- Round a non-zero exact value once to a format: the pattern and the flags OF, UF, NX (R77, R79, R82). -/
def Exact.round (x : Exact) (f : FpFmt) (rm r : Nat) : Nat × Nat :=
  let l := x.lead
  let q : Int := if l < f.emin then f.emin - f.m else l - f.m
  let (n, rem, den) := x.scaled q
  let y := roundInt rm x.neg n rem den r
  let mag := y + (q + f.m - f.emin).toNat * 2 ^ f.m
  if f.maxBits < mag then (f.overflow rm x.neg, flOF + flNX)
  else
    let nx := rem != 0
    (f.signed x.neg mag, flagIf nx flNX + flagIf (nx && x.tiny f rm r) flUF)

end Sys2Proof.Machine
end

