-- ==== Sys2Proof/Machine/Numbers.lean ====
section
/-! DEFINITION. The arithmetic of chapter 04: values of the float formats, sums, products, fused forms, conversions,
transcendentals, block scales, and RandWord (R73 to R96, R225). Results are patterns paired with the flags they raise. -/

namespace Sys2Proof.Machine

/-! ## Values -/

/-- What a float pattern stands for: a NaN with its fraction and the fraction's width, an infinity, or
(-1)^neg x sig x 2^exp. -/
inductive Fv where
  | nan (neg : Bool) (frac m : Nat)
  | inf (neg : Bool)
  | fin (neg : Bool) (sig : Nat) (exp : Int)
deriving DecidableEq, Repr

/-- Read a pattern (R73). -/
def FpFmt.value (f : FpFmt) (w : Nat) : Fv :=
  let neg := bitAt w (f.w - 1)
  let e := fld w f.m (f.w - 1 - f.m)
  let frac := fld w 0 f.m
  if e = 0 then .fin neg frac (f.emin - f.m)
  else if e = f.ones && f.top == .ieee then (if frac = 0 then .inf neg else .nan neg frac f.m)
  else if e = f.ones && f.top == .nanOnly && frac == 2 ^ f.m - 1 then .nan neg frac f.m
  else .fin neg (2 ^ f.m + frac) ((e : Int) - f.bias - f.m)

/-- An integer as a value. -/
def Fv.ofInt (v : Int) : Fv := .fin (decide (v < 0)) v.natAbs 0

/-- The value of an operand's pattern under a format code: floats and integers (R108). -/
def valueOf (code w : Nat) : Fv :=
  if code ≤ 7 then (fpFmt code).value w
  else if code ≤ 11 then .ofInt (sgn (fmtWidth code) w)
  else .ofInt ((w % 2 ^ fmtWidth code : Nat) : Int)

/-- The value is NaN. -/
def Fv.isNan : Fv → Bool
  | .nan _ _ _ => true
  | _ => false

/-- The sign of a value. -/
def Fv.sign : Fv → Bool
  | .nan n _ _ => n
  | .inf n => n
  | .fin n _ _ => n

/-- The opposite of a value; a NaN keeps its sign (R75). -/
def Fv.minus : Fv → Fv
  | .nan n f m => .nan n f m
  | .inf n => .inf !n
  | .fin n s e => .fin (!n) s e

/-- Scale a value by a power of two. -/
def Fv.scale (x : Fv) (k : Int) : Fv :=
  match x with
  | .fin n s e => .fin n s (e + k)
  | y => y

/-! ## Delivering a result (R75, R76, R82) -/

/-- A NaN result: the operand's sign, its fraction cut or widened, its top bit set; S.1111.111 in E4M3; +0 with NV where
the format has none. -/
def FpFmt.deliverNan (f : FpFmt) (neg : Bool) (frac m : Nat) : Nat × Nat :=
  match f.top with
  | .ieee =>
    let cut := if m < f.m then frac * 2 ^ (f.m - m) else frac / 2 ^ (m - f.m)
    (f.signed neg (f.infBits + (if bitAt cut (f.m - 1) then cut else cut + 2 ^ (f.m - 1))), 0)
  | .nanOnly => (f.signed neg (2 ^ (f.w - 1) - 1), 0)
  | .finite => (0, flNV)

/-- An infinite result: infinity where the format has one, and otherwise the largest finite value with OF. -/
def FpFmt.deliverInf (f : FpFmt) (neg : Bool) : Nat × Nat :=
  match f.top with
  | .ieee => (f.signed neg f.infBits, 0)
  | _ => (f.signed neg f.maxBits, flOF)

/-- Round a value once to a format (R82). -/
def FpFmt.deliver (f : FpFmt) (rm r : Nat) : Fv → Nat × Nat
  | .nan n frac m => f.deliverNan n frac m
  | .inf n => f.deliverInf n
  | .fin n s e => if s = 0 then (f.signed n 0, 0) else Exact.round { neg := n, num := s, den := 1, exp := e } f rm r

/-- The result of an invalid operation: the canonical NaN with NV and NAN (R75). -/
def FpFmt.invalid (f : FpFmt) : Nat × Nat := (f.canonical, flNV + flNAN)

/-- Round a value to an integer and saturate it at the ends of a range (R82). A negative source that rounds to zero in
an unsigned range raises nothing. -/
def toRange (lo hi : Int) (w rm r : Nat) : Fv → Nat × Nat
  | .nan _ _ _ => (0, flNV)
  | .inf n => (wrap w (if n then lo else hi), flNV)
  | .fin n s e =>
    let (y, nx) := Exact.toInteger { neg := n, num := s, den := 1, exp := e } rm r
    let v : Int := if n then -(y : Int) else (y : Int)
    if v < lo then (wrap w lo, flNV)
    else if hi < v then (wrap w hi, flNV)
    else (wrap w v, flagIf (nx && !(lo == 0 && n)) flNX)

/-- Convert a value to a format code from 0 to 15 (R82). -/
def convert (code rm r : Nat) (x : Fv) : Nat × Nat :=
  let w := fmtWidth code
  if code ≤ 7 then (fpFmt code).deliver rm r x
  else if code ≤ 11 then toRange (-((2 ^ (w - 1) : Nat) : Int)) ((2 ^ (w - 1) : Nat) - 1 : Int) w rm r x
  else toRange 0 ((2 ^ w : Nat) - 1 : Int) w rm r x

/-! ## Sums, products and fused forms (R75, R76, R206) -/

/-- The first NaN of a list, delivered; otherwise the second argument. -/
def FpFmt.nanOr (f : FpFmt) (xs : List Fv) (y : Nat × Nat) : Nat × Nat :=
  match xs.find? Fv.isNan with
  | some (.nan n frac m) => f.deliverNan n frac m
  | _ => y

/-- The exact sum of two finite values as a signed number over the lower exponent. -/
def exactSum (n₁ : Bool) (s₁ : Nat) (e₁ : Int) (n₂ : Bool) (s₂ : Nat) (e₂ : Int) : Int × Int :=
  let e := min e₁ e₂
  let v₁ : Int := ((s₁ * 2 ^ (e₁ - e).toNat : Nat) : Int)
  let v₂ : Int := ((s₂ * 2 ^ (e₂ - e).toNat : Nat) : Int)
  ((if n₁ then -v₁ else v₁) + (if n₂ then -v₂ else v₂), e)

/-- The sum of two values that are not NaN, rounded once; `r` is the draw of stochastic rounding (R76, R79). -/
def FpFmt.sum (f : FpFmt) (rm r : Nat) : Fv → Fv → Nat × Nat
  | .inf a, .inf b => if a = b then (f.signed a f.infBits, 0) else f.invalid
  | .inf a, _ => (f.signed a f.infBits, 0)
  | _, .inf b => (f.signed b f.infBits, 0)
  | .fin n₁ s₁ e₁, .fin n₂ s₂ e₂ =>
    if s₁ = 0 ∧ s₂ = 0 ∧ n₁ = n₂ then (f.signed n₁ 0, 0)
    else
      let (v, e) := exactSum n₁ s₁ e₁ n₂ s₂ e₂
      if v = 0 then (f.signed (rm == 3) 0, 0)
      else Exact.round { neg := decide (v < 0), num := v.natAbs, den := 1, exp := e } f rm r
  | _, _ => f.invalid

/-- The exact product of two values that are not NaN; none for 0 x infinity. -/
def Fv.times : Fv → Fv → Option Fv
  | .inf a, .inf b => some (.inf (a != b))
  | .inf a, .fin n s _ => if s = 0 then none else some (.inf (a != n))
  | .fin n s _, .inf b => if s = 0 then none else some (.inf (n != b))
  | .fin n₁ s₁ e₁, .fin n₂ s₂ e₂ => some (.fin (n₁ != n₂) (s₁ * s₂) (e₁ + e₂))
  | _, _ => none

/-- x + y. -/
def FpFmt.add (f : FpFmt) (rm : Nat) (x y : Fv) : Nat × Nat := f.nanOr [x, y] (f.sum rm 0 x y)

/-- x - y. -/
def FpFmt.sub (f : FpFmt) (rm : Nat) (x y : Fv) : Nat × Nat := f.nanOr [x, y] (f.sum rm 0 x y.minus)

/-- x y. -/
def FpFmt.mul (f : FpFmt) (rm : Nat) (x y : Fv) : Nat × Nat :=
  f.nanOr [x, y] (match x.times y with
    | none => f.invalid
    | some p => f.deliver rm 0 p)

/-- x y + z, with the product or the addend negated as the form says (R206). -/
def FpFmt.fused (f : FpFmt) (rm : Nat) (negProd negAdd : Bool) (x y z : Fv) : Nat × Nat :=
  f.nanOr [x, y, z] (match x.times y with
    | none => f.invalid
    | some p => f.sum rm 0 (if negProd then p.minus else p) (if negAdd then z.minus else z))

/-! ## Order (R207, R210) -/

/-- A pattern's place in the order in which -0 lies below +0 (R207). -/
def FpFmt.key (f : FpFmt) (w : Nat) : Int :=
  let mag := fld w 0 (f.w - 1)
  if bitAt w (f.w - 1) then -(mag : Int) - 1 else mag

/-- A pattern's place in the order in which -0 equals +0 (R210). -/
def FpFmt.place (f : FpFmt) (w : Nat) : Int :=
  let mag := fld w 0 (f.w - 1)
  if bitAt w (f.w - 1) then -(mag : Int) else mag

/-- The smaller or larger of two patterns; the first NaN, made quiet, if there is one (R207). -/
def FpFmt.pick (f : FpFmt) (larger : Bool) (a b : Nat) : Nat :=
  (f.nanOr [f.value a, f.value b]
    (if larger then (if f.key a < f.key b then b else a) else (if f.key b < f.key a then b else a), 0)).1

/-! ## Transcendentals (R94) -/

/-- One step of a square root, from bit `k` down. -/
def isqrtFrom (n : Nat) : Nat → Nat → Nat
  | 0, acc => acc
  | k + 1, acc => isqrtFrom n k (if (acc + 2 ^ k) * (acc + 2 ^ k) ≤ n then acc + 2 ^ k else acc)

/-- The integer square root of a number below 2^400. -/
def isqrt (n : Nat) : Nat := isqrtFrom n 200 0

/-- The square root of sig / den x 2^exp, `sig` and `den` positive, with one sticky bit below 100 exact ones. -/
def rootOf (sig den : Nat) (exp : Int) : Exact :=
  let odd := decide (exp % 2 = 1)
  let s := if odd then 2 * sig else sig
  let e := if odd then exp - 1 else exp
  let q := s * 2 ^ 256 / den
  let r := isqrt q
  let exact := r * r == q && q * den == s * 2 ^ 256
  { neg := false, num := 2 * r + (if exact then 0 else 1), den := 1, exp := e / 2 - 129 }

/-- Fixed-point precision of the series below: 256 fractional bits (log entry 12). -/
def seriesBits : Nat := 256

/-- The terms z^(2k+1) / (2k+1) of atanh, `n` of them, in fixed point. -/
def atanhFrom (z2 : Nat) : Nat → Nat → Nat → Nat → Nat
  | 0, _, _, acc => acc
  | n + 1, k, p, acc => atanhFrom z2 n (k + 1) (p * z2 / 2 ^ seriesBits) (acc + p / (2 * k + 1))

/-- atanh of a fixed-point number up to 1/3. -/
def atanhFix (z : Nat) : Nat := atanhFrom (z * z / 2 ^ seriesBits) 90 0 z 0

/-- The natural logarithm of 2 in fixed point: 2 atanh(1/3). -/
def ln2Fix : Nat := 2 * atanhFix (2 ^ seriesBits / 3)

/-- The terms t^k / k! of the exponential, `n` of them, in fixed point. -/
def expFrom (t : Nat) : Nat → Nat → Nat → Nat → Nat
  | 0, _, _, acc => acc
  | n + 1, k, p, acc => expFrom t n (k + 1) (p * t / 2 ^ seriesBits / (k + 1)) (acc + p)

/-- 2^x of a finite non-zero value (R94; log entry 12). -/
def exp2Of (neg : Bool) (sig : Nat) (exp : Int) : Exact :=
  if 10 ≤ (Nat.log2 sig : Int) + exp then (if neg then { neg := false, num := 3, den := 1, exp := -1000 }
               else { neg := false, num := 3, den := 1, exp := 1000 })
  else
    let fix : Nat := if 0 ≤ exp + seriesBits then sig * 2 ^ (exp + seriesBits).toNat
                     else sig / 2 ^ (-(exp + seriesBits)).toNat
    let v : Int := if neg then -(fix : Int) else fix
    let whole := v / ((2 ^ seriesBits : Nat) : Int)
    let frac := (v % ((2 ^ seriesBits : Nat) : Int)).toNat
    if frac = 0 then { neg := false, num := 1, den := 1, exp := whole }
    else
      let y := expFrom (frac * ln2Fix / 2 ^ seriesBits) 80 0 (2 ^ seriesBits) 0
      { neg := false, num := 2 * (y / 2 ^ 32) + 1, den := 1, exp := whole - 225 }

/-- log2 x of a finite positive value that is not 1 (R94; log entry 12). -/
def log2Of (sig : Nat) (exp : Int) : Exact :=
  let l := Nat.log2 sig
  let e := (l : Int) + exp
  if sig = 2 ^ l then { neg := decide (e < 0), num := e.natAbs, den := 1, exp := 0 }
  else
    let z := (sig - 2 ^ l) * 2 ^ seriesBits / (sig + 2 ^ l)
    let y := 2 * atanhFix z * 2 ^ seriesBits / ln2Fix
    let v : Int := (e * ((2 ^ seriesBits : Nat) : Int) + y) / ((2 ^ 32 : Nat) : Int)
    { neg := decide (v < 0), num := if v < 0 then 2 * v.natAbs - 1 else 2 * v.natAbs + 1, den := 1
      exp := -225 }

/-- The five functions of R94. -/
inductive Fun where
  | rcp
  | rsq
  | sqrt
  | exp2
  | log2
deriving DecidableEq, Repr

/-- A transcendental of a value (R94). -/
def FpFmt.apply (f : FpFmt) (g : Fun) (x : Fv) : Nat × Nat :=
  f.nanOr [x] (match g, x with
    | .rcp, .inf n => (f.signed n 0, 0)
    | .rcp, .fin n s e =>
      if s = 0 then (f.signed n f.infBits, 0) else Exact.round { neg := n, num := 1, den := s, exp := -e } f 0 0
    | .rsq, .inf n => if n then f.invalid else (0, 0)
    | .rsq, .fin n s e =>
      if s = 0 then (f.signed n f.infBits, 0)
      else if n then f.invalid
      else (rootOf 1 s (-e)).round f 0 0
    | .sqrt, .inf n => if n then f.invalid else (f.infBits, 0)
    | .sqrt, .fin n s e =>
      if s = 0 then (f.signed n 0, 0)
      else if n then f.invalid
      else (rootOf s 1 e).round f 0 0
    | .exp2, .inf n => if n then (0, 0) else (f.infBits, 0)
    | .exp2, .fin n s e => if s = 0 then f.deliver 0 0 (.fin false 1 0) else (exp2Of n s e).round f 0 0
    | .log2, .inf n => if n then f.invalid else (f.infBits, 0)
    | .log2, .fin n s e =>
      if s = 0 then (f.signed true f.infBits, 0)
      else if n then f.invalid
      else
        let y := log2Of s e
        if y.num = 0 then (0, 0) else y.round f 0 0
    | _, _ => f.invalid)

/-! ## Block formats (R83 to R87) -/

/-- A bs24 scale: zero, NaN, or sig x 2^exp (R83). -/
inductive Scale where
  | zero
  | nan
  | val (sig : Nat) (exp : Int)
deriving DecidableEq, Repr

/-- Read a bs24 scale; bits above [23:0] are ignored (R85). -/
def scaleOf (w : Nat) : Scale :=
  let e := fld w 16 8
  if e = 0 then .zero else if e = 255 then .nan else .val (65536 + fld w 0 16) ((e : Int) - 143)

/-- The bs24 scale of a block: the smallest grid value at or above t, and OF if t exceeds the grid (R86). -/
def chooseScale (pow2 : Bool) (t : Exact) : Nat × Nat :=
  let l := t.lead
  let (n, rem, _) := t.scaled (if pow2 then l else l - 16)
  let n := if rem = 0 then n else n + 1
  let full := if pow2 then decide (n = 2) else decide (n = 2 ^ 17)
  let e : Int := (if full then l + 1 else l) + 127
  let frac := if pow2 || full then 0 else n - 65536
  if 254 < e then (if pow2 then 0xFE0000 else 0xFEFFFF, flOF)
  else if e < 1 then (0x010000, 0)
  else (e.toNat * 65536 + frac, 0)

/-- Convert a block of float values to bkw: scale, mantissas and flags; `draw i` is element i's draw (R86). -/
def toBlock (w rm : Nat) (pow2 : Bool) (draw : Nat → Nat) (xs : List Fv) : Nat × List Nat × Nat :=
  let k := 2 ^ (w - 1) - 1
  let bad (x : Fv) : Bool := match x with
    | .fin _ _ _ => false
    | _ => true
  let mags : List (Nat × Int) := xs.filterMap (fun x => match x with
    | .fin _ s e => if s = 0 then none else some (s, e)
    | _ => none)
  if xs.any bad then (0xFF0000, xs.map (fun _ => 0), flNV)
  else
    match mags with
    | [] => (0, xs.map (fun _ => 0), 0)
    | first :: rest =>
      let big (a b : Nat × Int) : Nat × Int :=
        let e := min a.2 b.2
        if a.1 * 2 ^ (a.2 - e).toNat < b.1 * 2 ^ (b.2 - e).toNat then b else a
      let top := rest.foldl big first
      let t : Exact := { neg := false, num := top.1, den := k, exp := top.2 + ((w - 1 : Nat) : Int) }
      let (sc, fl) := chooseScale pow2 t
      let den := 65536 + fld sc 0 16
      let shift : Int := ((w - 1 : Nat) : Int) - ((fld sc 16 8 : Int) - 143)
      let one (i : Nat) (x : Fv) : Nat × Nat := match x with
        | .fin n s e =>
          if s = 0 then (0, 0)
          else
            let (y, nx) := Exact.toInteger { neg := n, num := s, den := den, exp := e + shift } rm (draw i)
            let z := min y k
            (wrap w (if n then -(z : Int) else z), flagIf (nx || y != z) flNX ||| flagIf (z == 0) flUF)
        | _ => (0, 0)
      let ms := (List.range xs.length).zip xs |>.map (fun e => one e.1 e.2)
      (sc, ms.map (·.1), ms.foldl (fun a e => a ||| e.2) fl)

/-- The value of a mantissa of w bits under a scale; none for a NaN scale (R84, R87). -/
def blockValue (w m : Nat) (sc : Scale) : Option Fv :=
  match sc with
  | .nan => none
  | .zero => some (.fin false 0 0)
  | .val s e =>
    let v := sgn w m
    some (.fin (decide (v < 0)) (v.natAbs * s) (e - ((w - 1 : Nat) : Int)))

/-! ## Matrix accumulation (R88 to R91, R95) -/

/-- Add one block's exact value to an f32 accumulator: an exact zero leaves it bit for bit (R89). -/
def accumulate (acc : Nat) (v : Fv) : Nat × Nat :=
  match v with
  | .fin _ 0 _ => (acc, 0)
  | _ => f32.add 0 (f32.value acc) v

/-- The NaN that a NaN scale contributes (R89): an operand that is a NaN, so NV and NAN are not raised (log entry 105). -/
def nanScale : Fv := .nan false (2 ^ 22) 23

/-- Rescale an f32 element by a power of two; infinities and signed zeros keep their values (R95). -/
def rescale (x : Nat) (k : Int) : Nat × Nat :=
  match f32.value x with
  | .nan _ _ _ => (x, 0)
  | v => f32.deliver 0 0 (v.scale k)

/-- Add to a 48-bit integer accumulator: a sum outside its range wraps and raises OF (R91). -/
def accumulateInt (acc : Nat) (p : Int) : Nat × Nat :=
  let v := sgn 48 acc + p
  (wrap 48 v, flagIf (decide (v < -(2 ^ 47)) || decide (2 ^ 47 ≤ v)) flOF)

/-! ## Random numbers (R225, R79) -/

/-- Multiply modulo 2^64 the exclusive or of a word with itself shifted right. -/
def mixStep (h s m : Nat) : Nat := (h ^^^ (h / 2 ^ s)) * m % 2 ^ 64

/-- RandWord (R225). -/
def randWord (k e n : Nat) : Nat :=
  let c := e % 2 ^ 48 * 2 ^ 16 + n % 2 ^ 16
  let h := mixStep (c ^^^ k) 31 0xA3C59E2B71D46F85
  let h := h ^^^ (k * 2 ^ 23 % 2 ^ 64 + k / 2 ^ 41)
  let h := mixStep h 29 0x6B2FD81C94E73A1D
  h ^^^ (h / 2 ^ 32)

/-- The draw of stochastic rounding (R79). -/
def draw (seed e n : Nat) : Nat := randWord seed e n % 2 ^ 32

end Sys2Proof.Machine
end

