-- ==== Sys2Proof/Machine/Engines.lean ====
section
/-! DEFINITION. Haul engines: the commands HAUL, HAULG, HGATH and HSCAT, their start, their moves, their completion, and
HSTAT (R279 to R294, R402, R415). -/

namespace Sys2Proof.Machine

/-! ## Command blocks (R281 to R284, R291, R293) -/

/-- A command's number from its block. -/
def blockNum (b : List Byte) (off n : Nat) : Nat := ofBytes ((b.drop off).take n)

/-- CTL. -/
def ctlOf (b : List Byte) : Nat := blockNum b 0 8

/-- SRC. -/
def srcOf (b : List Byte) : Nat := blockNum b 8 8

/-- DST. -/
def dstOf (b : List Byte) : Nat := blockNum b 16 8

/-- MARK. -/
def markOf (b : List Byte) : Nat := blockNum b 40 8

/-- MINC. -/
def mincOf (b : List Byte) : Nat := blockNum b 48 8

/-- NUOP. -/
def nuopOf (b : List Byte) : Nat := fld (ctlOf b) 40 8

/-- EFMT. -/
def efmtOf (b : List Byte) : Nat := fld (ctlOf b) 35 5

/-- CMB: an HSCAT combines. -/
def cmbOf (b : List Byte) : Bool := bitAt (ctlOf b) 34

/-- DSQ: HAULG's destination is in point order. -/
def dsqOf (b : List Byte) : Bool := bitAt (ctlOf b) 33

/-- FE: written scratchpad words become full. -/
def feOf (b : List Byte) : Bool := bitAt (ctlOf b) 32

/-- RLEN, NIDX: bytes 24 to 27. -/
def shape0 (b : List Byte) : Nat := blockNum b 24 4

/-- NROW, ITEM: bytes 28 to 31. -/
def shape1 (b : List Byte) : Nat := blockNum b 28 4

/-- SSTR. -/
def sstrOf (b : List Byte) : Int := sgn 32 (blockNum b 32 4)

/-- DSTR. -/
def dstrOf (b : List Byte) : Int := sgn 32 (blockNum b 36 4)

/-- IDXA. -/
def idxaOf (b : List Byte) : Nat := blockNum b 32 8

/-- Bytes of an element. -/
def elemBytes (b : List Byte) : Nat := fmtWidth (efmtOf b) / 8

/-- The micro-operations of HAULG. -/
def uopsOf (b : List Byte) : List Nat := (List.range (nuopOf b)).map (fun u => blockNum b (64 + 8 * u) 8)

/-- OP of a micro-operation. -/
def uopOp (u : Nat) : Nat := fld u 60 4

/-- Level field of LOOPN, CTERM, SLOOP and DLOOP. -/
def uopLevel (u : Nat) : Nat := fld u 57 3

/-- Coordinate field. -/
def uopCoord (u : Nat) : Nat := if uopOp u = 2 then fld u 55 2 else fld u 58 2

/-- The micro-operations with an OP. -/
def uopsWith (us : List Nat) (op : Nat) : List Nat := us.filter (fun u => uopOp u = op)

/-- A micro-operation has a known OP and no bit outside its fields (R291). -/
def uopShape (u : Nat) : Bool :=
  match uopOp u with
  | 1 => fld u 24 33 == 0
  | 2 => fld u 16 39 == 0
  | 3 => fld u 56 2 == 0 && fld u 32 24 != 0
  | 4 => fld u 32 26 == 0
  | 5 => fld u 32 25 == 0
  | 6 => fld u 32 25 == 0
  | _ => false

/-- The levels that a program declares, in program order. -/
def levelsOf (us : List Nat) : List Nat := (uopsWith us 1).map uopLevel

/-- The count of a level. -/
def levelCount (us : List Nat) (l : Nat) : Nat :=
  (((uopsWith us 1).find? (fun u => uopLevel u = l)).map (fun u => fld u 0 24 + 1)).getD 1

/-- The product P of the counts. -/
def pointsOf (us : List Nat) : Nat := (levelsOf us).foldl (fun p l => p * levelCount us l) 1

/-- A valid HAULG program (R291, R402). -/
def programOk (b : List Byte) : Bool :=
  let us := uopsOf b
  let ls := levelsOf us
  let cs := (uopsWith us 3).map uopCoord
  decide (1 ≤ nuopOf b) && decide (nuopOf b ≤ 16) && us.all uopShape &&
  decide (ls.dedup.length = ls.length) && ls.all (fun l => decide (l < ls.length)) &&
  decide (cs.dedup.length = cs.length) &&
  us.all (fun u =>
    match uopOp u with
    | 2 => ls.contains (uopLevel u) && cs.contains (uopCoord u)
    | 4 => cs.contains (uopCoord u)
    | 5 => ls.contains (uopLevel u)
    | 6 => ls.contains (uopLevel u) && !dsqOf b
    | _ => true) &&
  decide (pointsOf us ≤ 2 ^ 32) && idxaOf b == 0

/-- The kinds of SRC, DST and MARK (R283). -/
def haulKinds : List Nat := [0x0, 0x4, 0x8, 0x9, 0xC]

/-- EFMT values of HAULG, HGATH and HSCAT (R282). -/
def efmtOk (f : Nat) : Bool := decide (f ≤ 4) || decide (8 ≤ f ∧ f ≤ 15)

/-- What one step of a level adds to the destination offset. -/
def levelStep (us : List Nat) (l : Nat) : Int :=
  ((uopsWith us 6).filter (fun u => uopLevel u = l)).foldl (fun t u => t + sgn 32 u) 0

/-- With FE every written run starts and ends on an 8-byte boundary (R283): a run is a row of HAUL, an item of HGATH or
HSCAT, and of HAULG all that DSQ makes successive, or one element (log entry 98). -/
def feRunsOk (kind : Nat) (b : List Byte) : Bool :=
  let us := uopsOf b
  let eb := elemBytes b
  dstOf b % 8 == 0 &&
  (match kind with
  | 0 => shape0 b % 8 == 0 && (shape1 b == 1 || blockNum b 36 4 % 8 == 0)
  | 1 =>
    if dsqOf b then pointsOf us * eb % 8 == 0
    else eb % 8 == 0 && (levelsOf us).all (fun l => levelCount us l == 1 || levelStep us l % 8 == 0)
  | _ => shape1 b * eb % 8 == 0)

/-- The block's own checks (R280, R402), for a kind of command: 0 HAUL, 1 HAULG, 2 HGATH, 3 HSCAT. -/
def blockOk (kind : Nat) (b : List Byte) : Bool :=
  let c := ctlOf b
  let ks := addrKind (srcOf b)
  let kd := addrKind (dstOf b)
  let eb := elemBytes b
  blockNum b 56 8 == 0 && !bitAt c 16 &&
  (kind == 1 || (nuopOf b == 0 && !dsqOf b)) && (kind == 3 || !cmbOf b) &&
  (if kind = 0 then efmtOf b == 0 else efmtOk (efmtOf b)) &&
  (!bitAt c 31 || fld c 0 16 != 0) &&
  haulKinds.contains ks && haulKinds.contains kd && !(ks == 4 && kd == 4) &&
  (kind == 0 || (srcOf b % eb == 0 && dstOf b % eb == 0)) &&
  (mincOf b == 0 || (haulKinds.contains (addrKind (markOf b)) && markOf b % 8 == 0)) &&
  (!feOf b || ((kd == 8 || kd == 9) && feRunsOk kind b)) &&
  (match kind with
   | 0 => shape0 b != 0 && shape1 b != 0
   | 1 => programOk b
   | _ => decide (1 ≤ shape0 b ∧ shape0 b ≤ 2 ^ 24) && decide (1 ≤ shape1 b ∧ shape1 b ≤ 2 ^ 20) &&
      [0x0, 0x8, 0xC].contains (addrKind (idxaOf b)) && idxaOf b % 4 == 0 &&
      !(cmbOf b && (efmtOf b == 3 || efmtOf b == 4)))

/-! ## Issuing a command (R279, R280, R285) -/

/-- The bytes at the block's address, as the strand sees its scratchpad: the header, then the micro-operations. -/
def State.blockAt (s : State) (kind a : Nat) : List Byte :=
  let k := s.issue.strand
  let get (n : Nat) : List Byte := (s.pieces a n false .data).map (s.loadByte k)
  let head := get 64
  if kind = 1 then get (64 + 8 * nuopOf head) else head

/-- The engine that a command names: one of the issuing die (R279). -/
def State.engineNo (s : State) (eng : Nat) : Nat := 16 * dieOf s.issue.strand + eng

/-- The slot of the issuing strand's gang; 64 stands for none. -/
def State.mySlot (s : State) : Nat := (s.slotOfRope (ropeOf s.issue.strand)).getD 64

/-- The gang's share of an engine's entries (R279, R306). -/
def State.myShare (s : State) : Nat := (s.gangOf s.issue.strand).desc.hshare

/-- A gang's entries in use on an engine. -/
def Engine.inUse (e : Engine) (slot : Nat) : Nat := ((e.buf ++ e.run).filter (fun h => h.slot = slot)).length

/-- A store of an mx command of the strand to the block has not performed, so the copy would miss it (R231, R280). -/
def State.blockPends (s : State) (kind a : Nat) : Bool :=
  let meets (n : Nat) : Bool :=
    (s.core s.myCore).storeMeets s.issue.strand ((s.pieces a n false .data).map (·.loc))
  meets 64 || (kind == 1 && meets (64 + 8 * nuopOf (s.blockAt 0 a)))

/-- A block that cannot be copied, or whose checks fail (R280, R402). -/
def State.blockBad (s : State) (kind a t : Nat) : Bool :=
  s.badAddr s.issue.strand a 64 64 [0x8] || decide (s.cyc.toNat + 2 ^ 36 < t) ||
  (kind == 1 && s.badAddr s.issue.strand a (64 + 8 * nuopOf (s.blockAt 0 a)) 64 [0x8]) ||
  !blockOk kind (s.blockAt kind a)

/-- The checks and waits of a haul command. -/
def haulHurdle (kind : Nat) (f : LH) (s : State) : Option Hurdle :=
  let a := s.ra f.ab
  let e := s.engine (s.engineNo f.eng)
  if s.blockPends kind a then some (.wait .engineFull)
  else if s.blockBad kind a (s.rs f.s) then some (.fault .badEngineCommand a)
  else if s.myShare ≤ e.inUse s.mySlot || decide (256 ≤ e.buf.length + e.run.length) then some (.wait .engineFull)
  else if f.rv = 1 && decide (portRoom 440 ≤ (s.places s.issue.strand (440 + f.rpt) true).length) then
    some (.wait .engineFull)
  else none

/-- A counter of an engine's gangs rises by one, saturating (R294). -/
def bumpAt (t : Table Nat) (slot top : Nat) : Table Nat := Table.set t slot (min (Table.get t 0 slot + 1) top)

/-- A command is accepted (R280, R285). Its fork edge orders it after the strand's earlier accesses of its class: the gate
has released them, and the core's Dirty sectors go to their homes, at pod scope to their controllers, so that the engine
finds them there (R133). -/
def State.acceptHaul (s : State) (kind : Nat) (f : LH) : State :=
  let s := s.releaseLevel s.myCore (if f.at_.sc = 6 then 2 else 1)
  let t := s.rs f.s
  let late := t != 0 && decide (t ≤ s.cyc.toNat)
  let (rep, s) := if f.rv = 1 then
      let (id, s) := s.reservePlace s.issue.strand (440 + f.rpt)
      (some (440 + f.rpt, id), s)
    else (none, s)
  let fork := s.podFork f.at_
  let h : Haul :=
    { eng := s.engineNo f.eng, strand := s.issue.strand, slot := s.mySlot, kind := kind, block := s.blockAt kind (s.ra f.ab), t := t,
      late := late, at_ := f.at_, report := rep, fork := fork }
  s.onEngine (s.engineNo f.eng) (fun e => { e with
    buf := enterHaul h e.buf, late := if late then bumpAt e.late s.mySlot 65535 else e.late })

/-- HAUL, R280, R284, R285. -/
def execHaul (f : LH) (s : State) : Host.Outcome State Fault Refusal :=
  runSlot (.haul f) (haulHurdle 0 f) (fun s => s.acceptHaul 0 f) s

/-- HAULG, R280, R291. -/
def execHaulg (f : LH) (s : State) : Host.Outcome State Fault Refusal :=
  runSlot (.haulg f) (haulHurdle 1 f) (fun s => s.acceptHaul 1 f) s

/-- HGATH, R280, R293. -/
def execHgath (f : LH) (s : State) : Host.Outcome State Fault Refusal :=
  runSlot (.hgath f) (haulHurdle 2 f) (fun s => s.acceptHaul 2 f) s

/-- HSCAT, R280, R293. -/
def execHscat (f : LH) (s : State) : Host.Outcome State Fault Refusal :=
  runSlot (.hscat f) (haulHurdle 3 f) (fun s => s.acceptHaul 3 f) s

/-- HSTAT's word (R294). -/
def State.hstatWord (s : State) (eng : Nat) : Nat :=
  let e := s.engine (s.engineNo eng)
  let h := s.mySlot
  Table.get e.late 0 h * 2 ^ 40 + Table.get e.flt 0 h * 2 ^ 32 + e.run.length * 2 ^ 24 + s.myShare * 2 ^ 9 + e.inUse h

/-- HSTAT, R294. -/
def execHstat (f : LH) (s : State) : Host.Outcome State Fault Refusal :=
  runSlot (.hstat f) free (fun s => s.later (.s f.s) (some (s.hstatWord f.eng)) .memory f.at_.lat 0) s

/-! ## What an engine reaches (R283, R289) -/

/-- One page's part of a flat access of a command (R116, R120, R289). -/
def State.enginePage (s : State) (h : Haul) (write : Bool) (p : Nat × Nat) : Except EngStop EngPart :=
  let k := h.strand
  let held := ((s.gangOf k).regionAt p.1).map (fun r => s.holdsToken (coreOf k) r.die r.tok)
  if write && held == some false then .error .fail
  else
    match s.unitPart (1024 + h.eng) (dieOf k) (s.spaceOf k) write false p with
    | .error e => .error e
    | .ok x => if s.haulBehind h p.1 then .error .wait else .ok x

/-- Where a local access of a command leads. -/
def State.engineReach (s : State) (h : Haul) (a n : Nat) (write : Bool) : Except EngStop (List EngPart) :=
  if s.badAddr h.strand a n 1 [0x0, 0x8, 0x9, 0xC] then .error .fail
  else if addrKind a = 0 then (s.pageParts h.strand (fld a 0 57) n).mapM (s.enginePage h write)
  else
    match s.reach h.strand a 1 write .data with
    | .ok (p :: _) => .ok [{ loc := p.loc, len := n, cached := false }]
    | .stop (.wait _) => .error .wait
    | _ => .error .fail

/-- The parts of a local access of a command, whose transfers over a link wait as its routing table switches (R333). -/
def State.engineParts (s : State) (h : Haul) (a n : Nat) (write : Bool) : Except EngStop (List EngPart) :=
  match s.engineReach h a n write with
  | .ok l => if l.any (fun p => s.routeHolds (h.eng / 16) (homeDie p.loc) h.at_.cls) then .error .wait else .ok l
  | e => e

/-- A poisoned location of a part stops a read: a wait while its line can be repaired, and otherwise a fault (R415,
R416). -/
def State.partPoison (s : State) (p : EngPart) : Option EngStop :=
  match s.sys.poison.find? (fun sec => overlaps [(p.loc, p.len)] sec) with
  | none => none
  | some sec => if s.repairable sec then some .wait else some .fail

/-- The pieces of at most 256 bytes into which a run over the fabric splits (R325); `fuel` bounds their number. -/
def fabricChunks : Nat → Nat → Nat → List (Nat × Nat)
  | 0, _, _ => []
  | fuel + 1, a, n =>
    if n = 0 then []
    else
      let m := min n (256 - a % 256)
      (a, m) :: fabricChunks fuel (a + m) (n - m)

/-- The pieces of a run. -/
def chunksOf (a n : Nat) : List (Nat × Nat) := fabricChunks (n / 256 + 2) a n

/-- The bytes that a command reads: over the fabric what its requests have returned, locally what memory holds. -/
def State.engineRead (s : State) (h : Haul) (a n : Nat) : Except EngStop (List Byte) :=
  if addrKind a = 4 then
    .ok ((chunksOf a n).flatMap (fun c => ((h.got.find? (fun g => g.1 == c.1 && g.2.length == c.2)).map (·.2)).getD []))
  else
    match s.engineParts h a n false with
    | .error e => .error e
    | .ok ps =>
      match ps.findSome? (fun p => s.partPoison p) with
      | some e => .error e
      | none => .ok (ps.flatMap (fun p => (locsFrom p.loc p.len).map s.byte))

/-! ## What a command moves (R284, R292, R293) -/

/-- One move of a command: from a source address, or of given bytes, with the flags of the combine that gave them (R288). -/
structure Move where
  src : Option Nat
  dst : Nat
  len : Nat
  data : List Byte := []
  fl : Nat := 0
deriving DecidableEq, Repr

/-- An address with a signed offset. -/
def shifted (a : Nat) (o : Int) : Nat := wrap 64 ((a : Int) + o)

/-- HAUL's rows. -/
def haulMoves (b : List Byte) : List Move :=
  (List.range (shape1 b)).map (fun (r : Nat) =>
    { src := some (shifted (srcOf b) ((r : Int) * sstrOf b)), dst := shifted (dstOf b) ((r : Int) * dstrOf b),
      len := shape0 b })

/-- The digits of a point: level nl - 1 varies fastest. -/
def digitsOf (us : List Nat) (p : Nat) : List Nat :=
  ((List.range (levelsOf us).length).reverse.foldl (fun (e : List Nat × Nat) l =>
    (e.2 % levelCount us l :: e.1, e.2 / levelCount us l)) ([], p)).1

/-- i(L) of a point. -/
def digitAt (ds : List Nat) (l : Nat) : Int := ((ds[l]?).getD 0 : Nat)

/-- The sum that micro-operations with an OP make over a point, optionally of one coordinate. -/
def loopSum (us ds : List Nat) (op n : Nat) (coord : Option Nat) : Int :=
  (uopsWith us op).foldl (fun t u =>
    if coord.isNone || coord == some (uopCoord u) then t + sgn n u * digitAt ds (uopLevel u) else t) 0

/-- The value of a coordinate at a point. -/
def coordAt (us ds : List Nat) (u : Nat) : Int := sgn 32 u + loopSum us ds 2 16 (some (uopCoord u))

/-- A coordinate's source offset: its value times its scales. -/
def coordOffset (us ds : List Nat) (u : Nat) : Int :=
  coordAt us ds u * ((uopsWith us 4).filter (fun v => uopCoord v = uopCoord u)).foldl (fun t v => t + sgn 32 v) 0

/-- One point of HAULG (R292). -/
def pointMove (b : List Byte) (p : Nat) : Move :=
  let us := uopsOf b
  let ds := digitsOf us p
  let eb := elemBytes b
  let cs := uopsWith us 3
  let pad := cs.any (fun u => decide (coordAt us ds u < 0) || decide ((fld u 32 24 : Int) ≤ coordAt us ds u))
  let so := cs.foldl (fun t u => t + coordOffset us ds u) 0 + loopSum us ds 5 32 none
  let off : Int := if dsqOf b then (p * eb : Nat) else loopSum us ds 6 32 none
  if pad then { src := none, dst := shifted (dstOf b) off, len := eb, data := toBytes eb (blockNum b 24 8) }
  else { src := some (shifted (srcOf b) so), dst := shifted (dstOf b) off, len := eb }

/-- HAULG's points. -/
def haulgMoves (b : List Byte) : List Move := (List.range (pointsOf (uopsOf b))).map (pointMove b)

/-- Bytes of an item. -/
def itemBytes (b : List Byte) : Nat := shape1 b * elemBytes b

/-- The indices of HGATH or HSCAT. -/
def State.haulIndices (s : State) (h : Haul) : Except EngStop (List Nat) :=
  match s.engineRead h (idxaOf h.block) (4 * shape0 h.block) with
  | .error e => .error e
  | .ok bs => .ok ((List.range (shape0 h.block)).map (fun j => ofBytes ((bs.drop (4 * j)).take 4)))

/-- The source address of item `i`. -/
def srcItem (b : List Byte) (i : Nat) : Nat := shifted (srcOf b) (i * itemBytes b : Nat)

/-- The destination address of item `i`. -/
def dstItem (b : List Byte) (i : Nat) : Nat := shifted (dstOf b) (i * itemBytes b : Nat)

/-- HGATH's items. -/
def gatherMoves (b : List Byte) (idx : List Nat) : List Move :=
  idx.mapIdx (fun j d => { src := some (srcItem b d), dst := dstItem b j, len := itemBytes b })

/-- The positions that hold an index. -/
def positionsOf (idx : List Nat) (d : Nat) : List Nat :=
  (idx.mapIdx (fun j v => (j, v))).filterMap (fun e => if e.2 = d then some e.1 else none)

/-- One addition of a combine, with its flags (R293). -/
def combineAdd (fmt a b : Nat) : Nat × Nat :=
  if fmt ≤ 2 then
    let f := fpFmt fmt
    f.add 0 (f.value a) (f.value b)
  else ((a + b) % 2 ^ fmtWidth fmt, 0)

/-- Combine two items element by element, of `n` elements. -/
def combineItems (fmt eb : Nat) : Nat → List Byte → List Byte → List Byte × Nat
  | 0, _, _ => ([], 0)
  | n + 1, x, y =>
    let r := combineAdd fmt (ofBytes (x.take eb)) (ofBytes (y.take eb))
    let rest := combineItems fmt eb n (x.drop eb) (y.drop eb)
    (toBytes eb r.1 ++ rest.1, r.2 ||| rest.2)

/-- The item that HSCAT's combine writes for an index, with its flags. -/
def combineAll (b : List Byte) : List (List Byte) → List Byte × Nat
  | [] => ([], 0)
  | x :: t => t.foldl (fun (a : List Byte × Nat) y =>
      let r := combineItems (efmtOf b) (elemBytes b) (shape1 b) a.1 y
      (r.1, a.2 ||| r.2)) (x, 0)

/-- HSCAT's items, one for each distinct index (R293). -/
def State.scatterMoves (s : State) (h : Haul) (idx : List Nat) : Except EngStop (List Move) :=
  let b := h.block
  idx.dedup.mapM (fun d =>
    let js := positionsOf idx d
    if cmbOf b && decide (1 < js.length) then
      match js.mapM (fun j => s.engineRead h (srcItem b j) (itemBytes b)) with
      | .error e => .error e
      | .ok items =>
        let r := combineAll b items
        .ok { src := none, dst := dstItem b d, len := itemBytes b, data := r.1, fl := r.2 }
    else .ok { src := some (srcItem b (js.getLast?.getD 0)), dst := dstItem b d, len := itemBytes b })

/-- What a command moves. -/
def State.haulPlan (s : State) (h : Haul) : Except EngStop (List Move) :=
  match h.kind with
  | 0 => .ok (haulMoves h.block)
  | 1 => .ok (haulgMoves h.block)
  | 2 => (s.haulIndices h).map (fun idx => gatherMoves h.block idx)
  | _ => (s.haulIndices h).bind (s.scatterMoves h)

/-- What a command reads over the fabric before it moves anything. -/
def State.fabricReads (s : State) (h : Haul) : Except EngStop (List (Nat × Nat)) :=
  if addrKind (srcOf h.block) ≠ 4 then .ok []
  else
    let srcs (l : List Move) : List (Nat × Nat) := l.filterMap (fun m => m.src.map (fun a => (a, m.len)))
    let whole : Except EngStop (List (Nat × Nat)) :=
      if h.kind = 3 && cmbOf h.block then
        (s.haulIndices h).map (fun idx => idx.mapIdx (fun j _ => (srcItem h.block j, itemBytes h.block)))
      else (s.haulPlan h).map srcs
    whole.map (fun l => (l.flatMap (fun r => chunksOf r.1 r.2)).dedup)

/-- What has been moved so far: the state, writes to send over the fabric, bytes written locally. -/
structure Moved where
  s : State
  pend : List EngAccess := []
  bytes : Nat := 0
  /-- the flags of the combines written -/
  fl : Nat := 0
  /-- the locations that the command has written -/
  locs : List Nat := []

/-- A location lies in the sources. -/
def inSources (srcs : List EngPart) (l : Nat) : Bool := srcs.any (fun p => decide (p.loc ≤ l) && decide (l < p.loc + p.len))

/-- A byte that a move writes: of HAUL, one that is a source byte too is undefined (R284). Where several rows or points write
it, it holds what one of them wrote, and which is free (R284, R286; log entry 9). -/
def Moved.cell (m : Moved) (h : Haul) (srcs : List EngPart) (c : Nat × Byte) : Nat × Byte :=
  if h.kind = 0 && inSources srcs c.1 then (c.1, Config.freeByte m.s.freeCount c.1)
  else if h.kind ≤ 1 && m.locs.contains c.1 && !Config.laterRow m.s.freeCount c.1 then (c.1, m.s.byte c.1)
  else c

/-- Write the bytes of one move: over the fabric by requests, locally at their homes; with FE the words become full. -/
def Moved.write (m : Moved) (h : Haul) (srcs : List EngPart) (dst : Nat) (bs : List Byte) : Except EngStop Moved :=
  if addrKind dst = 4 then
    let accs := (chunksOf dst bs.length).mapIdx (fun i c =>
      ({ tag := m.s.serial + i, write := true, addr := c.1, data := ofBytes ((bs.drop (c.1 - dst)).take c.2),
         len := c.2 } : EngAccess))
    .ok { m with s := { m.s with serial := m.s.serial + accs.length }, pend := m.pend ++ accs }
  else
    match m.s.engineParts h dst bs.length true with
    | .error e => .error e
    | .ok ps =>
      let locs := ps.flatMap (fun p => locsFrom p.loc p.len)
      let cells := (locs.zip bs).map (m.cell h srcs)
      let cached := ((ps.filter (·.cached)).flatMap (fun p => sectorsOf (p.loc, p.len))).dedup
      let s := ({ m.s with freeCount := m.s.freeCount + 1 } : State).writeHome cells cached h.at_.ev
      let words := if feOf h.block then (locs.map (· / 8)).dedup else []
      .ok { m with s := { s with full := words ++ s.full.filter (fun w => !words.contains w) },
                   bytes := m.bytes + bs.length, locs := if h.kind ≤ 1 then locs ++ m.locs else [] }

/-- How a command's moves end: all made, ended by a fault, or stopped with none of them made. -/
inductive MoveEnd where
  | done (m : Moved)
  | failed (m : Moved)
  | stop (e : EngStop)

/-- Make the moves in order: every source byte is read as memory stood when they began. -/
def runMoves (before : State) (h : Haul) (srcs : List EngPart) : List Move → Moved → MoveEnd
  | [], m => .done m
  | v :: t, m =>
    let bytes : Except EngStop (List Byte) := match v.src with
      | none => .ok v.data
      | some a => before.engineRead h a v.len
    match bytes with
    | .error .fail => .failed m
    | .error e => .stop e
    | .ok bs =>
      match m.write h srcs v.dst bs with
      | .error .fail => .failed m
      | .error e => .stop e
      | .ok m => runMoves before h srcs t { m with fl := m.fl ||| v.fl }

/-- What a command reads: the sources of its moves, the items of a combine, its indices. -/
def Haul.reads (h : Haul) (l : List Move) : List (Nat × Nat) :=
  l.filterMap (fun v => v.src.map (fun a => (a, v.len))) ++
  (if h.kind = 3 && cmbOf h.block then (List.range (shape0 h.block)).map (fun j => (srcItem h.block j, itemBytes h.block))
   else []) ++
  (if 2 ≤ h.kind then [(idxaOf h.block, 4 * shape0 h.block)] else [])

/-- The local parts that a command reads. -/
def State.sourceParts (s : State) (h : Haul) (l : List Move) : List EngPart :=
  (h.reads l).flatMap (fun r =>
    if addrKind r.1 = 4 then [] else ((s.engineParts h r.1 r.2 false).toOption).getD [])

/-- The sectors read use their lines at L2; with ev = 7 they are dropped there without write-back (R118). -/
def State.lastUse (s : State) (h : Haul) (srcs : List EngPart) : State :=
  ((srcs.filter (·.cached)).flatMap (fun p => sectorsOf (p.loc, p.len))).foldl (fun s sec =>
    if h.at_.ev = 7 then s.dropL2 sec else s.useL2 sec h.at_.ev) s

/-! ## Progress of a command (R133, R285, R287, R289) -/

/-- Change command `idx` of those running on engine `e`. -/
def State.onHaul (s : State) (e idx : Nat) (f : Haul → Haul) : State :=
  s.onEngine e (fun x => match x.run[idx]? with
    | some h => { x with run := listSet x.run idx (f h) }
    | none => x)

/-- The command asks the host for a page (R289): once for each address. -/
def State.askHost (s : State) (e idx : Nat) (h : Haul) (va : Nat) : State :=
  if h.missing = some va then s
  else
    (s.onHaul e idx (fun h => { h with missing := some va })).askPage (1024 + e) (e / 16) (s.spaceOf h.strand) va 0

/-- The command ends by a fault: its writes made so far stand. -/
def State.endHaul (s : State) (e idx : Nat) : State :=
  s.onHaul e idx (fun h => { h with failed := true, pend := [], moved := true, asked := true, stalledAt := none })

/-- What a command does about what stops an access of its own: a fault ends it; a page that has to be walked starts a walk, one
on the move gives it its place among those that wait (R102, R120, R289). -/
def State.haulStop (s : State) (e idx : Nat) (h : Haul) (x : EngStop) : State :=
  match x with
  | .fail => s.endHaul e idx
  | .wait => s
  | .miss va => s.askHost e idx h va
  | .walk die root page sup => s.startWalk (1024 + e) die root page sup
  | .moving root page =>
    if h.stalledAt.any (fun m => m.2 == (root, page)) then s
    else s.onHaul e idx (fun h => { h with stalledAt := some (s.cycle, root, page) })

/-- The command requests its reads over the fabric. -/
def State.askReads (s : State) (e idx : Nat) (h : Haul) : State :=
  match s.fabricReads h with
  | .error x => s.haulStop e idx h x
  | .ok l =>
    let accs := l.mapIdx (fun i c => ({ tag := s.serial + i, write := false, addr := c.1, data := 0, len := c.2 } : EngAccess))
    (({ s with serial := s.serial + accs.length } : State).onHaul e idx (fun h =>
      { h with asked := true, pend := accs })).engineSend e

/-- The command makes its moves, whose local destination bytes PROG counts (R318). -/
def State.haulMove (s : State) (e idx : Nat) (h : Haul) : State :=
  match s.haulPlan h with
  | .error x => s.haulStop e idx h x
  | .ok moves =>
    let srcs := s.sourceParts h moves
    let s0 := ({ s with freeCount := s.freeCount + 1 } : State).lastUse h srcs
    match runMoves s h srcs moves { s := s0 } with
    | .stop x => s.haulStop e idx h x
    | .failed m => ((m.s.progress h.slot m.bytes).onHaul e idx (fun h => { h with bytes := m.bytes, fl := m.fl })).endHaul e idx
    | .done m => ((m.s.progress h.slot m.bytes).onHaul e idx (fun h =>
        { h with moved := true, pend := m.pend, bytes := m.bytes, fl := m.fl, stalledAt := none })).engineSend e

/-- The outcome of the mark-counter add. -/
inductive MarkEnd where
  | done (s : State)
  | stop (e : EngStop)

/-- Add MINC to a local mark counter, indivisibly at its home (R287). -/
def State.addMark (s : State) (h : Haul) : MarkEnd :=
  match s.engineParts h (markOf h.block) 8 true with
  | .error e => .stop e
  | .ok ps =>
    match ps.findSome? (fun p => s.partPoison p), ps with
    | some e, _ => .stop e
    | none, p :: _ =>
      let v := (s.num p.loc 8 + mincOf h.block) % 2 ^ 64
      let s := if p.cached then s.cleanL2 (p.loc / 64) else s
      .done (s.writeHome ((locsFrom p.loc 8).zip (toBytes 8 v)) (if p.cached then [p.loc / 64] else []))
    | none, [] => .stop .fail

/-- The report word (R288). -/
def Haul.word (h : Haul) : Nat :=
  fld (ctlOf h.block) 48 16 * 2 ^ 48 + h.fl * 2 ^ 43 + (if h.late then 2 ^ 42 else 0) +
  (if h.failed then 2 ^ 40 else 0) + h.bytes % 2 ^ 40

/-- Steps 2 and 3 of a completion: the semaphore and the report (R287, R288); a command that ended by a fault counts
and only reports. While no link reaches the semaphore's die, both wait (R16, R431). -/
def State.finishHaul (s : State) (e idx : Nat) (h : Haul) : State :=
  let c := ctlOf h.block
  let adds := bitAt c 31 && !h.failed
  if adds && s.cutOff (e / 16) (fld c 23 8 / 64) then s
  else
    let s := if adds then
        s.semReach { engine := some e, core := fld c 23 8, sem := fld c 17 6, val := fld c 0 16 } else s
    let s := match h.report with
      | some (port, id) => s.fillPlace h.strand port id h.word
      | none => s
    let s := s.onEngine e (fun x => { x with
      run := listDrop x.run idx, flt := if h.failed then bumpAt x.flt h.slot 255 else x.flt })
    if (s.engine e).run.isEmpty then s.forgetFound (1024 + e) else s

/-- Step 1 of a completion, and the rest once it is done. At pod scope it is a release to the controllers (R123, R134). -/
def State.completeHaul (s : State) (e idx : Nat) (h : Haul) : State :=
  let s := if h.at_.sc = 6 then s.cleanAllL2 else s
  if h.failed || mincOf h.block == 0 || h.marked then s.finishHaul e idx h
  else if addrKind (markOf h.block) = 4 then
    let a : EngAccess := { tag := s.serial, write := true, addr := markOf h.block, data := mincOf h.block, len := 8,
                           atomic := true }
    (({ s with serial := s.serial + 1 } : State).onHaul e idx (fun h => { h with marked := true, pend := [a] })).engineSend e
  else
    match s.addMark h with
    | .done t => (t.onHaul e idx (fun h => { h with marked := true })).finishHaul e idx h
    | .stop .fail => (s.endHaul e idx).finishHaul e idx { h with failed := true }
    | .stop x => s.haulStop e idx h x

/-- The next stage of a running command. -/
def State.advanceHaul (s : State) (e idx : Nat) : State :=
  match (s.engine e).run[idx]? with
  | none => s
  | some h =>
    if !h.pend.isEmpty then s
    else if h.failed then s.completeHaul e idx h
    else if !h.asked && addrKind (srcOf h.block) == 4 then s.askReads e idx h
    else if !h.moved then s.haulMove e idx h
    else s.completeHaul e idx h

/-- The head command of an engine's buffer can start (R285, R133); one that a resume has re-entered waits for its strand's
first bundle (R290). -/
def State.haulReady (s : State) (e : Nat) : Option Haul :=
  match (s.engine e).buf.find? (fun h => h.resumedAt.isNone) with
  | none => none
  | some h =>
    if decide (h.t ≤ s.cyc.toNat) && decide ((s.engine e).run.length < 4) &&
        s.forkOver h.strand h.fork then some h
    else none

/-- Start the head command: its reads over the fabric leave, or it makes its moves. -/
def State.startHaul (s : State) (e : Nat) (h : Haul) : State :=
  let s := s.onEngine e (fun x => { x with buf := x.buf.erase h, run := x.run ++ [h] })
  s.advanceHaul e ((s.engine e).run.length - 1)

/-- HAUL_COMMAND_START, R285, R133. -/
def execHaulCommandStart (engine : Nat) (s : State) : Host.Outcome State Fault Refusal :=
  match s.haulReady engine with
  | none => .next s
  | some h => .next (s.startHaul engine h)

/-- HAUL_COMPLETION, R287, R289: the next stage of a command that waits for nothing, up to its completion. -/
def execHaulCompletion (engine idx : Nat) (s : State) : Host.Outcome State Fault Refusal :=
  .next (s.advanceHaul engine idx)

/-- A ready access of an engine: owner and class, ticket number, tag. -/
abbrev ReadyAccess := (Nat × Nat) × Nat × Nat

/-- Insert a ready access before the first of its owner and class that it precedes. -/
def byNumber (t : ReadyAccess) : List ReadyAccess → List ReadyAccess
  | [] => [t]
  | u :: l => if t.1 = u.1 ∧ ticketLe t.2.1 u.2.1 ∧ t.2.1 ≠ u.2.1 then t :: u :: l else u :: byNumber t l

/-- The ready accesses of an engine, in ticket order within each owner and class (R289). -/
def Engine.readyTags (e : Engine) : List ReadyAccess :=
  (e.run.flatMap (fun h => h.pend.filterMap (fun a =>
    match a.ticket with
    | some n => if a.ready then some (((fabricParts a.addr).1, h.at_.cls), n, a.tag) else none
    | none => none))).foldl (fun l t => byNumber t l) []

/-- Re-issue one ticketed access of an engine. -/
def State.replayAccess (s : State) (e tag : Nat) : State :=
  match (s.engine e).run.find? (fun h => h.pend.any (fun a => a.tag = tag)), (s.engine e).ticketOf tag with
  | some h, some a =>
    let again (h : Haul) (_ : EngAccess) : Haul :=
      { h with pend := h.pend.map (fun b => if b.tag = tag then
          { b with ticket := none, ready := false, told := none } else b) }
    let s := s.onEngine e (fun x => { x with run := onAccess tag again x.run })
    let owner := (fabricParts a.addr).1
    if s.reachable owner then s.transmit owner (a.request s.devid e h.at_.cls)
    else (s.failEngine e tag).countStat 0 0 16
  | _, _ => s

/-- ENGINE_TICKET_REPLAY, R289. -/
def execEngineTicketReplay (engine : Nat) (s : State) : Host.Outcome State Fault Refusal :=
  .next ((s.engine engine).readyTags.foldl (fun s t => s.replayAccess engine t.2.2) s)

end Sys2Proof.Machine
end

