-- ==== Sys2Proof/Machine/Vector.lean ====
section
/-! DEFINITION. The vector slots: element-wise arithmetic, compares, moves, permutes, reductions, conversions,
sparsity, predicates and random numbers (chapter 09, R201 to R227). -/

namespace Sys2Proof.Machine

/-! ## Elements (R201, R202) -/

/-- Element `i` of width `w`. -/
def elem (w v i : Nat) : Nat := fld v (w * i) w

/-- Pack elements of width `w`, the first lowest. -/
def packElems (w : Nat) : List Nat → Nat
  | [] => 0
  | e :: t => e % 2 ^ w + 2 ^ w * packElems w t

/-- The governing bit of element `i` (R53). -/
def governed (p w i : Nat) : Bool := bitAt p (w / 8 * i)

/-- Patterns paired with flags: the packed patterns and the flags together. -/
def packFlagged (w : Nat) (l : List (Nat × Nat)) : Nat × Nat :=
  (packElems w (l.map (·.1)), l.foldl (fun a e => a ||| e.2) 0)

/-- Apply an element operation under a predicate: an element whose governing bit is clear keeps its old value (R202). -/
def vecMap (w pred old a b c : Nat) (op : Nat → Nat → Nat → Nat → Nat × Nat) : Nat × Nat :=
  packFlagged w ((List.range (1024 / w)).map (fun i =>
    if governed pred w i then op i (elem w a i) (elem w b i) (elem w c i) else (elem w old i, 0)))

/-- The operands A, B and C of format V3, in field order: ports pop (R148, R203). -/
def State.readAbc (s : State) (f : V3) : Nat × Nat × Nat × State :=
  let (a, s) := s.readVec f.a
  let (b, s) := s.readVec f.b
  let (c, s) := s.readVec f.c
  (a, b, c, s)

/-- What an element that does not take part keeps: the destination register's element, or zero for a push (R202). -/
def State.oldVec (s : State) (d : Nat) : Nat := if d < 384 then s.rd (.v d) else 0

/-- Deliver a vector result with its flags. -/
def State.deliverVec (s : State) (d lat : Nat) (r : Nat × Nat) : State := (s.resultVec d r.1 lat).raise r.2

/-- Run a predicated element-wise instruction of format V3. -/
def runV3 (i : Instr) (f : V3) (lat : Nat) (op : Nat → Nat → Nat → Nat → Nat × Nat) (s : State) :
    Host.Outcome State Fault Refusal :=
  runSlot i free (fun s =>
    let pred := s.rd (.p f.p)
    let old := s.oldVec f.d
    let (a, b, c, t) := s.readAbc f
    t.deliverVec f.d lat (vecMap (fmtWidth f.fmt) pred old a b c op)) s

/-- An operation that raises no flag. -/
def quiet (g : Nat → Nat → Nat → Nat) : Nat → Nat → Nat → Nat → Nat × Nat := fun _ a b c => (g a b c, 0)

/-- Run an instruction of format V3 that is unpredicated or sees whole vectors: `g` gets its operands. -/
def runWhole (i : Instr) (f : V3) (lat : Nat) (g : State → Nat → Nat → Nat) (s : State) :
    Host.Outcome State Fault Refusal :=
  runSlot i free (fun s =>
    let (a, b, _, t) := s.readAbc f
    t.deliverVec f.d lat (g s a b, 0)) s

/-! ## Floating-point arithmetic (R206 to R208) -/

/-- A two-operand float operation on patterns. -/
def floatOp (fmt : Nat) (g : FpFmt → Fv → Fv → Nat × Nat) : Nat → Nat → Nat → Nat → Nat × Nat :=
  fun _ a b _ => g (fpFmt fmt) ((fpFmt fmt).value a) ((fpFmt fmt).value b)

/-- A fused operation on patterns. -/
def fusedOp (fmt rm : Nat) (negProd negAdd : Bool) : Nat → Nat → Nat → Nat → Nat × Nat :=
  fun _ a b c => (fpFmt fmt).fused rm negProd negAdd ((fpFmt fmt).value a) ((fpFmt fmt).value b) ((fpFmt fmt).value c)

/-- A transcendental on patterns. -/
def funOp (fmt : Nat) (g : Fun) : Nat → Nat → Nat → Nat → Nat × Nat :=
  fun _ a _ _ => (fpFmt fmt).apply g ((fpFmt fmt).value a)

/-- VCLAMP on patterns: Min(Max(A, B), C), or the first NaN (R207). -/
def clampOp (fmt a b c : Nat) : Nat :=
  let f := fpFmt fmt
  (f.nanOr [f.value a, f.value b, f.value c] (f.pick false (f.pick true a b) c, 0)).1

/-- VADD, R206. -/
def execVadd (f : V3) (s : State) : Host.Outcome State Fault Refusal :=
  runV3 (.vadd f) f 6 (floatOp f.fmt (fun t => t.add f.rm)) s

/-- VSUB, R206. -/
def execVsub (f : V3) (s : State) : Host.Outcome State Fault Refusal :=
  runV3 (.vsub f) f 6 (floatOp f.fmt (fun t => t.sub f.rm)) s

/-- VMUL, R206. -/
def execVmul (f : V3) (s : State) : Host.Outcome State Fault Refusal :=
  runV3 (.vmul f) f 6 (floatOp f.fmt (fun t => t.mul f.rm)) s

/-- VFMA, R206. -/
def execVfma (f : V3) (s : State) : Host.Outcome State Fault Refusal :=
  runV3 (.vfma f) f 6 (fusedOp f.fmt f.rm false false) s

/-- VFMS, R206. -/
def execVfms (f : V3) (s : State) : Host.Outcome State Fault Refusal :=
  runV3 (.vfms f) f 6 (fusedOp f.fmt f.rm false true) s

/-- VFNMA, R206. -/
def execVfnma (f : V3) (s : State) : Host.Outcome State Fault Refusal :=
  runV3 (.vfnma f) f 6 (fusedOp f.fmt f.rm true false) s

/-- VMIN, R207. -/
def execVmin (f : V3) (s : State) : Host.Outcome State Fault Refusal :=
  runV3 (.vmin f) f 3 (quiet (fun a b _ => (fpFmt f.fmt).pick false a b)) s

/-- VMAX, R207. -/
def execVmax (f : V3) (s : State) : Host.Outcome State Fault Refusal :=
  runV3 (.vmax f) f 3 (quiet (fun a b _ => (fpFmt f.fmt).pick true a b)) s

/-- VCLAMP, R207. -/
def execVclamp (f : V3) (s : State) : Host.Outcome State Fault Refusal :=
  runV3 (.vclamp f) f 3 (quiet (clampOp f.fmt)) s

/-- VABS, R207. -/
def execVabs (f : V3) (s : State) : Host.Outcome State Fault Refusal :=
  runV3 (.vabs f) f 3 (quiet (fun a _ _ => fld a 0 (fmtWidth f.fmt - 1))) s

/-- VNEG, R207. -/
def execVneg (f : V3) (s : State) : Host.Outcome State Fault Refusal :=
  runV3 (.vneg f) f 3 (quiet (fun a _ _ => a ^^^ 2 ^ (fmtWidth f.fmt - 1))) s

/-- VRCP, R208, R94. -/
def execVrcp (f : V3) (s : State) : Host.Outcome State Fault Refusal :=
  runV3 (.vrcp f) f 12 (funOp f.fmt .rcp) s

/-- VRSQ, R208, R94. -/
def execVrsq (f : V3) (s : State) : Host.Outcome State Fault Refusal :=
  runV3 (.vrsq f) f 12 (funOp f.fmt .rsq) s

/-- VSQRT, R208, R94. -/
def execVsqrt (f : V3) (s : State) : Host.Outcome State Fault Refusal :=
  runV3 (.vsqrt f) f 16 (funOp f.fmt .sqrt) s

/-- VEXP2, R208, R94. -/
def execVexp2 (f : V3) (s : State) : Host.Outcome State Fault Refusal :=
  runV3 (.vexp2 f) f 16 (funOp f.fmt .exp2) s

/-- VLOG2, R208, R94. -/
def execVlog2 (f : V3) (s : State) : Host.Outcome State Fault Refusal :=
  runV3 (.vlog2 f) f 16 (funOp f.fmt .log2) s

/-! ## Integer arithmetic and bitwise (R209) -/

/-- The format is signed. -/
def signedFmt (fmt : Nat) : Bool := decide (8 ≤ fmt ∧ fmt ≤ 11)

/-- An element's integer value under an integer format. -/
def intValue (fmt v : Nat) : Int := if signedFmt fmt then sgn (fmtWidth fmt) v else (v : Int)

/-- The smaller or larger of two integer elements. -/
def intPick (fmt : Nat) (larger : Bool) (a b : Nat) : Nat :=
  if larger then (if intValue fmt a < intValue fmt b then b else a)
  else (if intValue fmt b < intValue fmt a then b else a)

/-- VIADD, R209. -/
def execViadd (f : V3) (s : State) : Host.Outcome State Fault Refusal :=
  runV3 (.viadd f) f 3 (quiet (fun a b _ => a + b)) s

/-- VISUB, R209. -/
def execVisub (f : V3) (s : State) : Host.Outcome State Fault Refusal :=
  runV3 (.visub f) f 3 (quiet (fun a b _ => wrap (fmtWidth f.fmt) ((a : Int) - b))) s

/-- VIMUL, R209. -/
def execVimul (f : V3) (s : State) : Host.Outcome State Fault Refusal :=
  runV3 (.vimul f) f 3 (quiet (fun a b _ => a * b)) s

/-- VIMAD, R209. -/
def execVimad (f : V3) (s : State) : Host.Outcome State Fault Refusal :=
  runV3 (.vimad f) f 3 (quiet (fun a b c => a * b + c)) s

/-- VIMIN, R209. -/
def execVimin (f : V3) (s : State) : Host.Outcome State Fault Refusal :=
  runV3 (.vimin f) f 3 (quiet (fun a b _ => intPick f.fmt false a b)) s

/-- VIMAX, R209. -/
def execVimax (f : V3) (s : State) : Host.Outcome State Fault Refusal :=
  runV3 (.vimax f) f 3 (quiet (fun a b _ => intPick f.fmt true a b)) s

/-- VAND, R209. -/
def execVand (f : V3) (s : State) : Host.Outcome State Fault Refusal :=
  runV3 (.vand f) f 3 (quiet (fun a b _ => a &&& b)) s

/-- VOR, R209. -/
def execVor (f : V3) (s : State) : Host.Outcome State Fault Refusal :=
  runV3 (.vor f) f 3 (quiet (fun a b _ => a ||| b)) s

/-- VXOR, R209. -/
def execVxor (f : V3) (s : State) : Host.Outcome State Fault Refusal :=
  runV3 (.vxor f) f 3 (quiet (fun a b _ => a ^^^ b)) s

/-- VSHL, R209. -/
def execVshl (f : V3) (s : State) : Host.Outcome State Fault Refusal :=
  runV3 (.vshl f) f 3 (quiet (fun a b _ => a * 2 ^ (b % fmtWidth f.fmt))) s

/-- VSHR, R209. -/
def execVshr (f : V3) (s : State) : Host.Outcome State Fault Refusal :=
  runV3 (.vshr f) f 3 (quiet (fun a b _ => a / 2 ^ (b % fmtWidth f.fmt))) s

/-- VSAR, R209. -/
def execVsar (f : V3) (s : State) : Host.Outcome State Fault Refusal :=
  runV3 (.vsar f) f 3 (quiet (fun a b _ => wrap (fmtWidth f.fmt) (sgn (fmtWidth f.fmt) a / ((2 ^ (b % fmtWidth f.fmt) : Nat) : Int)))) s

/-! ## Compares, selection and predicates (R210 to R212) -/

/-- A compare of R159's code on two places in an order; `nan` when an operand is NaN. -/
def comparePlaces (cc : Nat) (nan : Bool) (a b : Int) : Bool :=
  match cc with
  | 0 => !nan && a == b
  | 1 => nan || a != b
  | 2 => !nan && decide (a < b)
  | 3 => !nan && decide (a ≤ b)
  | 4 => !nan && decide (b < a)
  | 5 => !nan && decide (b ≤ a)
  | 6 => nan
  | _ => !nan

/-- VCMP on two elements. -/
def compareElems (cc fmt a b : Nat) : Bool :=
  if fmt ≤ 7 then
    let t := fpFmt fmt
    comparePlaces cc ((t.value a).isNan || (t.value b).isNan) (t.place a) (t.place b)
  else comparePlaces cc false (intValue fmt a) (intValue fmt b)

/-- A predicate from the elements' bits: the w/8 bits of each element together. -/
def packPred (w : Nat) (l : List Bool) : Nat := packElems (w / 8) (l.map (fun b => if b then 2 ^ (w / 8) - 1 else 0))

/-- VCMP, R210. -/
def execVcmp (f : V3) (s : State) : Host.Outcome State Fault Refusal :=
  runSlot (.vcmp f) free (fun s =>
    let pred := s.rd (.p f.p)
    let (a, b, _, t) := s.readAbc f
    let w := fmtWidth f.fmt
    t.result (.p f.d) (packPred w ((List.range (1024 / w)).map (fun i =>
      governed pred w i && compareElems (fld f.xf 0 4) f.fmt (elem w a i) (elem w b i)))) 3) s

/-- VSEL, R211. -/
def execVsel (f : V3) (s : State) : Host.Outcome State Fault Refusal :=
  runWhole (.vsel f) f 3 (fun s a b =>
    (vecMap (fmtWidth f.fmt) (s.rd (.p f.p)) b a 0 0 (quiet (fun x _ _ => x))).1) s

/-- VPCNT, R212. -/
def execVpcnt (f : V3) (s : State) : Host.Outcome State Fault Refusal :=
  runSlot (.vpcnt f) free (fun s =>
    let w := fmtWidth f.fmt
    let p := s.rd (.p f.a)
    s.result (.s f.d) ((List.range (1024 / w)).filter (fun i => governed p w i)).length 3) s

/-- Run a predicate operation (R212). -/
def runPred (i : Instr) (f : V3) (g : Nat → Nat → Nat) (s : State) : Host.Outcome State Fault Refusal :=
  runSlot i free (fun s => s.result (.p f.d) (g (s.rd (.p f.a)) (s.rd (.p f.b)) % 2 ^ 128) 1) s

/-- PAND, R212. -/
def execPand (f : V3) (s : State) : Host.Outcome State Fault Refusal := runPred (.pand f) f (fun a b => a &&& b) s

/-- POR, R212. -/
def execPor (f : V3) (s : State) : Host.Outcome State Fault Refusal := runPred (.por f) f (fun a b => a ||| b) s

/-- PXOR, R212. -/
def execPxor (f : V3) (s : State) : Host.Outcome State Fault Refusal := runPred (.pxor f) f (fun a b => a ^^^ b) s

/-- PNOT, R212. -/
def execPnot (f : V3) (s : State) : Host.Outcome State Fault Refusal :=
  runPred (.pnot f) f (fun a _ => 2 ^ 128 - 1 - a) s

/-! ## Moves and permutes (R213 to R216) -/

/-- VMOV, R213. -/
def execVmov (f : V3) (s : State) : Host.Outcome State Fault Refusal :=
  runV3 (.vmov f) f 3 (quiet (fun a _ _ => a)) s

/-- Imm(FMT) of VMOVI (R213). -/
def vecImm (fmt imm : Nat) : Nat := if fmt = 11 then wrap 64 (sgn 32 imm) else imm

/-- VMOVI, R213. -/
def execVmovi (f : VI) (s : State) : Host.Outcome State Fault Refusal :=
  runSlot (.vmovi f) free (fun s =>
    s.deliverVec f.d 3 (vecMap (fmtWidth f.fmt) (s.rd (.p f.p)) (s.oldVec f.d) 0 0 0
      (quiet (fun _ _ _ => vecImm f.fmt f.imm)))) s

/-- VBCAST, R213. -/
def execVbcast (f : V3) (s : State) : Host.Outcome State Fault Refusal :=
  runSlot (.vbcast f) free (fun s =>
    s.deliverVec f.d 3 (vecMap (fmtWidth f.fmt) (s.rd (.p f.p)) (s.oldVec f.d) 0 0 0
      (quiet (fun _ _ _ => s.rs f.a)))) s

/-- VINS, R213. -/
def execVins (f : V3) (s : State) : Host.Outcome State Fault Refusal :=
  runSlot (.vins f) free (fun s =>
    let w := fmtWidth f.fmt
    s.deliverVec f.d 3 (setFld (s.oldVec f.d) (w * fld f.xf 0 7) w (s.rs f.a), 0)) s

/-- VEXT, R213. -/
def execVext (f : V3) (s : State) : Host.Outcome State Fault Refusal :=
  runSlot (.vext f) free (fun s =>
    let (a, s) := s.readVec f.a
    let x := elem (fmtWidth f.fmt) a (fld f.xf 0 7)
    s.result (.s f.d) (if signedFmt f.fmt then wrap 64 (sgn (fmtWidth f.fmt) x) else x) 3) s

/-- Run a predicated permutation: element `i` is chosen from the two whole operands. -/
def runPermute (i : Instr) (f : V3) (g : Nat → Nat → Nat → Nat) (s : State) : Host.Outcome State Fault Refusal :=
  runSlot i free (fun s =>
    let pred := s.rd (.p f.p)
    let old := s.oldVec f.d
    let (a, b, _, t) := s.readAbc f
    t.deliverVec f.d 3 (vecMap (fmtWidth f.fmt) pred old 0 0 0 (fun i _ _ _ => (g a b i, 0)))) s

/-- Element `i` of the sequence of A's elements followed by B's (R215). -/
def chained (w a b i : Nat) : Nat := if i < 1024 / w then elem w a i else elem w b (i - 1024 / w)

/-- VPERM, R214. -/
def execVperm (f : V3) (s : State) : Host.Outcome State Fault Refusal :=
  runPermute (.vperm f) f (fun a b i =>
    let j := elem (fmtWidth f.fmt) b i
    if j < lanes f.fmt then elem (fmtWidth f.fmt) a j else 0) s

/-- VSLIDE, R215. -/
def execVslide (f : V3) (s : State) : Host.Outcome State Fault Refusal :=
  runPermute (.vslide f) f (fun a b i => chained (fmtWidth f.fmt) a b (i + f.xf)) s

/-- VZIP, R216. -/
def execVzip (f : V3) (s : State) : Host.Outcome State Fault Refusal :=
  runPermute (.vzip f) f (fun a b i =>
    elem (fmtWidth f.fmt) (if i % 2 = 0 then a else b) (fld f.xf 0 1 * (lanes f.fmt / 2) + i / 2)) s

/-- VUNZIP, R216. -/
def execVunzip (f : V3) (s : State) : Host.Outcome State Fault Refusal :=
  runPermute (.vunzip f) f (fun a b i => chained (fmtWidth f.fmt) a b (2 * i + fld f.xf 0 1)) s

/-! ## Reductions and scans (R92, R93, R217) -/

/-- One operation of a reduction: add, mul, min, max, and, or, xor (R159). -/
def redOp (fmt op a b : Nat) : Nat × Nat :=
  let w := fmtWidth fmt
  if fmt ≤ 2 then
    let t := fpFmt fmt
    match op with
    | 0 => t.add 0 (t.value a) (t.value b)
    | 1 => t.mul 0 (t.value a) (t.value b)
    | 2 => (t.pick false a b, 0)
    | _ => (t.pick true a b, 0)
  else
    match op with
    | 0 => ((a + b) % 2 ^ w, 0)
    | 1 => (a * b % 2 ^ w, 0)
    | 2 => (intPick fmt false a b, 0)
    | 3 => (intPick fmt true a b, 0)
    | 4 => (a &&& b, 0)
    | 5 => (a ||| b, 0)
    | _ => (a ^^^ b, 0)

/-- The identity of an operation (R92, R217). -/
def redIdentity (fmt op : Nat) : Nat :=
  let w := fmtWidth fmt
  if fmt ≤ 2 then
    let t := fpFmt fmt
    match op with
    | 0 => 0
    | 1 => t.bias * 2 ^ t.m
    | 2 => t.infBits
    | _ => t.signed true t.infBits
  else
    match op with
    | 0 => 0
    | 1 => 1
    | 2 => if signedFmt fmt then 2 ^ (w - 1) - 1 else 2 ^ w - 1
    | 3 => if signedFmt fmt then 2 ^ (w - 1) else 0
    | 4 => 2 ^ w - 1
    | _ => 0

/-- A node of the tree: absent, or a value; with the flags raised below it. -/
abbrev Node := Option Nat × Nat

/-- Combine two nodes: an absent child leaves the other unchanged (R92). -/
def redNode (fmt op : Nat) (x y : Node) : Node :=
  match x.1, y.1 with
  | some a, some b => let r := redOp fmt op a b; (some r.1, x.2 ||| y.2 ||| r.2)
  | some a, none => (some a, x.2 ||| y.2)
  | none, z => (z, x.2 ||| y.2)

/-- The next level of the tree. -/
def redLevel (fmt op : Nat) : List Node → List Node
  | x :: y :: t => redNode fmt op x y :: redLevel fmt op t
  | l => l

/-- The levels of the tree from the lanes up, `n` levels above them. -/
def redLevels (fmt op : Nat) : Nat → List Node → List (List Node)
  | 0, l => [l]
  | n + 1, l => l :: redLevels fmt op n (redLevel fmt op l)

/-- The lanes of a source under a predicate. -/
def redLanes (fmt pred a : Nat) : List Node :=
  (List.range (lanes fmt)).map (fun i =>
    (if governed pred (fmtWidth fmt) i then some (elem (fmtWidth fmt) a i) else none, 0))

/-- Levels above the lanes: log2 n. -/
def redDepth (fmt : Nat) : Nat := Nat.log2 (lanes fmt)

/-- The latency of VRED and VSCAN (R204). -/
def redLatency (fmt : Nat) : Nat := if fmt ≤ 2 then 6 + 2 * redDepth fmt else 3 + redDepth fmt

/-- The blocks of [0, i], largest first from lane 0, combined from the left (R93); `n` is the top level. -/
def scanLane (fmt op i : Nat) (levels : List (List Node)) : Nat → Nat → Node → Node
  | 0, _, acc => acc
  | l + 1, start, acc =>
    if bitAt (i + 1) l then
      let node := ((levels[l]?).bind (fun v => v[start / 2 ^ l]?)).getD (none, 0)
      scanLane fmt op i levels l (start + 2 ^ l) (redNode fmt op acc node)
    else scanLane fmt op i levels l start acc

/-- VRED, R217. -/
def execVred (f : V3) (s : State) : Host.Outcome State Fault Refusal :=
  runSlot (.vred f) free (fun s =>
    let pred := s.rd (.p f.p)
    let (a, s) := s.readVec f.a
    let op := fld f.xf 0 3
    let root := (((redLevels f.fmt op (redDepth f.fmt) (redLanes f.fmt pred a)).getLast?).bind (·.head?)).getD (none, 0)
    s.deliverVec f.d (redLatency f.fmt) (root.1.getD (redIdentity f.fmt op), root.2)) s

/-- VSCAN, R217. -/
def execVscan (f : V3) (s : State) : Host.Outcome State Fault Refusal :=
  runSlot (.vscan f) free (fun s =>
    let pred := s.rd (.p f.p)
    let (a, s) := s.readVec f.a
    let op := fld f.xf 0 3
    let levels := redLevels f.fmt op (redDepth f.fmt) (redLanes f.fmt pred a)
    let lane (i : Nat) : Node := scanLane f.fmt op i levels (redDepth f.fmt + 1) 0 (none, 0)
    s.deliverVec f.d (redLatency f.fmt) (packFlagged (fmtWidth f.fmt) ((List.range (lanes f.fmt)).map (fun i =>
      ((lane i).1.getD (redIdentity f.fmt op), (lane i).2))))) s

/-! ## Conversions (R218 to R222) -/

/-- The elements that a register holds (R218). -/
def capacity (w : Nat) : Nat := if w = 6 then 168 else 1024 / w

/-- The draw of element `i` under stochastic rounding (R79, R218). -/
def State.drawAt (s : State) (sb n i : Nat) : Nat :=
  draw s.issue.pre.srseed.toNat ((s.rs sb % 2 ^ 48 + i) % 2 ^ 48) n

/-- VCVT, R219. -/
def execVcvt (f : VK) (s : State) : Host.Outcome State Fault Refusal :=
  runSlot (.vcvt f) free (fun s =>
    let r (i : Nat) : Nat := if f.rm = 4 then s.drawAt f.sb f.n i else 0
    let (a, t) := s.readVec f.a
    let ws := fmtWidth f.sfmt
    let wd := fmtWidth f.dfmt
    t.deliverVec f.d 6 (packFlagged wd ((List.range (min (capacity ws) (capacity wd))).map (fun i =>
      convert f.dfmt f.rm (r i) (valueOf f.sfmt (elem ws a i)))))) s

/-- Round one element to a narrower format's grid and write it in its own (R220). -/
def roundOnto (sfmt dfmt rm r x : Nat) : Nat × Nat :=
  let t := fpFmt sfmt
  let u := fpFmt dfmt
  let (y, fl) := u.deliver rm r (t.value x)
  match u.value y with
  | .nan n _ _ => (t.signed n t.canonical, fl)
  | v => ((t.deliver 0 0 v).1, fl)

/-- VSRND, R220. -/
def execVsrnd (f : VK) (s : State) : Host.Outcome State Fault Refusal :=
  runSlot (.vsrnd f) free (fun s =>
    let r (i : Nat) : Nat := if f.rm = 4 then s.drawAt f.sb f.n i else 0
    let (a, t) := s.readVec f.a
    let ws := fmtWidth f.sfmt
    t.deliverVec f.d 6 (packFlagged ws ((List.range (1024 / ws)).map (fun i =>
      roundOnto f.sfmt f.dfmt f.rm (r i) (elem ws a i))))) s

/-- VBLOCK, R221: mantissas to D, scale words to D + 1. -/
def execVblock (f : VK) (s : State) : Host.Outcome State Fault Refusal :=
  runSlot (.vblock f) free (fun s =>
    let r (i : Nat) : Nat := if f.rm = 4 then s.drawAt f.sb f.n i else 0
    let (a, t) := s.readVec f.a
    let ws := fmtWidth f.sfmt
    let wd := fmtWidth f.dfmt
    let bs := (List.range (1024 / ws / 32)).map (fun j =>
      toBlock wd f.rm (f.pw == 1) (fun i => r (32 * j + i))
        ((List.range 32).map (fun i => (fpFmt f.sfmt).value (elem ws a (32 * j + i)))))
    let mant := packElems wd (bs.flatMap (fun b => b.2.1))
    let scale := packElems 32 (bs.map (·.1))
    ((t.result (.v f.d) mant 10).result (.v (f.d + 1)) scale 10).raise (bs.foldl (fun x b => x ||| b.2.2) 0)) s

/-- VUNBLOCK, R222. An element with a NaN scale raises no flag: R87 refers to R75, R84 calls the element NaN, and neither says
whether NV and NAN rise (log entry 105). -/
def execVunblock (f : VK) (s : State) : Host.Outcome State Fault Refusal :=
  runSlot (.vunblock f) free (fun s =>
    let w := fmtWidth f.sfmt
    let wd := fmtWidth f.dfmt
    let t := fpFmt f.dfmt
    let mant := s.rd (.v f.a)
    let scale := s.rd (.v (f.a + 1))
    s.deliverVec f.d 6 (packFlagged wd ((List.range (1024 / wd)).map (fun i =>
      match blockValue w (elem w mant i) (scaleOf (elem 32 scale (i / 32))) with
      | none => (t.canonical, 0)
      | some v => t.deliver f.rm 0 v)))) s

/-! ## Sparsity (R223, R224) -/

/-- Rank of an element (R223). -/
def rankOf (fmt v : Nat) : Nat :=
  if fmt ≤ 7 then (if ((fpFmt fmt).value v).isNan then 2 ^ fmtWidth fmt else fld v 0 (fmtWidth fmt - 1))
  else (intValue fmt v).natAbs

/-- The index of the largest rank, ties to the lower index, one index left out. -/
def topRank (skip : Option Nat) (l : List (Nat × Nat)) : Nat :=
  ((l.filter (fun e => some e.1 != skip)).foldl (fun (best : Option (Nat × Nat)) e =>
    match best with
    | none => some e
    | some b => if b.2 < e.2 then some e else some b) none).elim 0 (·.1)

/-- The two kept indices of a group of four, in increasing order. -/
def keptPair (ranks : List Nat) : Nat × Nat :=
  let l := (List.range 4).zip ranks
  let i := topRank none l
  let j := topRank (some i) l
  (min i j, max i j)

/-- VCOMPRESS, R223. -/
def execVcompress (f : V3) (s : State) : Host.Outcome State Fault Refusal :=
  runSlot (.vcompress f) free (fun s =>
    let (a, s) := s.readVec f.a
    let w := fmtWidth f.fmt
    let pairs := (List.range (lanes f.fmt / 4)).map (fun g =>
      (g, keptPair ((List.range 4).map (fun j => rankOf f.fmt (elem w a (4 * g + j))))))
    let kept := packElems w (pairs.flatMap (fun e => [elem w a (4 * e.1 + e.2.1), elem w a (4 * e.1 + e.2.2)]))
    let info := packElems 4 (pairs.map (fun e => e.2.2 * 4 + e.2.1))
    (s.resultVec f.d kept 4).result (.v f.c) info 4) s

/-- VEXPAND, R224. -/
def execVexpand (f : V3) (s : State) : Host.Outcome State Fault Refusal :=
  runWhole (.vexpand f) f 3 (fun _ a b =>
    let w := fmtWidth f.fmt
    packElems w ((List.range (lanes f.fmt)).map (fun i =>
      let g := i / 4
      if fld b (4 * g + 2) 2 = i % 4 then elem w a (2 * g + 1)
      else if fld b (4 * g) 2 = i % 4 then elem w a (2 * g)
      else 0))) s

/-! ## Random numbers (R226) -/

/-- VRAND, R226. -/
def execVrand (f : VK) (s : State) : Host.Outcome State Fault Refusal :=
  runSlot (.vrand f) free (fun s =>
    s.deliverVec f.d 8 (packElems 32 ((List.range 32).map (fun i =>
      let u := s.drawAt f.sb f.n i
      if f.dfmt = 14 then u
      else (f32.deliver 0 0 (.fin false (u / 2 ^ 8) (-24))).1)), 0)) s

end Sys2Proof.Machine
end

