-- ==== Sys2Proof/Machine/Matrix.lean ====
section
/-! DEFINITION. The mx slot: issue, start and landing of the commands of the array, the tile port, the latch path and the
stack path, and the spill engine (R56, R57, R69, R88 to R96, R228 to R248, R398, R415, R421). -/

namespace Sys2Proof

open Sys2Proof.Machine

/-- Blocks of an operation of format MM. -/
def MM.blocks (f : MM) : Nat := f.kb + 1

/-- The latches that an operation's rotation reaches (R234). -/
def MM.latches (f : MM) : List Nat := (List.range (f.kb / 8 + 1)).map (fun q => (f.w + q) % 8)

/-- Steps per k index (R235). -/
def MM.steps (f : MM) : Nat := cdiv (f.wa + 1) 4 * cdiv (f.wb + 1) 8

/-- The array operation's fields, and the k indices that a block takes: 32, or 16 compressed (R235, R236). -/
def Instr.arrayOp : Instr → Option (MM × Nat)
  | .mop f => some (f, 32)
  | .mops f => some (f, 16)
  | .mopr f => some (f, 32)
  | _ => none

/-- The operand runs of an MLATCH: mantissas and scales, block row by block row (R232). -/
def ML.regions (f : ML) (am as : Nat) : List (Nat × Nat) × List (Nat × Nat) :=
  let w := f.wb + 1
  let n := f.cols + 1
  ((List.range (f.kb + 1)).map (fun b => (am + 4 * w * 128 * b, n * 4 * w)),
   (List.range (f.kb + 1)).map (fun b => (as + 512 * b, n * 4)))

/-- Bytes of the planes and of the scale words of the A operand (R234, R236). -/
def MM.planeBytes (f : MM) (n : Nat) : Nat := 16 * (f.wa + 1) * n * f.blocks

/-- Bytes of the scale or metadata words of `rows` rows. -/
def MM.wordBytes (f : MM) (rows : Nat) : Nat := 512 * f.kb + 4 * rows

/-- Active rows of a MOPR at a rope position (R237). -/
def MM.rowsAt (f : MM) (p : Nat) : Nat := if p / 4 = 0 then 128 else f.rows + 1

/-- Active columns of a MOPR at a rope position (R237). -/
def MM.colsAt (f : MM) (p : Nat) : Nat := if p % 4 < 3 then 128 else f.cols + 1

/-- Bytes of the weights and of the moments (R244). -/
def MO.bytes (f : MO) : Nat × Nat := (16384 * (fmtWidth f.wfmt / 8), 65536)

/-- The address registers of an optimiser command's operands, with their sizes. -/
def MO.operands (f : MO) (adam : Bool) : List (Nat × Nat) :=
  [(f.aw, f.bytes.1), (f.am1, f.bytes.2)] ++ (if adam then [(f.am2, f.bytes.2)] else [])

end Sys2Proof

namespace Sys2Proof.Machine

/-! ## Operands in memory (R231, R248, R398) -/

/-- A flat range as runs of locations, page by page. -/
def State.flatSpans (s : State) (k va n : Nat) (write : Bool) : Except Hurdle (List Span) :=
  (s.pageParts k va n).mapM (fun p => match s.flatPart k p.1 1 write .data with
    | .ok (q :: _) => .ok { loc := q.loc, len := p.2, cached := q.l1, held := q.held }
    | .ok [] => .error (.wait .walk)
    | .stop h => .error h)

/-- The runs of an operand of `n` bytes that `badAddr` admits. -/
def State.spansOf (s : State) (k a n : Nat) (write : Bool) : Except Hurdle (List Span) :=
  if addrKind a = 0 then s.flatSpans k (fld a 0 57) n write
  else
    match s.reach k a 1 write .data with
    | .ok (q :: _) => .ok [{ loc := q.loc, len := n }]
    | .ok [] => .ok []
    | .stop h => .error h

/-- Those runs where there is no hurdle. -/
def State.spans (s : State) (a n : Nat) (write : Bool) : List Span :=
  match s.spansOf s.issue.strand a n write with
  | .ok l => l
  | .error _ => []

/-- What translation holds an operand back by. -/
def State.spanHurdle (s : State) (a n : Nat) (write : Bool) : Option Hurdle :=
  match s.spansOf s.issue.strand a n write with
  | .ok _ => none
  | .error h => some h

/-- The location of a byte of an operand. -/
def spanLoc : List Span → Nat → Nat
  | [], _ => 0
  | p :: t, o => if o < p.len then p.loc + o else spanLoc t (o - p.len)

/-- A byte of an operand as strand `k` sees memory (R231). -/
def State.spanByte (s : State) (k : Nat) (l : List Span) (o : Nat) : Nat := (s.homeByte k { loc := spanLoc l o }).toNat

/-- The little-endian number of `n` bytes of an operand. -/
def State.spanNum (s : State) (k : Nat) (l : List Span) (o n : Nat) : Nat :=
  ofBytes ((locsFrom o n).map (fun i => s.homeByte k { loc := spanLoc l i }))

/-- The first poisoned sector of an operand. -/
def State.spanPoison (s : State) (l : List Span) : Option Nat :=
  s.sys.poison.find? (fun sec => l.any (fun p => overlaps [(p.loc, p.len)] sec))

/-- The store that writes bytes at offsets of an operand. -/
def spanStore (c : Nat) (l : List Span) (bytes : List (Nat × Byte)) : Store :=
  let cells := bytes.map (fun e => (spanLoc l e.1, e.2))
  let sectors := (cells.map (fun e => e.1 / 64)).dedup
  let inside (p : Span → Bool) (sec : Nat) : Bool := l.any (fun q => p q && overlaps [(q.loc, q.len)] sec)
  { core := c, cells := cells
    cached := sectors.filter (inside (fun q => q.cached && !q.held))
    held := sectors.filter (inside (fun q => q.held)) }

/-! ## Issue (R228, R248, R398) -/

/-- The commands of a core that have not landed. -/
def Core.mxAll (c : Core) : List MxCmd := c.mxq.flatMap (·.2) ++ c.mxRun.map (·.2)

/-- The tiles of the issuing slot: the first and how many (R57). -/
def State.tileRange (s : State) : Nat × Nat :=
  let acc := (s.gangOf s.issue.strand).desc.acc
  let c := ctxOf s.issue.strand
  ((acc.take c).foldl (· + ·) 0, (acc[c]?).getD 0)

/-- The recorded format of a tile is integer (R398). -/
def State.tileInt (s : State) (t : Nat) : Bool := Table.get (s.core s.myCore).tileFmt false t

/-- A tile of the issuing slot. -/
def State.ownTile (s : State) (t : Nat) : Bool :=
  decide (s.tileRange.1 ≤ t) && decide (t < s.tileRange.1 + s.tileRange.2)

/-- A latch of the issuing slot (R56). -/
def State.ownLatch (s : State) (w : Nat) : Bool :=
  bitAt (((s.gangOf s.issue.strand).desc.latch[ctxOf s.issue.strand]?).getD 0) w

/-- The tiles that an operation on `t` works on: an integer tile is a pair (R57). -/
def tilesOf (t : Nat) (int : Bool) : List Nat := if int then [t / 2 * 2, t / 2 * 2 + 1] else [t]

/-- The tile is one that an operation may not name: outside the range, or the odd half of an integer pair. -/
def State.tileBad (s : State) (t : Nat) (oddToo : Bool) : Bool :=
  !(tilesOf t (s.tileInt t)).all s.ownTile || (s.tileInt t && t % 2 == 1 && !oddToo)

/-- A fault with the slot bits, if a condition holds. -/
def slotFault (i : Instr) (c : Cause) (b : Bool) : Option Hurdle := if b then some (.fault c i.encode) else none

/-- A wait, if a condition holds. -/
def waitIf (w : Wait) (b : Bool) : Option Hurdle := if b then some (.wait w) else none

/-- The queue of a path is full (R228). -/
def State.pathFull (s : State) (p : Nat) : Bool := decide (8 ≤ (Table.get (s.core s.myCore).mxq [] p).length)

/-- A command of the issuing bundle. -/
def State.mxCmd (s : State) (i : Instr) (lat : Nat) : MxCmd :=
  { strand := s.issue.strand, num := (s.core s.myCore).mxNum, i := i, lscale := sgn 8 s.issue.pre.lscale
    seed := s.issue.pre.srseed.toNat, lat := lat, issued := s.cycle, exposed := s.issue.x }

/-- A command enters its path's queue (R228). -/
def State.issueMx (s : State) (p : Nat) (m : MxCmd) : State :=
  s.onCore s.myCore (fun c =>
    { c with mxNum := c.mxNum + 1, mxq := Table.set c.mxq p (Table.get c.mxq [] p ++ [m]) })

/-- The cycle on which block `b` of a running operation starts. -/
def MxCmd.blockAt (m : MxCmd) (b : Nat) : Nat :=
  match m.i.arrayOp with
  | some (f, n) => m.startedAt + n * b * f.steps
  | none => m.startedAt

/-- In interlocked mode an array operation waits for the strand's older MLATCHes of its latches (R233). -/
def State.latchPends (s : State) (ws : List Nat) : Bool :=
  !s.issue.x && (s.core s.myCore).mxAll.any (fun m => m.strand == s.issue.strand && (match m.i.latchDest with
    | some w => ws.contains w
    | none => false))

/-- In interlocked mode an MLATCH waits until the strand's older array operations that read its latch have started all
their blocks (R233). -/
def State.latchInUse (s : State) (w : Nat) : Bool :=
  let c := s.core s.myCore
  let reads (m : MxCmd) : Bool := m.strand == s.issue.strand && (match m.i.arrayOp with
    | some (f, _) => f.latches.contains w
    | none => false)
  !s.issue.x && (c.mxq.any (fun q => q.2.any reads) || c.mxRun.any (fun e => reads e.2 && (match e.2.i.arrayOp with
    | some (f, _) => decide (s.cycle < e.2.blockAt f.kb)
    | none => false)))

/-! ### MLATCH -/

/-- The end of the last run, from the first. -/
def regionEnd (l : List (Nat × Nat)) : Nat :=
  match l.head?, l.getLast? with
  | some a, some b => b.1 + b.2 - a.1
  | _, _ => 0

/-- MLATCH's checks. -/
def mlatchHurdle (f : ML) (s : State) : Option Hurdle :=
  let i := Instr.mlatch f
  let r := f.regions (s.ra f.aa) (s.ra f.sc)
  firstHurdle (
    [s.addrHurdle (s.ra f.aa) (regionEnd r.1) 64 loadKinds, s.addrHurdle (s.ra f.sc) (regionEnd r.2) 64 loadKinds,
     slotFault i .badLatchOrTile (!s.ownLatch f.w), waitIf .scoreboard (s.latchInUse f.w),
     waitIf .engineFull (s.pathFull 2)] ++ (r.1 ++ r.2).map (fun e => s.spanHurdle e.1 e.2 false))

/-- MLATCH, R232. -/
def execMlatch (f : ML) (s : State) : Host.Outcome State Fault Refusal :=
  runSlot (.mlatch f) (mlatchHurdle f) (fun s =>
    let r := f.regions (s.ra f.aa) (s.ra f.sc)
    let runs (l : List (Nat × Nat)) : List Span := l.flatMap (fun e => s.spans e.1 e.2 false)
    s.issueMx 2 { s.mxCmd (.mlatch f) f.lat with mem := [runs r.1, runs r.2] }) s

/-! ### MOP, MOPS, MOPR -/

/-- The checks of an array operation whose A operand the issuing core holds, of `rows` rows. -/
def State.arrayHurdle (s : State) (i : Instr) (f : MM) (n rows : Nat) (own detached : Bool) : Option Hurdle :=
  let addr (a m al : Nat) : Option Hurdle := if own then s.addrHurdle a m al [0x8] else none
  firstHurdle
    [slotFault i .badUse detached,
     addr (s.ra f.aa) (f.planeBytes n) 256, addr (s.ra (f.aa + 1)) (f.wordBytes rows) 64,
     if n = 16 then addr (s.ra f.am) (f.wordBytes rows) 64 else none,
     slotFault i .badLatchOrTile (s.tileBad f.acc false || !f.latches.all s.ownLatch),
     waitIf .scoreboard (s.latchPends f.latches), waitIf .engineFull (s.pathFull 0)]

/-- The command of an array operation on a tile. -/
def State.tileCmd (s : State) (i : Instr) (lat t : Nat) : MxCmd :=
  { s.mxCmd i lat with tiles := tilesOf t (s.tileInt t), int := s.tileInt t }

/-- MOP, R234. -/
def execMop (f : MM) (s : State) : Host.Outcome State Fault Refusal :=
  runSlot (.mop f) (fun s => s.arrayHurdle (.mop f) f 32 (f.rows + 1) true false) (fun s =>
    s.issueMx 0 { s.tileCmd (.mop f) f.lat f.acc with
      mem := [s.spans (s.ra f.aa) (f.planeBytes 32) false, s.spans (s.ra (f.aa + 1)) (f.wordBytes (f.rows + 1)) false] }) s

/-- MOPS, R236. -/
def execMops (f : MM) (s : State) : Host.Outcome State Fault Refusal :=
  runSlot (.mops f) (fun s => s.arrayHurdle (.mops f) f 16 (f.rows + 1) true false) (fun s =>
    s.issueMx 0 { s.tileCmd (.mops f) f.lat f.acc with
      mem := [s.spans (s.ra f.aa) (f.planeBytes 16) false, s.spans (s.ra (f.aa + 1)) (f.wordBytes (f.rows + 1)) false,
              s.spans (s.ra f.am) (f.wordBytes (f.rows + 1)) false] }) s

/-- Positions 0 and 4 read the A operand (R237). -/
def State.feedsRope (s : State) : Bool := posOf s.issue.strand % 4 == 0

/-- MOPR's checks. -/
def moprHurdle (f : MM) (s : State) : Option Hurdle :=
  s.arrayHurdle (.mopr f) f 32 (f.rowsAt (posOf s.issue.strand)) s.feedsRope (!s.issue.pre.onStream)

/-- The rendezvous of a slot that a strand off the stream will not join are abandoned (R239). -/
def State.abandonLeft (s : State) (r c : Nat) : State :=
  ([0, 1, 2, 3, 4, 5, 6, 7].map (strandAt r c)).foldl (fun s k =>
    let x := s.strand k
    if x.onStream || (x.st == .frozen && x.wasAttached) then s else s.abandonMopr k) s

/-- MOPR, R237, R238: the issue joins the rendezvous of its context slot, which is abandoned if a strand has left. -/
def execMopr (f : MM) (s : State) : Host.Outcome State Fault Refusal :=
  runSlotWith (.mopr f) (fun s => if s.feedsRope then [.a f.aa, .a (f.aa + 1)] else []) (moprHurdle f) (fun s =>
    let k := s.issue.strand
    let rows := f.rowsAt (posOf k)
    let mem := if s.feedsRope then
      [s.spans (s.ra f.aa) (f.planeBytes 32) false, s.spans (s.ra (f.aa + 1)) (f.wordBytes rows) false] else []
    ((s.issueMx 0 { s.tileCmd (.mopr f) f.lat f.acc with mem := mem }).onRope (ropeOf k) (fun r =>
      { r with mopr := Table.set r.mopr (ctxOf k) (Table.get r.mopr [] (ctxOf k) ++ [posOf k]) })).abandonLeft
        (ropeOf k) (ctxOf k)) s

/-! ### MRANK1 and the tile port -/

/-- Read `n` successive vector registers. -/
def State.vecsFrom (s : State) (v : Nat) : Nat → List Nat
  | 0 => []
  | n + 1 => s.rd (.v v) :: s.vecsFrom (v + 1) n

/-- The checks of a float-only operation on a tile. -/
def State.floatTileHurdle (s : State) (i : Instr) (t p : Nat) : Option Hurdle :=
  firstHurdle [slotFault i .badLatchOrTile (s.tileBad t false || s.tileInt t), waitIf .engineFull (s.pathFull p)]

/-- MRANK1, R240. -/
def execMrank1 (f : MR) (s : State) : Host.Outcome State Fault Refusal :=
  runSlot (.mrank1 f) (fun s => s.floatTileHurdle (.mrank1 f) f.acc 0) (fun s =>
    let n := mrankRegs f.fmt
    s.issueMx 0 { s.tileCmd (.mrank1 f) f.lat f.acc with vecs := s.vecsFrom f.vx n ++ s.vecsFrom f.vy n }) s

/-- MZERO's checks: without `int` it may name one tile of a pair (R241, R398). -/
def mzeroHurdle (f : MZ) (s : State) : Option Hurdle :=
  firstHurdle
    [slotFault (.mzero f) .badLatchOrTile
       (!(tilesOf f.acc (f.opt == 1)).all s.ownTile || (f.opt == 1 && f.acc % 2 == 1)),
     waitIf .engineFull (s.pathFull 1)]

/-- MZERO, R241: the record of formats changes at issue (R398). -/
def execMzero (f : MZ) (s : State) : Host.Outcome State Fault Refusal :=
  runSlot (.mzero f) (mzeroHurdle f) (fun s =>
    let pair := f.opt = 1 ∨ s.tileInt f.acc
    let ts := tilesOf f.acc (decide pair)
    let s' := s.issueMx 1 { s.mxCmd (.mzero f) f.lat with tiles := ts, int := f.opt == 1 }
    s'.onCore s.myCore (fun c =>
      { c with tileFmt := ts.foldl (fun t n => Table.set t n (f.opt == 1)) c.tileFmt })) s

/-- MLOSS, R241. -/
def execMloss (f : MZ) (s : State) : Host.Outcome State Fault Refusal :=
  runSlot (.mloss f) (fun s => s.floatTileHurdle (.mloss f) f.acc 1) (fun s =>
    s.issueMx 1 { s.tileCmd (.mloss f) f.lat f.acc with ops := [s.rs f.s % 256] }) s

/-- A command of a strand works on a tile. -/
def Core.tileBusy (c : Core) (k t : Nat) : Bool := c.mxAll.any (fun m => m.strand == k && m.tiles.contains t)

/-- MDRAIN's checks and wait. -/
def mdrainHurdle (f : MZ) (s : State) : Option Hurdle :=
  firstHurdle
    [slotFault (.mdrain f) .badLatchOrTile (s.tileBad f.acc false),
     waitIf .drain ((s.core s.myCore).tileBusy s.issue.strand f.acc), waitIf .engineFull (s.pathFull 1)]

/-- MDRAIN, R228, R241: once the strand's operations on its tile have landed it enters the tile port's queue, where nothing
is left for it to do. -/
def execMdrain (f : MZ) (s : State) : Host.Outcome State Fault Refusal :=
  runSlot (.mdrain f) (mdrainHurdle f) (fun s => s.issueMx 1 (s.mxCmd (.mdrain f) 0)) s

/-- MSTAT's checks: the odd half of a pair is admitted, as its ODD bit tells (R242). -/
def mstatHurdle (f : MZ) (s : State) : Option Hurdle :=
  firstHurdle [slotFault (.mstat f) .badLatchOrTile (s.tileBad f.acc true), waitIf .engineFull (s.pathFull 1)]

/-- MSTAT, R242. -/
def execMstat (f : MZ) (s : State) : Host.Outcome State Fault Refusal :=
  runSlot (.mstat f) (mstatHurdle f) (fun s =>
    let m := s.tileCmd (.mstat f) f.lat f.acc
    (s.issueMx 1 m).later (.s f.s) none .mx f.lat m.num) s

/-- Elements of a row segment (R243). -/
def segLen (fmt : Nat) : Nat := min 128 (1024 / fmtWidth fmt)

/-- The checks of OREAD and OWRITE (R243, R398). -/
def State.segHurdle (s : State) (i : Instr) (f : MV) : Option Hurdle :=
  let seg := s.rs f.s
  firstHurdle
    [slotFault i .badLatchOrTile (s.tileBad f.acc false || s.tileInt f.acc != isIntFmt f.fmt ||
       fld seg 14 50 != 0 || fld seg 7 7 % segLen f.fmt != 0),
     waitIf .engineFull (s.pathFull 1)]

/-- OREAD, R243. -/
def execOread (f : MV) (s : State) : Host.Outcome State Fault Refusal :=
  runSlot (.oread f) (fun s => s.segHurdle (.oread f) f) (fun s =>
    let m := { s.tileCmd (.oread f) f.lat f.acc with ops := [s.rs f.s] }
    (s.issueMx 1 m).laterVec f.v none .mx f.lat m.num) s

/-- OWRITE, R243. -/
def execOwrite (f : MV) (s : State) : Host.Outcome State Fault Refusal :=
  runSlot (.owrite f) (fun s => s.segHurdle (.owrite f) f) (fun s =>
    let r := s.rs f.s
    let v := s.readVec f.v
    v.2.issueMx 1 { s.tileCmd (.owrite f) f.lat f.acc with ops := [r], vecs := [v.1] }) s

/-! ### OMOM and OADAM -/

/-- Its checks. -/
def State.optHurdle (s : State) (i : Instr) (f : MO) (adam : Bool) : Option Hurdle :=
  let l := f.operands adam
  firstHurdle (
    l.map (fun e => s.addrHurdle (s.ra e.1) e.2 256 loadKinds) ++
    [s.floatTileHurdle i f.acc 1] ++ l.map (fun e => s.spanHurdle (s.ra e.1) e.2 true))

/-- Its command. -/
def State.optCmd (s : State) (i : Instr) (f : MO) (adam : Bool) : MxCmd :=
  { s.tileCmd i 0 f.acc with
    ops := [s.rs f.sh, if adam then s.rs (f.sh + 1) else 0, if adam then s.rs (f.sh + 2) else 0,
            if f.rm = 4 then s.rs f.sb % 2 ^ 48 else 0]
    mem := (f.operands adam).map (fun e => s.spans (s.ra e.1) e.2 true) }

/-- OMOM, R244. -/
def execOmom (f : MO) (s : State) : Host.Outcome State Fault Refusal :=
  runSlot (.omom f) (fun s => s.optHurdle (.omom f) f false) (fun s => s.issueMx 1 (s.optCmd (.omom f) f false)) s

/-- OADAM, R244. -/
def execOadam (f : MO) (s : State) : Host.Outcome State Fault Refusal :=
  runSlot (.oadam f) (fun s => s.optHurdle (.oadam f) f true) (fun s => s.issueMx 1 (s.optCmd (.oadam f) f true)) s

/-! ### The activation stack (R245, R246) -/

/-- Bytes that an entry of size `z` occupies. -/
def stackBytes (z : Nat) : Nat := cdiv z 256 * 256 + 256

/-- The window W of a strand's stack. -/
def Strand.window (x : Strand) : Nat := x.stklim - x.stkbase

/-- The window is misaligned or empty (R393). -/
def Strand.badWindow (x : Strand) : Bool :=
  x.stkbase % 256 != 0 || x.stklim % 256 != 0 || decide (x.stklim ≤ x.stkbase)

/-- Resident bytes, with those that issued pushes will add. -/
def State.coming (s : State) (k : Nat) : Nat :=
  (s.strand k).resident + ((Table.get (s.core (coreOf k)).mxq [] 3 ++
    (Table.find (s.core (coreOf k)).mxRun 3).toList).filter (fun m => m.strand == k)).foldl (fun n m => match m.i with
      | .pusht _ => n + stackBytes (m.ops.headD 0)
      | _ => n) 0

/-- PUSHT's checks and wait (R246). -/
def pushtHurdle (f : MS) (s : State) : Option Hurdle :=
  let x := s.issue.pre
  let z := s.rs f.s
  firstHurdle
    [slotFault (.pusht f) .badUse (x.badWindow || decide (x.window < stackBytes z)),
     s.addrHurdle (s.ra f.aa) z 1 loadKinds,
     waitIf .engineFull (decide (x.window < s.coming s.issue.strand + stackBytes z) || s.pathFull 3),
     s.spanHurdle (s.ra f.aa) z false]

/-- PUSHT, R246: D and the entry count change at issue. -/
def execPusht (f : MS) (s : State) : Host.Outcome State Fault Refusal :=
  runSlot (.pusht f) (pushtHurdle f) (fun s =>
    let x := s.issue.pre
    let z := s.rs f.s
    let m := { s.mxCmd (.pusht f) 0 with ops := [z, x.depth, x.sizes.length], mem := [s.spans (s.ra f.aa) z false] }
    (s.issueMx 3 m).onMe (fun y => { y with depth := y.depth + stackBytes z, sizes := y.sizes ++ [z] })) s

/-- The top entry as issued: its size and the depth at which it starts. -/
def Strand.topEntry (x : Strand) : Option (Nat × Nat) := x.sizes.getLast?.map (fun z => (z, x.depth - stackBytes z))

/-- The top entry has been marked bad (R421). -/
def Strand.topBad (x : Strand) : Bool := ((x.stack[x.sizes.length - 1]?).map (·.bad)).getD false

/-- TINFO of a bad stack entry at a depth (R421). -/
def Strand.badInfo (x : Strand) (d : Nat) : Nat := 6 * 2 ^ 56 + (x.stkspill + d) % 2 ^ 56

/-- POPT's checks. -/
def poptHurdle (f : MS) (s : State) : Option Hurdle :=
  let x := s.issue.pre
  match x.topEntry with
  | none => some (.fault .badUse (Instr.encode (.popt f)))
  | some (z, d) =>
    let n := min (s.rs f.s) z
    firstHurdle
      [slotFault (.popt f) .badUse x.badWindow, s.addrHurdle (s.ra f.aa) n 1 loadKinds,
       if x.topBad then some (.fault .softError (x.badInfo d)) else none,
       waitIf .engineFull (s.pathFull 3), s.spanHurdle (s.ra f.aa) n true]

/-- POPT, R246. -/
def execPopt (f : MS) (s : State) : Host.Outcome State Fault Refusal :=
  runSlot (.popt f) (poptHurdle f) (fun s =>
    let x := s.issue.pre
    match x.topEntry with
    | none => s
    | some (z, d) =>
      let n := min (s.rs f.s) z
      let m := { s.mxCmd (.popt f) 0 with ops := [n, z, d], mem := [s.spans (s.ra f.aa) n true] }
      let s := s.issueMx 3 m
      if f.opt = 1 then s else s.onMe (fun y => { y with depth := d, sizes := y.sizes.dropLast })) s

/-- TSTK's checks. -/
def tstkHurdle (f : MS) (s : State) : Option Hurdle :=
  firstHurdle [slotFault (.tstk f) .badUse s.issue.pre.badWindow, waitIf .engineFull (s.pathFull 3)]

/-- TSTK, R246. -/
def execTstk (f : MS) (s : State) : Host.Outcome State Fault Refusal :=
  runSlot (.tstk f) (tstkHurdle f) (fun s =>
    let x := s.issue.pre
    let m := { s.mxCmd (.tstk f) f.lat with
      ops := [x.sizes.length, x.depth, 0, ((x.topEntry).map (·.1)).getD 0] }
    (s.issueMx 3 m).later (.s f.s) none .mx f.lat m.num) s

/-! ## The spill engine (R247, R421) -/

/-- The depth at which entry `i` starts. -/
def Strand.entryDepth (x : Strand) (i : Nat) : Nat := (x.stack.take i).foldl (fun n e => n + stackBytes e.z) 0

/-- The location in the window of the byte at depth `d` of strand `k`. -/
def Strand.windowLoc (x : Strand) (k d : Nat) : Nat := spmLoc (coreOf k) (x.stkbase + d % max 1 x.window)

/-- The bottom resident entry. -/
def Strand.bottomResident (x : Strand) : Option Nat := x.stack.findIdx? (fun e => !e.spilled)

/-- The spilled entry just below the resident ones. -/
def Strand.topSpilled (x : Strand) : Option Nat :=
  let n := (x.stack.takeWhile (fun e => e.spilled)).length
  if n = 0 then none else some (n - 1)

/-- HIGH and LOW of STKMARK. -/
def Strand.marks (x : Strand) : Nat × Nat := (fld x.stkmark 24 24, fld x.stkmark 0 24)

/-- The engine spills for a strand. -/
def State.spills (s : State) (k : Nat) : Bool :=
  let x := s.strand k
  decide (x.marks.1 < x.resident) && decide (x.marks.2 ≤ x.marks.1) && x.bottomResident.isSome

/-- The next command of the stack path is a POPT of the strand whose entry is spilled (R246). -/
def State.demands (s : State) (k : Nat) : Bool :=
  match (Table.get (s.core (coreOf k)).mxq [] 3).head? with
  | some m => m.strand == k && (match m.i with
      | .popt _ => ((s.strand k).stack.getLast?.map (·.spilled)).getD false
      | _ => false)
  | none => false

/-- The engine fills for a strand. -/
def State.fills (s : State) (k : Nat) : Bool :=
  let x := s.strand k
  !x.stack.any (·.bad) && (match x.topSpilled with
    | none => false
    | some i =>
      decide (x.resident + stackBytes (((x.stack[i]?).map (·.z)).getD 0) ≤ x.window) &&
      (s.demands k || (decide (x.resident < x.marks.2) && decide (x.marks.2 ≤ x.marks.1))))

/-- Mark entry `i` of a strand's stack. -/
def Strand.markEntry (x : Strand) (i : Nat) (f : StackEntry → StackEntry) : Strand :=
  match x.stack[i]? with
  | some e => { x with stack := listSet x.stack i (f e) }
  | none => x

/-- The engine's access fails translation: the firmware kills the context (R406). -/
def State.engineMiss (s : State) (k : Nat) (h : Hurdle) : State :=
  match h with
  | .miss (.page code va) => s.onStrand k (fun x => { x with fw := x.fw.or (some (.kill 1 code 0 0 code va 0)) })
  | _ => s

/-- Move the bottom resident entry to the tier; sectors of the entry, by number, whose writes have failed their link check five
times are stored as poisoned ones (R247, R421). -/
def State.spill (s : State) (failed : List Nat) (k i : Nat) : State :=
  let x := s.strand k
  let d := x.entryDepth i
  let n := stackBytes (((x.stack[i]?).map (·.z)).getD 0)
  match s.flatSpans k (x.stkspill + d) n true with
  | .error h => s.engineMiss k h
  | .ok l =>
    let bytes := (List.range n).map (fun o => (o, s.byte (x.windowLoc k (d + o))))
    let secs := ((failed.filter (fun j => decide (64 * j < n))).map (fun j => spanLoc l (64 * j) / 64)).dedup
    let s := s.perform (spanStore (coreOf k) l bytes)
    (({ s with sys := { s.sys with poison := (secs ++ s.sys.poison).dedup } } : State).onStrand k (fun y =>
      { y.markEntry i (fun e => { e with spilled := true }) with resident := y.resident - n }))

/-- Bring a spilled entry back; one with a poisoned sector is marked bad (R421). -/
def State.fill (s : State) (k i : Nat) : State :=
  let x := s.strand k
  let d := x.entryDepth i
  let n := stackBytes (((x.stack[i]?).map (·.z)).getD 0)
  match s.flatSpans k (x.stkspill + d) n false with
  | .error h => s.engineMiss k h
  | .ok l =>
    if (s.spanPoison l).isSome then s.onStrand k (fun y => y.markEntry i (fun e => { e with bad := true }))
    else
      (s.setBytes ((List.range n).map (fun o => (x.windowLoc k (d + o), s.byte (spanLoc l o))))).onStrand k (fun y =>
        { y.markEntry i (fun e => { e with spilled := false }) with resident := y.resident + n })

/-- The move that the engine makes for a strand, a spill before a fill; one that waits for a page changes nothing. -/
def State.moveEntry (s : State) (failed : List Nat) (k : Nat) : Option State :=
  (if s.spills k then (s.strand k).bottomResident.map (s.spill failed k)
   else if s.fills k then (s.strand k).topSpilled.map (s.fill k)
   else none).filter (fun t => decide (t.strand k ≠ s.strand k))

/-- The strand of a core that the engine serves next, after the one that it served last, and the state after its move. -/
def State.spillTurn (s : State) (failed : List Nat) (c : Nat) : Option (Nat × State) :=
  ([1, 2, 3, 4].map (fun i => 4 * c + ((s.core c).spilled + i) % 4)).findSome? (fun k =>
    (s.moveEntry failed k).map (fun t => (k, t.onCore c (fun x => { x with spilled := ctxOf k }))))

/-- The engine serves a strand, if it is the strand's turn. -/
def State.serveStack (s : State) (failed : List Nat) (k : Nat) : State :=
  match s.spillTurn failed (coreOf k) with
  | some (j, t) => if j = k then t else s
  | none => s

/-- SPILL_ENTRY, R247, R421: writes that are sent again are recoverable events (R369). -/
def execSpillEntry (copy : EntrySpill) (s : State) : Host.Outcome State Fault Refusal :=
  happens (s.spills copy.strand) s (copy.resent.repeat State.recoverable (s.serveStack copy.failed copy.strand))

/-- FILL_ENTRY, R247. -/
def execFillEntry (strand : Nat) (s : State) : Host.Outcome State Fault Refusal :=
  happens (s.fills strand && !s.spills strand) s (s.serveStack [] strand)

/-! ## Starting a command (R228, R229, R238) -/

/-- An earlier command of the core works on one of the command's tiles. -/
def Core.tileWaits (c : Core) (m : MxCmd) : Bool :=
  c.mxAll.any (fun n => decide (n.num < m.num) && n.tiles.any (fun t => m.tiles.contains t))

/-- The conditions of its own under which a command starts; a MOPR starts by its rendezvous (R238). -/
def State.mayStart (s : State) (m : MxCmd) : Bool :=
  let x := s.strand m.strand
  match m.i with
  | .mopr _ => false
  | .popt _ => !((x.stack.getLast?.map (·.spilled)).getD false) || ((x.stack.getLast?.map (·.bad)).getD false)
  | .tstk f => f.opt != 4 || !(s.spills m.strand || s.fills m.strand)
  | _ => true

/-- The typical cycles from a command's start to its landing (R232, R235, R238, R240, R241, R243, R244). -/
def MxCmd.duration (m : MxCmd) : Nat :=
  match m.i with
  | .mlatch f => 8 + cdiv ((f.kb + 1) * (f.cols + 1) * (4 * (f.wb + 1) + 4)) 128
  | .mop f => 32 * f.blocks * f.steps + 12
  | .mops f => 16 * f.blocks * f.steps + 12
  | .mopr f => 32 * f.blocks * f.steps + 14
  | .mrank1 f => (if f.fmt = 0 then 4 else 2) + 11
  | .mzero _ => 32
  | .mloss _ => 144
  | .mstat _ => 144
  | .oread _ => 10
  | .owrite _ => 6
  | .omom _ => 512
  | .oadam _ => 512
  | _ => 0

/-- The cycles in which an array operation keeps the array busy (R235, R236, R238, R240). -/
def MxCmd.busy (m : MxCmd) : Nat :=
  match m.i with
  | .mop f => 32 * f.blocks * f.steps
  | .mops f => 16 * f.blocks * f.steps
  | .mopr f => 32 * f.blocks * f.steps
  | .mrank1 f => if f.fmt = 0 then 4 else 2
  | _ => 0

/-- A path cannot start a command yet: it performs one at a time, and the array is free once its operation has ended
its last step (R228, R235). -/
def Core.pathBusy (c : Core) (p now : Nat) : Bool :=
  match Table.find c.mxRun p with
  | none => false
  | some m => p != 0 || decide (now < m.startedAt + m.busy)

/-- The head of a path's queue can start (R228, R229). -/
def State.mxReady (s : State) (c p : Nat) : Option MxCmd :=
  let x := s.core c
  if x.pathBusy p s.cycle then none
  else ((Table.get x.mxq [] p).head?).filter (fun m => !x.tileWaits m && s.mayStart m)

/-- The latches that an operation's blocks read if its first starts on a cycle and no MLATCH lands any more: a block that
starts on the cycle of a landing reads the old contents (R233). -/
def Core.viewsAt (c : Core) (at_ : Nat) : List (Nat × Table Latch) :=
  if at_ ≤ c.latchAt then [(0, c.latchOld), (1, c.latches)] else [(0, c.latches)]

/-- A command starts: an array operation's first step comes 8 cycles after its issue at the earliest (R235). The one
before it, which has ended its last step, is kept under 8 + its number until it lands. -/
def Core.start (c : Core) (p now : Nat) (m : MxCmd) : Core :=
  let at_ := if p = 0 then max now (m.issued + 8) else now
  let m := { m with startedAt := at_, views := c.viewsAt at_ }
  let run := match Table.find c.mxRun p with
    | none => c.mxRun
    | some old => Table.set c.mxRun (8 + old.num) old
  { c with mxq := Table.set c.mxq p ((Table.get c.mxq [] p).drop 1), mxRun := Table.set run p m }

/-- MX_COMMAND_START, R228. -/
def execMxCommandStart (core path : Nat) (s : State) : Host.Outcome State Fault Refusal :=
  match s.mxReady core path with
  | none => .next s
  | some m => .next (s.onCore core (fun c => c.start path s.cycle m))

/-- The eight cores of a rope can begin their MOPRs (R238): all have issued, each heads its idle array's queue. -/
def State.rendezvousReady (s : State) (r c : Nat) : Bool :=
  let issued := Table.get (s.rope r).mopr [] c
  [0, 1, 2, 3, 4, 5, 6, 7].all (fun p =>
    let x := s.core (8 * r + p)
    issued.contains p && !x.pathBusy 0 s.cycle && (match (Table.get x.mxq [] 0).head? with
      | some m => m.strand == strandAt r c p && !m.abandoned && !x.tileWaits m && (match m.i with
          | .mopr _ => true
          | _ => false)
      | none => false))

/-- The A operand that the MOPR at a position reads: that of position 4h (R237). -/
def State.ropeOperand (s : State) (r p : Nat) : List (List Span) :=
  (((Table.get (s.core (8 * r + p / 4 * 4)).mxq [] 0).head?).map (·.mem)).getD []

/-- The operation starts on every core on one cycle (R238). -/
def State.rendezvous (s : State) (r c : Nat) : State :=
  let late := [0, 1, 2, 3, 4, 5, 6, 7].foldl (fun n p =>
    max n ((((Table.get (s.core (8 * r + p)).mxq [] 0).head?).map (·.issued)).getD 0)) 0
  let t := s.onRope r (fun y => { y with mopr := Table.set y.mopr c ([0, 1, 2, 3, 4, 5, 6, 7].foldl List.erase (Table.get y.mopr [] c)) })
  [0, 1, 2, 3, 4, 5, 6, 7].foldl (fun (t : State) p => t.onCore (8 * r + p) (fun x =>
    match (Table.get x.mxq [] 0).head? with
    | none => x
    | some m => x.start 0 (max s.cycle (late + 8)) { m with mem := s.ropeOperand r p })) t

/-- MOPR_RENDEZVOUS_START, R238. -/
def execMoprRendezvousStart (rope slot : Nat) (s : State) : Host.Outcome State Fault Refusal :=
  happens (s.rendezvousReady rope slot) s (s.rendezvous rope slot)

/-! ## Tiles (R57, R89, R91, R95) -/

/-- Element n = 128 i + j of a tile. -/
def Tile.at_ (t : Tile) (n : Nat) : Nat := (Table.get t.elems 0 n).toNat

/-- Replace an element. -/
def Tile.put (t : Tile) (n v : Nat) : Tile := { t with elems := Table.put t.elems 0 n (BitVec.ofNat 32 v) }

/-- Every element of a tile rescaled by 2^k, with the flags (R95). -/
def Tile.rescaled (t : Tile) (k : Int) : Tile × Nat :=
  let l := t.elems.map (fun e => (e.1, rescale e.2.toNat k))
  ({ t with elems := (l.map (fun e => (e.1, BitVec.ofNat 32 e.2.1))).filter (fun e => e.2 ≠ 0) },
   l.foldl (fun f e => f ||| e.2.2) 0)

/-- The 48-bit element of an integer pair (R57). -/
def pairAt (even odd : Tile) (n : Nat) : Nat := even.at_ n + odd.at_ n % 2 ^ 16 * 2 ^ 32

/-- Replace it. -/
def pairPut (even odd : Tile) (n v : Nat) : Tile × Tile :=
  (even.put n (v % 2 ^ 32), odd.put n (wrap 32 (sgn 16 (v / 2 ^ 32))))

/-- Undefined elements (R2, log entry 3). -/
def freeTile (t : Tile) (f : Nat) : Tile :=
  { t with elems := (List.range 16384).map (fun n => (n, Config.freeElem f n)) }

/-- The positions of an active region. -/
def activeCells (rows cols : Nat) : List (Nat × Nat) :=
  (List.range rows).flatMap (fun i => (List.range cols).map (fun j => (i, j)))

/-- What a command writes when it lands. -/
structure MxOut where
  tiles : List (Nat × Tile) := []
  latch : Option (Nat × Latch) := none
  reg : Option Nat := none
  flags : Nat := 0
  /-- TINFO of the soft-error trap that follows (R415, R421) -/
  bad : Option Nat := none
  stores : List Store := []
deriving DecidableEq, Repr

/-- A command's tile as it stands. -/
def State.tileNow (s : State) (m : MxCmd) (i : Nat) : Nat × Tile :=
  let t := (m.tiles[i]?).getD 0
  (t, Table.get (s.core (coreOf m.strand)).tiles {} t)

/-- An operand that a command reads is poisoned (R415). -/
def State.mxPoison (s : State) (m : MxCmd) : Option Nat :=
  (m.mem.findSome? (fun l => s.spanPoison l)).map (fun sec => 6 * 2 ^ 56 + sec * 64)

/-! ## The array (R233 to R240) -/

/-- The latches as block `b` of an operation finds them (R233). -/
def MxCmd.view (m : MxCmd) (b : Nat) : Table Latch :=
  ((m.views.reverse.find? (fun v => decide (v.1 ≤ b))).map (·.2)).getD []

/-- The A mantissa of row `i` at row-block index `k` in plane form (R85). -/
def State.planeMant (s : State) (m : MxCmd) (wa i k : Nat) : Int :=
  let l := (m.mem[0]?).getD []
  sgn wa ((List.range wa).foldl (fun v j =>
    v + s.spanByte m.strand l (16 * (wa * k + j) + i / 8) / 2 ^ (i % 8) % 2 * 2 ^ j) 0)

/-- The A mantissa of row `i` at k = 32 b + kk of a compressed operand (R224, R236). -/
def State.sparseMant (s : State) (m : MxCmd) (wa i b kk : Nat) : Int :=
  let g := kk / 4
  let nib := fld (s.spanNum m.strand ((m.mem[2]?).getD []) (512 * b + 4 * i) 4) (4 * g) 4
  if kk % 4 = nib / 4 then s.planeMant m wa i (16 * b + 2 * g + 1)
  else if kk % 4 = nib % 4 then s.planeMant m wa i (16 * b + 2 * g)
  else 0

/-- The A mantissa of an operation. -/
def State.aMant (s : State) (m : MxCmd) (wa i b kk : Nat) : Int :=
  match m.i with
  | .mops _ => s.sparseMant m wa i b kk
  | _ => s.planeMant m wa i (32 * b + kk)

/-- The exact sum of a block (R88). -/
def State.blockSum (s : State) (m : MxCmd) (f : MM) (i j b : Nat) : Int :=
  let lt := Table.get (m.view b) {} ((f.w + b / 8) % 8)
  (List.range 32).foldl (fun p kk =>
    p + s.aMant m (f.wa + 1) i b kk * sgn (f.wb + 1) (Table.get lt.mant 0 (256 * j + 32 * (b % 8) + kk)).toNat) 0

/-- What a block adds to a float element (R89). B's mantissas are scaled by the declared width, or by the format that the latch
records where that is narrower, so that a wider declaration gives the same tile (R56, R90; log entry 97). -/
def State.blockAdd (s : State) (m : MxCmd) (f : MM) (i j b : Nat) : Fv :=
  let lt := Table.get (m.view b) {} ((f.w + b / 8) % 8)
  let sa := scaleOf (fld (s.spanNum m.strand ((m.mem[1]?).getD []) (512 * b + 4 * i) 4) 0 24)
  let sb := scaleOf (Table.get lt.scale 0 (8 * j + b % 8)).toNat
  match sa, sb with
  | .nan, _ => nanScale
  | _, .nan => nanScale
  | .val s₁ e₁, .val s₂ e₂ =>
    let p := s.blockSum m f i j b
    .fin (decide (p < 0)) (p.natAbs * s₁ * s₂) (e₁ + e₂ - f.wa - min f.wb lt.fmt)
  | _, _ => .fin false 0 0

/-- A float element after all blocks, with the flags. -/
def State.floatCell (s : State) (m : MxCmd) (f : MM) (i j x : Nat) : Nat × Nat :=
  (List.range f.blocks).foldl (fun (a : Nat × Nat) b =>
    let r := accumulate a.1 (s.blockAdd m f i j b)
    (r.1, a.2 ||| r.2)) (x, 0)

/-- An integer element after all blocks, with the flags (R91). -/
def State.intCell (s : State) (m : MxCmd) (f : MM) (i j x : Nat) : Nat × Nat :=
  (List.range f.blocks).foldl (fun (a : Nat × Nat) b =>
    let r := accumulateInt a.1 (s.blockSum m f i j b)
    (r.1, a.2 ||| r.2)) (x, 0)

/-- A float tile rescaled to a tag where it differs (R95). -/
def Tile.toTag (t : Tile) (tag : Int) : Tile × Nat :=
  if t.tag = tag then (t, 0)
  else
    let r := t.rescaled (tag - t.tag)
    ({ r.1 with tag := tag }, r.2)

/-- The result of an array operation over an active region (R234). -/
def State.arrayOut (s : State) (m : MxCmd) (f : MM) (rows cols : Nat) : MxOut :=
  let (n₀, t₀) := s.tileNow m 0
  if m.int then
    let (n₁, t₁) := s.tileNow m 1
    match s.mxPoison m with
    | some b => { tiles := [(n₀, freeTile t₀ s.freeCount), (n₁, freeTile t₁ (s.freeCount + 1))], bad := some b }
    | none =>
      let r := (activeCells rows cols).foldl (fun (a : Tile × Tile × Nat) c =>
        let n := 128 * c.1 + c.2
        let x := s.intCell m f c.1 c.2 (pairAt a.1 a.2.1 n)
        let p := pairPut a.1 a.2.1 n x.1
        (p.1, p.2, a.2.2 ||| x.2)) (t₀, t₁, 0)
      { tiles := [(n₀, r.1), (n₁, r.2.1)], flags := r.2.2 }
  else
    match s.mxPoison m with
    | some b => { tiles := [(n₀, freeTile t₀ s.freeCount)], bad := some b }
    | none =>
      let r := (activeCells rows cols).foldl (fun (a : Tile × Nat) c =>
        let n := 128 * c.1 + c.2
        let x := s.floatCell m f c.1 c.2 (a.1.at_ n)
        (a.1.put n x.1, a.2 ||| x.2)) (t₀.toTag m.lscale)
      { tiles := [(n₀, r.1)], flags := r.2 }

/-- Element `i` of a run of vector registers of a format (R240). -/
def vecElem (fmt : Nat) (vs : List Nat) (i : Nat) : Fv :=
  let w := fmtWidth fmt
  let per := 1024 / w
  valueOf fmt (fld ((vs[i / per]?).getD 0) (w * (i % per)) w)

/-- One element of MRANK1 (R240). -/
def rankCell (x y : Fv) (acc : Nat) : Nat × Nat :=
  if x.isNan then f32.add 0 (f32.value acc) x
  else if y.isNan then f32.add 0 (f32.value acc) y
  else
    match x.times y with
    | none =>
      if (f32.value acc).isNan then (acc, flNV + flNAN) else f32.invalid
    | some v => accumulate acc v

/-- MRANK1's result. -/
def State.rankOut (s : State) (m : MxCmd) (f : MR) : MxOut :=
  let (n₀, t₀) := s.tileNow m 0
  let k := mrankRegs f.fmt
  let r := (activeCells (f.rows + 1) (f.cols + 1)).foldl (fun (a : Tile × Nat) c =>
    let n := 128 * c.1 + c.2
    let x := rankCell (vecElem f.fmt (m.vecs.take k) c.1) (vecElem f.fmt (m.vecs.drop k) c.2) (a.1.at_ n)
    (a.1.put n x.1, a.2 ||| x.2)) (t₀.toTag m.lscale)
  { tiles := [(n₀, r.1)], flags := r.2 }

/-! ## The tile port and the latch path (R232, R241 to R243) -/

/-- MLATCH's result (R232). -/
def State.latchOut (s : State) (m : MxCmd) (f : ML) : MxOut :=
  let w := f.wb + 1
  let old := Table.get (s.core (coreOf m.strand)).latches {} f.w
  let ks := (List.range (f.cols + 1)).flatMap (fun j => (List.range (f.kb + 1)).map (fun b => (j, b)))
  let at_ (j b : Nat) : Nat := b * (f.cols + 1) + j
  let word (j b : Nat) : Nat := s.spanNum m.strand ((m.mem[0]?).getD []) (at_ j b * 4 * w) (4 * w)
  let bad := s.mxPoison m
  let mant (j b i : Nat) : BitVec 16 :=
    if bad.isSome then Config.freeLatch s.freeCount (256 * j + 32 * b + i)
    else BitVec.ofInt 16 (sgn w (fld (word j b) (w * i) w))
  let scale (j b : Nat) : BitVec 24 :=
    if bad.isSome then BitVec.ofNat 24 (Config.freeElem s.freeCount (8 * j + b)).toNat
    else BitVec.ofNat 24 (s.spanNum m.strand ((m.mem[1]?).getD []) (at_ j b * 4) 3)
  let l : Latch :=
    { fmt := f.wb
      mant := ks.foldl (fun t e => (List.range 32).foldl (fun t i =>
        Table.put t 0 (256 * e.1 + 32 * e.2 + i) (mant e.1 e.2 i)) t) old.mant
      scale := ks.foldl (fun t e => Table.put t 0 (8 * e.1 + e.2) (scale e.1 e.2)) old.scale }
  { latch := some (f.w, l), bad := bad }

/-- MZERO's result (R241). -/
def State.zeroOut (s : State) (m : MxCmd) (f : MZ) : MxOut :=
  if f.opt = 1 then { tiles := m.tiles.map (fun t => (t, { int := true })) }
  else
    let zero : Tile := { tag := m.lscale }
    { tiles := m.tiles.map (fun t => (t, if t = f.acc then zero
        else freeTile { Table.get (s.core (coreOf m.strand)).tiles {} t with int := false } s.freeCount)) }

/-- MLOSS's result (R241). -/
def State.lossOut (s : State) (m : MxCmd) : MxOut :=
  let (n₀, t₀) := s.tileNow m 0
  let tag := sgn 8 (m.ops.headD 0)
  let r := t₀.rescaled (tag - t₀.tag)
  { tiles := [(n₀, { r.1 with tag := tag })], flags := r.2 }

/-- MSTAT's word (R242). -/
def State.statWord (s : State) (m : MxCmd) (acc : Nat) : Nat :=
  let t := Table.get (s.core (coreOf m.strand)).tiles {} acc
  let count (p : Fv → Bool) : Nat := (t.elems.filter (fun e => p (f32.value e.2.toNat))).length
  let inf (v : Fv) : Bool := match v with
    | .inf _ => true
    | _ => false
  let abn := if t.abn then 4 else 0
  if t.int then 2 + acc % 2 + abn
  else count Fv.isNan * 2 ^ 32 + count inf * 2 ^ 17 + wrap 8 t.tag * 2 ^ 9 + abn

/-- OREAD's vector and flags (R243). -/
def State.readOut (s : State) (m : MxCmd) (f : MV) : MxOut :=
  let (_, t₀) := s.tileNow m 0
  let (_, t₁) := s.tileNow m 1
  let seg := m.ops.headD 0
  let w := fmtWidth f.fmt
  let n (i : Nat) : Nat := 128 * fld seg 0 7 + fld seg 7 7 + i
  let one (i : Nat) : Nat × Nat :=
    if m.int then convert f.fmt 0 0 (.ofInt (sgn 48 (pairAt t₀ t₁ (n i))))
    else convert f.fmt 0 0 ((f32.value (t₀.at_ (n i))).scale (-t₀.tag))
  let r := packFlagged w ((List.range (segLen f.fmt)).map one)
  { reg := some r.1, flags := r.2 }

/-- OWRITE's tiles and flags (R243). -/
def State.writeOut (s : State) (m : MxCmd) (f : MV) : MxOut :=
  let (n₀, t₀) := s.tileNow m 0
  let (n₁, t₁) := s.tileNow m 1
  let seg := m.ops.headD 0
  let w := fmtWidth f.fmt
  let n (i : Nat) : Nat := 128 * fld seg 0 7 + fld seg 7 7 + i
  let v (i : Nat) : Nat := fld (m.vecs.headD 0) (w * i) w
  let int (i : Nat) : Int := if f.fmt ≤ 11 then sgn w (v i) else (v i : Int)
  if m.int then
    let r := (List.range (segLen f.fmt)).foldl (fun (a : Tile × Tile × Nat) i =>
      let p := pairPut a.1 a.2.1 (n i) (wrap 48 (int i))
      (p.1, p.2, a.2.2 ||| flagIf (decide (int i < -(2 ^ 47)) || decide (2 ^ 47 ≤ int i)) flOF)) (t₀, t₁, 0)
    { tiles := [(n₀, r.1), (n₁, r.2.1)], flags := r.2.2 }
  else
    let r := (List.range (segLen f.fmt)).foldl (fun (a : Tile × Nat) i =>
      let x := f32.deliver 0 0 ((valueOf f.fmt (v i)).scale t₀.tag)
      (a.1.put (n i) x.1, a.2 ||| x.2)) (t₀, 0)
    { tiles := [(n₀, r.1)], flags := r.2 }

/-! ## The optimisers (R244) -/

/-- x + y of two optional products, rounded once; an invalid product makes the sum invalid, and `ns` are the operands
whose first NaN is the result. -/
def FpFmt.sumOf (f : FpFmt) (rm r : Nat) (ns : List Fv) (x y : Option Fv) : Nat × Nat :=
  f.nanOr ns (match x, y with
    | some a, some b => f.sum rm r a b
    | _, _ => f.invalid)

/-- 1 - b, exact. -/
def oneMinus (b : Fv) : Fv :=
  match b with
  | .fin n s e =>
    let r := exactSum false 1 0 (!n) s e
    .fin (decide (r.1 < 0)) r.1.natAbs r.2
  | y => y.minus

/-- The exact product of two optional values. -/
def timesOf (x : Option Fv) (y : Fv) : Option Fv := x.bind (fun a => a.times y)

/-- p / d for an exact product p, rounded once to f32. -/
def quotient (ns : List Fv) (p : Option Fv) (d : Fv) : Nat × Nat :=
  f32.nanOr ns (match p, d with
    | some (.inf a), .fin b _ _ => (f32.signed (a != b) f32.infBits, 0)
    | some (.fin a s e), .fin b t g =>
      if t = 0 then (if s = 0 then f32.invalid else (f32.signed (a != b) f32.infBits, 0))
      else if s = 0 then (f32.signed (a != b) 0, 0)
      else Exact.round { neg := a != b, num := s, den := t, exp := e - g } f32 0 0
    | some (.fin a _ _), .inf b => (f32.signed (a != b) 0, 0)
    | _, _ => f32.invalid)

/-- The new weight, first and second moment of an element, and the flags. -/
structure OptCell where
  w : Nat
  m : Nat
  v : Nat
  flags : Nat
deriving DecidableEq, Repr

/-- OMOM's element (R244). -/
def momCell (wf rm r : Nat) (eta mu : Fv) (g w m : Fv) : OptCell :=
  let m1 := f32.fused 0 false false mu m g
  let x := f32.value m1.1
  let w1 := (fpFmt wf).sumOf rm r [w, eta, x] (some w) ((eta.times x).map Fv.minus)
  { w := w1.1, m := m1.1, v := 0, flags := m1.2 ||| w1.2 }

/-- The scalars of OADAM. -/
structure AdamArgs where
  eta : Fv
  b1 : Fv
  b2 : Fv
  eps : Fv
  c1 : Fv
  c2 : Fv
deriving DecidableEq, Repr

/-- OADAM's element (R244). -/
def adamCell (wf rm r : Nat) (a : AdamArgs) (g w m v : Fv) : OptCell :=
  let m1 := f32.sumOf 0 0 [a.b1, m, g] (a.b1.times m) ((oneMinus a.b1).times g)
  let v1 := f32.sumOf 0 0 [a.b2, v, g] (a.b2.times v) (timesOf ((oneMinus a.b2).times g) g)
  let mx := f32.value m1.1
  let vx := f32.value v1.1
  let q := f32.nanOr [vx, a.c2] (match vx.times a.c2 with
    | none => f32.invalid
    | some p => f32.apply .sqrt p)
  let d := f32.add 0 (f32.value q.1) a.eps
  let u := quotient [mx, a.c1, f32.value d.1] (mx.times a.c1) (f32.value d.1)
  let ux := f32.value u.1
  let w1 := (fpFmt wf).sumOf rm r [w, a.eta, ux] (some w) ((a.eta.times ux).map Fv.minus)
  { w := w1.1, m := m1.1, v := v1.1, flags := m1.2 ||| v1.2 ||| q.2 ||| d.2 ||| u.2 ||| w1.2 }

/-- Element `n` of an optimiser command. -/
def State.optCell (s : State) (m : MxCmd) (f : MO) (adam : Bool) (t : Tile) (n : Nat) : OptCell :=
  let wb := fmtWidth f.wfmt / 8
  let rd (i b : Nat) : Nat := s.spanNum m.strand ((m.mem[i]?).getD []) (n * b) b
  let lo (i : Nat) : Fv := f32.value ((m.ops[i]?).getD 0 % 2 ^ 32)
  let hi (i : Nat) : Fv := f32.value ((m.ops[i]?).getD 0 / 2 ^ 32)
  let r := if f.rm = 4 then draw m.seed (((m.ops[3]?).getD 0 + n) % 2 ^ 48) f.n else 0
  let g := (f32.value (t.at_ n)).scale (-t.tag)
  let w := valueOf f.wfmt (rd 0 wb)
  if adam then
    adamCell f.wfmt f.rm r { eta := lo 0, b1 := hi 0, b2 := lo 1, eps := hi 1, c1 := lo 2, c2 := hi 2 } g w
      (f32.value (rd 1 4)) (f32.value (rd 2 4))
  else momCell f.wfmt f.rm r (lo 0) (hi 0) g w (f32.value (rd 1 4))

/-- The bytes that an optimiser command stores into an operand, or undefined ones where its operands were poisoned. -/
def optBytes (bad : Bool) (free : Nat) (b : Nat) (vals : List Nat) : List (Nat × Byte) :=
  (vals.zipIdx).flatMap (fun e => ((toBytes b e.1).zipIdx).map (fun x =>
    (e.2 * b + x.2, if bad then Config.freeByte free (e.2 * b + x.2) else x.1)))

/-- An optimiser command's result: its stores, and the tile cleared (R244). -/
def State.optOut (s : State) (m : MxCmd) (f : MO) (adam : Bool) : MxOut :=
  let (n₀, t₀) := s.tileNow m 0
  let cells := (List.range 16384).map (s.optCell m f adam t₀)
  let bad := s.mxPoison m
  let store (i b : Nat) (vals : List Nat) : Store :=
    spanStore (coreOf m.strand) ((m.mem[i]?).getD []) (optBytes bad.isSome (s.freeCount + i) b vals)
  { tiles := [(n₀, { t₀ with elems := [] })]
    flags := if bad.isSome then 0 else cells.foldl (fun x c => x ||| c.flags) 0
    bad := bad
    stores := [store 1 4 (cells.map (·.m))] ++ (if adam then [store 2 4 (cells.map (·.v))] else []) ++
      [store 0 (fmtWidth f.wfmt / 8) (cells.map (·.w))] }

/-! ## The stack path (R245, R246) -/

/-- PUSHT's copy: payload, padding of no stated contents, trailer. -/
def State.pushOut (s : State) (m : MxCmd) : MxOut :=
  let x := s.strand m.strand
  let z := m.ops.headD 0
  let d := (m.ops[1]?).getD 0
  let pad := cdiv z 256 * 256
  let bad := s.mxPoison m
  let payload := (List.range pad).map (fun o => (x.windowLoc m.strand (d + o),
    if decide (o < z) && bad.isNone then s.homeByte m.strand { loc := spanLoc ((m.mem[0]?).getD []) o }
    else Config.freeByte s.freeCount o))
  let trailer := (toBytes 256 (z + (m.ops[2]?).getD 0 * 2 ^ 64)).zipIdx.map (fun e =>
    (x.windowLoc m.strand (d + pad + e.2), e.1))
  { bad := bad, stores := [{ core := coreOf m.strand, cells := payload ++ trailer }] }

/-- POPT's copy; a bad entry copies nothing and traps. -/
def State.popOut (s : State) (m : MxCmd) : MxOut :=
  let x := s.strand m.strand
  let d := (m.ops[2]?).getD 0
  if (x.stack.getLast?.map (·.bad)).getD false then { bad := some (x.badInfo d) }
  else
    let bytes := (List.range (m.ops.headD 0)).map (fun o => (o, s.byte (x.windowLoc m.strand (d + o))))
    { stores := [spanStore (coreOf m.strand) ((m.mem[0]?).getD []) bytes] }

/-- What a landed stack command leaves of the performed entries. A POPT that finds its entry bad takes none, and what it had
taken from the depth and the sizes at its issue is given back (R421). -/
def Strand.afterStack (x : Strand) (m : MxCmd) : Strand :=
  match m.i with
  | .pusht _ =>
    let z := m.ops.headD 0
    { x with stack := x.stack ++ [{ z := z }], resident := x.resident + stackBytes z }
  | .popt f =>
    if f.opt = 1 then x
    else
      match x.stack.getLast? with
      | none => x
      | some e =>
        if e.bad then
          let n := x.stack.length - 1
          { x with depth := x.depth + stackBytes e.z, sizes := x.sizes.take n ++ [e.z] ++ x.sizes.drop n }
        else
          { x with
            stack := x.stack.dropLast
            resident := if e.spilled then x.resident else x.resident - stackBytes e.z }
  | _ => x

/-! ## Landing (R230, R233, R239) -/

/-- What a command writes. -/
def State.mxOut (s : State) (m : MxCmd) : MxOut :=
  match m.i with
  | .mlatch f => s.latchOut m f
  | .mop f => s.arrayOut m f (f.rows + 1) (f.cols + 1)
  | .mops f => s.arrayOut m f (f.rows + 1) (f.cols + 1)
  | .mopr f =>
    if m.abandoned then
      { tiles := m.tiles.map (fun t => (t, { Table.get (s.core (coreOf m.strand)).tiles {} t with abn := true })) }
    else s.arrayOut m f (f.rowsAt (posOf m.strand)) (f.colsAt (posOf m.strand))
  | .mrank1 f => s.rankOut m f
  | .mzero f => s.zeroOut m f
  | .mloss _ => s.lossOut m
  | .mstat f => { reg := some (s.statWord m f.acc) }
  | .oread f => s.readOut m f
  | .owrite f => s.writeOut m f
  | .omom f => s.optOut m f false
  | .oadam f => s.optOut m f true
  | .pusht _ => s.pushOut m
  | .popt _ => s.popOut m
  | .tstk f =>
    { reg := some (if f.opt = 2 ∨ f.opt = 4 then (s.strand m.strand).resident else (m.ops[f.opt]?).getD 0) }
  | _ => {}

/-- The position of the result in flight that waits for an mx command. -/
def findMx (l : List InFlight) (num : Nat) (i : Nat) : Option Nat :=
  match l with
  | [] => none
  | e :: t => if e.source = .mx ∧ e.tag = num ∧ !e.landed then some i else findMx t num (i + 1)

/-- Blocks of a running array operation that have started by a cycle. -/
def MxCmd.started (m : MxCmd) (now : Nat) : Nat :=
  match m.i.arrayOp with
  | some (f, n) => if now < m.startedAt then 0 else (now - m.startedAt) / max 1 (n * f.steps) + 1
  | none => 0

/-- A latch is written on a cycle: blocks that start later read it (R233). -/
def Core.writeLatch (c : Core) (now w : Nat) (l : Latch) : Core :=
  let ls := Table.set c.latches w l
  { c with latches := ls
           latchOld := if c.latchAt = now then c.latchOld else c.latches
           latchAt := now
           mxRun := c.mxRun.map (fun e =>
             (e.1, if e.1 = 0 then { e.2 with views := e.2.views ++ [(e.2.started now, ls)] } else e.2)) }

/-- A command of a strand under a forced freeze lands its tiles late: each leaves an entry for the replay buffer (R47). -/
def Strand.bufferTiles (x : Strand) (m : MxCmd) (now : Nat) : Strand :=
  if x.st == .frozen && x.frozenAt.isSome && m.late now then
    { x with inflight := x.inflight ++ m.tiles.map (fun t =>
        { dest := .tile t, value := some 0, source := .mx, exposed := true, due := m.issued + latBound m.lat
          lands := some (now + 1), late := true, landed := true }) }
  else x

/-- A command lands, to be read from the next cycle on: tiles lose their poison, the latch, the memory and the register
are written, its flags wait for the strand's next bundle, and fences that its stores held may end (R37, R230, R231). -/
def State.landMx (s : State) (c p : Nat) (m : MxCmd) : State :=
  let o := s.mxOut m
  let s := ({ s with freeCount := s.freeCount + 4 } : State).performAll o.stores
  let s := s.onCore c (fun x =>
    let x := { x with mxRun := Table.erase x.mxRun p }
    let x := o.tiles.foldl (fun x t => { x with tiles := Table.set x.tiles t.1 { t.2 with poison := false } }) x
    match o.latch with
    | some (w, l) => x.writeLatch (s.cycle + 1) w l
    | none => x)
  let s := s.onStrand m.strand (fun x => (x.afterStack m).bufferTiles m s.cycle)
  let s :=
    if m.orphan then s
    else
      let s := s.onStrand m.strand (fun x => { x with mxFlags := x.mxFlags ||| o.flags, mxBad := x.mxBad.or o.bad })
      match o.reg, findMx (s.strand m.strand).inflight m.num 0 with
      | some v, some i => s.landAt m.strand i v
      | _, _ => s
  s.endFences m.strand

/-- An abandoned MOPR lands from the array's queue, on the cycle after its abandonment and after the earlier operations on
its tile (R229, R239; log entry 96). -/
def State.landAbandoned (s : State) (c : Nat) : Option State :=
  ((Table.get (s.core c).mxq [] 0).find? (fun m => m.abandoned && !(s.core c).tileWaits m)).map (fun m =>
    (s.onCore c (fun x => { x with mxq := Table.set x.mxq 0 ((Table.get x.mxq [] 0).erase m) })).landMx c (8 + m.num) m)

/-- A command waits for its operands: a stack in critical self-refresh, a link that is down, or the repair of a poisoned line
(R16, R415, R416, R420). -/
def State.mxHeld (s : State) (m : MxCmd) : Bool :=
  m.mem.any (fun l => l.any (fun p => s.homeWaits (dieOf m.strand) p.loc ||
    s.sys.poison.any (fun sec => overlaps [(p.loc, p.len)] sec && s.repairable sec)))

/-- The command under a key of `mxRun` has run for its typical time: what lands in a cycle is read from the next one
on. -/
def State.mxDone (s : State) (c key : Nat) : Bool :=
  match Table.find (s.core c).mxRun key with
  | none => false
  | some m => decide (m.startedAt + m.duration ≤ s.cycle + 1) && !s.mxHeld m

/-- The command of a path that lands next: on the array, one that has ended its steps comes first. -/
def Core.landsNext (c : Core) (p : Nat) : Nat :=
  if p = 0 then ((c.mxRun.find? (fun e => decide (8 ≤ e.1))).map (·.1)).getD 0 else p

/-- MX_COMMAND_LAND, R230: a running command may land on any cycle (R6, R34) on which it can reach its operands. -/
def execMxCommandLand (core path : Nat) (s : State) : Host.Outcome State Fault Refusal :=
  match Table.find (s.core core).mxRun ((s.core core).landsNext path) with
  | none => .next s
  | some m => happens (!s.mxHeld m) s (s.landMx core ((s.core core).landsNext path) m)

end Sys2Proof.Machine
end

