-- ==== Sys2Proof/Machine/Pitch.lean ====
section
/-! DEFINITION. Protected state: coding groups, the Reed-Solomon code, parity deltas, the belay and its outcome, BELAY,
BWAIT, PITCHRD, PROTECT, UNPROTECT, and pacing (R295 to R299, R334 to R348, R450). -/

namespace Sys2Proof.Machine

/-! ## The code (R338) -/

/-- Multiply by x in GF(2^8) with the polynomial 0x11D. -/
def gfTwice (v : Nat) : Nat := if v < 128 then v * 2 else (v * 2) ^^^ 0x11D

/-- The product in GF(2^8), over the low `n` bits of `b`. -/
def gfMulBits (a b : Nat) : Nat → Nat
  | 0 => 0
  | n + 1 => gfTwice (gfMulBits a (b / 2) n) ^^^ (if b % 2 = 1 then a else 0)

/-- The product in GF(2^8). -/
def gfMul (a b : Nat) : Nat := gfMulBits a (b % 256) 8

/-- The inverse in GF(2^8). -/
def gfInv (a : Nat) : Nat := ((List.range 256).find? (fun b => gfMul a b == 1)).getD 0

/-- The coefficient of data position `a` in parity `j`. -/
def coef (a j : Nat) : Nat := gfInv (a ^^^ (128 + j))

/-- The sum of two runs of bytes. -/
def xorBytes (a b : List Nat) : List Nat := (a.zip b).map (fun e => e.1 ^^^ e.2)

/-- A multiple of a run of bytes. -/
def scaleBytes (k : Nat) (a : List Nat) : List Nat := a.map (gfMul k)

/-- Bytes as numbers. -/
def natsOf (l : List Byte) : List Nat := l.map BitVec.toNat

/-- Numbers as bytes. -/
def bytesOf (l : List Nat) : List Byte := l.map (BitVec.ofNat 8)

/-! ## A group's registers (R335, R444) -/

/-- A bit of a register of the group slot. -/
def Group.bit (g : Group) (off i : Nat) : Bool := bitAt (g.reg off) i

/-- Replace a register of the group slot. -/
def Group.setReg (g : Group) (off v : Nat) : Group := { g with regs := Table.set g.regs off (w64 v) }

/-- Replace a field of a register of the group slot. -/
def Group.setField (g : Group) (off lo n v : Nat) : Group := g.setReg off (setFld (g.reg off) lo n v)

/-- N, M, K, MIDX, GID and PSIZE. -/
def Group.n (g : Group) : Nat := fld (g.reg 8) 32 5
/-- M. -/
def Group.m (g : Group) : Nat := fld (g.reg 8) 24 3
/-- K. -/
def Group.k (g : Group) : Nat := g.n - g.m
/-- MIDX. -/
def Group.midx (g : Group) : Nat := fld (g.reg 8) 40 5
/-- GID. -/
def Group.gid (g : Group) : Nat := fld (g.reg 8) 48 16
/-- PSIZE. -/
def Group.psize (g : Group) : Nat := fld (g.reg 0x10) 0 24
/-- MEMBERi.ACC. -/
def Group.acc (g : Group) (i : Nat) : Nat := fld (g.reg (0x100 + 8 * i)) 0 10
/-- MEMBERi.LIVE. -/
def Group.live (g : Group) (i : Nat) : Bool := g.bit (0x100 + 8 * i) 63
/-- GRCV.ST. -/
def Group.st (g : Group) : Nat := fld (g.reg 0x1C0) 62 2
/-- GRCV.RBT. -/
def Group.rbt (g : Group) : Bool := g.bit 0x1C0 61
/-- GRCV.ADP. -/
def Group.adp (g : Group) : Bool := g.bit 0x1C0 60
/-- GRCV.LOST. -/
def Group.lost (g : Group) : Nat := fld (g.reg 0x1C0) 24 24
/-- The base of the parity area. -/
def Group.parb (g : Group) : Nat := fld (g.reg 0x30) 16 32 * 2 ^ 16
/-- Units of the parity area. -/
def Group.punits (g : Group) : Nat := g.psize * g.m / g.k
/-- The address of the belay record. -/
def Group.recb (g : Group) : Nat := fld (g.reg 0x38) 6 42 * 2 ^ 6

/-- Change GRCV.ST. -/
def Group.setSt (g : Group) (v : Nat) : Group := g.setField 0x1C0 62 2 v

/-- The live members, in increasing index. -/
def Group.livers (g : Group) : List Nat := (List.range g.n).filter g.live

/-- The coordinator: the lowest live member (R346, R440). -/
def Group.coordinator (g : Group) : Option Nat := g.livers.head?

/-- This device is the coordinator. -/
def Group.leads (g : Group) : Bool := g.coordinator == some g.midx

/-- The index of the member with an accelerator number. -/
def Group.memberOf (g : Group) (acc : Nat) : Option Nat := (List.range g.n).find? (fun i => g.acc i == acc)

/-- A rebuild target whose rebuild has not ended (R436, R444). -/
def Group.building (g : Group) : Bool := g.rbt && g.st == 2

/-! ## Where parity lies (R337) -/

/-- (a - b) mod n. -/
def subMod (a b n : Nat) : Nat := (a + n - b % n) % n

/-- The block rows in which member `i` holds data, in increasing order. -/
def dataRows (n m i : Nat) : List Nat := (List.range n).filter (fun t => decide (m ≤ subMod i t n))

/-- The block rows in which member `h` holds parity, in increasing order. -/
def parityRows (n m h : Nat) : List Nat := (List.range n).filter (fun t => decide (subMod h t n < m))

/-- The block and the row within it of data unit `d` of member `i`. -/
def Group.rowOfData (g : Group) (i d : Nat) : Nat × Nat := (d / g.k, ((dataRows g.n g.m i)[d % g.k]?).getD 0)

/-- The block and the row within it of parity unit `u` of member `h`. -/
def Group.rowOfParity (g : Group) (h u : Nat) : Nat × Nat := (u / g.m, ((parityRows g.n g.m h)[u % g.m]?).getD 0)

/-- The data position of member `i` in row `t` of a block. -/
def Group.position (g : Group) (i t : Nat) : Nat := subMod i (t + g.m) g.n

/-- The member that holds parity `j` of row `t`. -/
def Group.holder (g : Group) (t j : Nat) : Nat := (t + j) % g.n

/-- The parity unit in which member `h` holds row `t` of block `q`. -/
def Group.parityUnit (g : Group) (h q t : Nat) : Nat :=
  q * g.m + ((parityRows g.n g.m h).filter (fun v => decide (v < t))).length

/-- The data unit in which member `i` holds row `t` of block `q`. -/
def Group.dataUnit (g : Group) (i q t : Nat) : Nat :=
  q * g.k + ((dataRows g.n g.m i).filter (fun v => decide (v < t))).length

/-- The units of a region. -/
def Region.units (r : Region) : Nat := r.size / 2 ^ 16

/-- The lines of a region, in the order of its pages. -/
def Region.lines (r : Region) : List Nat := r.frames.flatMap (fun f => locsFrom (f * 256) 256)

/-- The data-space offset of a line of a region (R337). -/
def Region.offset (r : Region) (line : Nat) : Nat :=
  (r.unit + (r.frames.takeWhile (· ≠ line / 256)).length) * 2 ^ 16 + line % 256 * 256

/-! ## Events, records and messages (R322, R344 to R346) -/

/-- The queue that an event of a group names. -/
def Group.owner (g : Group) : Nat := if g.bit 0x18 63 then fld (g.reg 0x18) 0 12 else 0xFFFF

/-- An event of kind 4 (R346). -/
def State.pitchEvent (s : State) (g n outcome cause : Nat) : State :=
  s.postEvent 4 (s.group g).owner (n % 2 ^ 48 + outcome * 2 ^ 48 + g * 2 ^ 52 + cause * 2 ^ 56)

/-- Write a number into the belay record (R344). -/
def State.recPut (s : State) (g off n v : Nat) : State := s.setNum ((s.group g).recb + off) n v

/-- A number of the belay record. -/
def State.recGet (s : State) (g off n : Nat) : Nat := s.num ((s.group g).recb + off) n

/-- Write DEC, with CYC. -/
def State.recDecide (s : State) (g v : Nat) : State := (s.recPut g 16 1 v).recPut g 24 8 s.cyc.toNat

/-- Send a belay message (R345); one to an unreachable destination is lost and counted (R427). -/
def State.belayMsg (s : State) (g kind dest val cause pitch : Nat) : State :=
  s.sendMsg dest 1088 0 { kind := kind, rk := 0, src := s.devid, core := 0, sel := 0, tnum := 0, val := val, gid := (s.group g).gid
                          cause := cause, pitch := pitch }

/-- A sender has been declared lost as a member of a group and is no live member of it again (R437). -/
def Group.lostSender (g : Group) (src : Nat) : Bool :=
  g.gone.contains src && !(match g.memberOf src with
    | some i => g.live i
    | none => false)

/-- The group that accepts a belay message: enabled, of its GID and pitch, and its sender not declared lost; any other
message is dropped and counted (R345, R437). -/
def State.belayGroup (s : State) (m : Msg) : Option Nat :=
  (List.range 16).find? (fun i =>
    let g := s.group i
    g.enabled && g.gid == m.gid && m.pitch == g.pitch + 1 && !g.lostSender m.src)

/-! ## Undo entries and the end of a pitch (R340, R346, R347) -/

/-- The strands that wait for the open commit of a group learn its outcome (R298). -/
def State.tellWaiters (s : State) (g : Nat) (ok : Bool) : State :=
  { s with strands := s.strands.map (fun e =>
      (e.1, if e.2.wait = some (.outcome g) then { e.2 with decided := e.2.decided.or (some ok) } else e.2)) }

/-- An undo area is above 90 % of its entries. -/
def State.undoHigh (s : State) : Bool :=
  s.cairn.undo.any (fun u =>
    let stack := u.line * 256 / 2 ^ 36
    let used := (s.cairn.undo.filter (fun w => w.grp = u.grp ∧ w.line * 256 / 2 ^ 36 = stack)).length
    decide ((s.group u.grp).undoRoom stack * 9 < used * 10))

/-- Drop undo entries; the pitch request ends once no area is above 90 % (R299, R341). -/
def State.dropUndo (s : State) (p : Undo → Bool) : State :=
  let s := (s.cairn.undo.filter p).foldl (fun s u => s.closeEntry u.grp u.reg u.place) s
  let s := { s with cairn := { s.cairn with undo := s.cairn.undo.filter (fun u => !p u) } }
  { s with cairn := { s.cairn with request := s.cairn.request && s.undoHigh } }

/-- Write a line's value home, which clears its poison (R346, R414). -/
def State.restoreLine (s : State) (line : Nat) (image : List Byte) : State :=
  let s := s.setBytes ((locsFrom (line * 256) 256).zip image)
  { s with sys := { s.sys with poison := s.sys.poison.filter (fun x => decide (x / 4 ≠ line))
                               lostLines := s.sys.lostLines.filter (· ≠ line) } }

/-- A line has lost its value: its sectors are poisoned (R414, R416). -/
def State.poisonLine (s : State) (line : Nat) : State :=
  { s with sys := { s.sys with poison := sectorsIn line ++ s.sys.poison.filter (fun x => decide (x / 4 ≠ line)) } }

/-- Restore a line from an undo entry; a line whose entry is poisoned is left to be rebuilt as a clean one (R346, R416). -/
def State.restoreUndo (s : State) (u : Undo) : State :=
  if s.entryBad u.grp u.reg u.place then s.poisonLine u.line else s.restoreLine u.line (s.imageOfUndo u)

/-- Restore lines from undo entries, the oldest entry of each line last. -/
def State.restore (s : State) (l : List Undo) : State := l.reverse.foldl State.restoreUndo s

/-- Regions of a group whose joining or leaving belongs to a pitch that aborts: a joining region becomes unprotected, a
leaving one stays protected (R295, R296). -/
def abortRegions (g : Nat) (p : Nat → Bool) (l : List Region) : List Region :=
  (l.filter (fun r => !(r.grp == g && r.st == .joining && p r.pitch))).map (fun r =>
    if r.grp = g ∧ r.st = .leaving ∧ p r.pitch then { r with st := .prot } else r)

/-- An undo entry lies in a region that joined in one of the pitches `p`: an abort drops it and does not restore the line
(R295). -/
def State.joined (s : State) (p : Nat → Bool) (u : Undo) : Bool :=
  (s.regionOf u.line).any (fun r => r.st == .joining && p r.pitch)

/-- The pitches `p` of a group abort on this member: the lines of their undo entries are restored and the entries dropped,
and their regions are as before them (R295, R296, R346, R347). -/
def State.undoPitches (s : State) (g : Nat) (p : Nat → Bool) : State :=
  let mine (u : Undo) : Bool := u.grp == g && p u.pitch
  let s := (s.restore (s.cairn.undo.filter (fun u => mine u && !s.joined p u))).dropUndo mine
  { s with cairn := { s.cairn with regions := abortRegions g p s.cairn.regions } }

/-- Lines of an overflowed pitch that has aborted: those of its protected regions for which the undo area kept no before-image
lose their value, and their cairn engines rebuild them from the group (R341, R416). -/
def State.loseLines (s : State) (g : Nat) (p : Nat → Bool) (lines : List Nat) : State :=
  lines.foldl (fun s line =>
    if s.cairn.undo.any (fun u => u.grp == g && p u.pitch && u.line == line) ||
        !(s.regionOf line).any (fun r => r.grp == g && r.st != .joining) then s
    else s.poisonLine line) s

/-- Regions of a group at the commit of a pitch: a joining region is protected, a leaving one is gone. -/
def commitRegions (g n : Nat) (l : List Region) : List Region :=
  (l.filter (fun r => !(r.grp == g && r.st == .leaving && r.pitch == n))).map (fun r =>
    if r.grp = g ∧ r.st = .joining ∧ r.pitch = n then { r with st := .prot } else r)

/-- The tracked pitch of a group aborts on this member alone (R347); it is then the latest aborted pitch (R298). -/
def State.abortTracked (s : State) (g cause : Nat) : State :=
  let x := s.group g
  let p := x.tracked
  let s := s.loseLines g (· == p) (if x.overflow then x.dirty else [])
  ((s.undoPitches g (· == p)).onGroup g (fun x =>
    { x with dirty := [], overflow := false, lastAbort := some p })).pitchEvent g p 1 cause

/-- Fill a range with undefined contents (R2, log entry 3). -/
def State.scramble (s : State) (base n : Nat) : State :=
  let f := s.freeCount
  let s := { s with freeCount := f + 1 }
  s.setBytes ((locsFrom base n).map (fun l => (l, Config.freeByte f l)))

/-- The end of a context's protection: its regions are unprotected as they stand, their undo entries are dropped, and the
parity area becomes undefined (R347). -/
def State.endProtection (s : State) (g : Nat) : State :=
  let s := s.dropUndo (fun u => u.grp == g)
  let s := { s with cairn := { s.cairn with regions := s.cairn.regions.filter (fun r => r.grp ≠ g) } }
  let s := s.onGroup g (fun x => { x with dirty := [], overflow := false, ending := false })
  s.scramble (s.group g).parb ((s.group g).punits * 2 ^ 16)

/-- What waits for the outcome of a group's commit goes on (R347). -/
def State.afterOutcome (s : State) (g : Nat) : State := if (s.group g).ending then s.endProtection g else s

/-! ## Pacing (R348) -/

/-- PACE from C and M. -/
def State.repace (s : State) : State :=
  { s with cairn := { s.cairn with pace := min (2 ^ 63 - 1) (isqrt ((2 * s.cairn.c * s.cairn.m).toNat)) } }

/-- The estimator takes a commit's cost. -/
def State.costCommit (s : State) (c : Nat) : State :=
  ({ s with cairn := { s.cairn with c := s.cairn.c + ((c : Int) - s.cairn.c).tdiv 8 } } : State).repace

/-- ESTIMATOR_WINDOW, R348. -/
def execEstimatorWindow (s : State) : Host.Outcome State Fault Refusal :=
  let c := s.cairn
  let e := c.e - c.e / 2 ^ c.decay + c.lossCount * 2 ^ 16 + c.recoverable * c.rwt
  let t := c.t - c.t / 2 ^ c.decay + 2 ^ 30
  happens (decide (c.windowAt + 2 ^ 30 ≤ s.cyc.toNat)) s
    (({ s with cairn := { c with
        e := e, t := t, m := (t + c.prior * 2 ^ 20) * 2 ^ 16 / (e + 2 ^ 16)
        lossCount := 0, recoverable := 0, windowAt := c.windowAt + 2 ^ 30 } } : State).repace)

/-! ## The outcome of a commit (R346) -/

/-- The register of the staging area that serves a group: of the stack that holds its parity area (R336, R340). -/
def Group.stageReg (g : Group) : Nat := 0x48 + 16 * (g.parb / 2 ^ 36)

/-- Add a staging entry into its parity line; a poisoned entry leaves the line to be recomputed (R346, R416). -/
def State.applyStage (s : State) (e : Stage) : State :=
  let g := s.group e.grp
  let l := locsFrom (g.parb + e.off) 256
  if s.entryBad e.grp g.stageReg e.place then s.poisonLine ((g.parb + e.off) / 256)
  else s.setBytes (l.zip (bytesOf (xorBytes (natsOf (l.map s.byte)) (natsOf (s.entryImage e.grp g.stageReg e.place)))))

/-- Free staging entries (R346). -/
def State.dropStage (s : State) (p : Stage → Bool) : State :=
  let s := (s.cairn.stage.filter p).foldl (fun s e => s.closeEntry e.grp (s.group e.grp).stageReg e.place) s
  { s with cairn := { s.cairn with stage := s.cairn.stage.filter (fun e => !p e) } }

/-- COMMIT(N) takes effect on this member: step 5, with the cause that its event carries, 4 for a settled one, whose DEC is not
written where it holds 1 already (R346, R441, R447). -/
def State.applyCommit (s : State) (g n cause : Nat) : State :=
  let grp := s.group g
  let opened := grp.commit.map (·.openedAt)
  let s := if cause = 4 ∧ s.recGet g 16 1 = 1 then s else s.recDecide g 1
  let ours (e : Stage) : Bool := e.grp == g && e.bit == n % 2
  let s := ((s.cairn.stage.filter ours).foldl State.applyStage s).dropStage ours
  let s := { s with cairn := { s.cairn with regions := commitRegions g n s.cairn.regions } }
  let s := s.dropUndo (fun u => u.grp == g && (u.pitch == n || (s.regionOf u.line).isNone))
  let s := (s.recPut g 0 8 n).recPut g 8 8 0
  let s := s.onGroup g (fun x =>
    { (x.setField 0x1C0 60 1 0) with dirty := x.dirty.filter (fun l => (s.regionOf l).isSome), pitch := n, commit := none, votes := [], timer := none })
  let s := match opened, cause with
    | some o, 0 => s.costCommit (s.cyc.toNat - o)
    | _, _ => s
  (((s.tellWaiters g true).pitchEvent g n 0 cause)).afterOutcome g

/-- The lines of a group's overflowed pitches: of its open commit, and of its tracked pitch. -/
def Group.overflowLines (x : Group) : List Nat :=
  (match x.commit with
   | some c => if c.overflow then c.lines else []
   | none => []) ++ (if x.overflow then x.dirty else [])

/-- ABORT(N) takes effect on this member: step 6 (R341, R346). -/
def State.applyAbort (s : State) (g n cause : Nat) : State :=
  let p (i : Nat) : Bool := i == n || i == n + 1
  let s := ((s.recDecide g 2).loseLines g p (s.group g).overflowLines).undoPitches g p
  let s := (s.dropStage (fun e => e.grp == g && e.bit == n % 2)).recPut g 8 8 0
  let s := s.onGroup g (fun x =>
    { x with commit := none, dirty := [], overflow := false, votes := [], timer := none, lastAbort := some n })
  ((s.tellWaiters g false).pitchEvent g n 1 cause).afterOutcome g

/-- The coordinator's decision goes to every other live member and takes effect on itself (R346). -/
def State.conclude (s : State) (g n : Nat) (commit : Bool) (cause : Nat) : State :=
  let grp := s.group g
  let s := s.recDecide g (if commit then 1 else 2)
  let s := (grp.livers.filter (· ≠ grp.midx)).foldl (fun s i =>
    s.belayMsg g (if commit then 9 else 10) (grp.acc i) 0 (if commit then 0 else cause) n) s
  if commit then s.applyCommit g n 0 else s.applyAbort g n cause

/-- A vote reaches the coordinator: the timer starts at the first, an abort vote decides at once, and the last live
member's ready vote decides commit (R346). -/
def State.castVote (s : State) (g i n : Nat) (ok : Bool) (cause : Nat) : State :=
  if ok then
    let s := s.onGroup g (fun x =>
      { x with votes := if x.votes.contains i then x.votes else i :: x.votes
               timer := x.timer.or (some s.cyc.toNat) })
    if (s.group g).livers.all (fun j => (s.group g).votes.contains j) then s.conclude g n true 0 else s
  else s.conclude g n false cause

/-- This member's vote: to the coordinator, or to itself (R346). -/
def State.sendVote (s : State) (g n : Nat) (ok : Bool) (cause : Nat) : State :=
  let grp := s.group g
  let s := s.onGroup g (fun x => { x with commit := x.commit.map (fun c => { c with voted := true }) })
  if grp.leads then s.castVote g grp.midx n ok cause
  else
    match grp.coordinator with
    | none => s
    | some c => s.belayMsg g 8 (grp.acc c) (if ok then 0 else 1) cause n

/-- The cause of this member's abort vote, 0 for ready; none while it cannot vote. -/
def Commit.verdict (c : Commit) : Option Nat :=
  if c.voted then none
  else if c.overflow then some 2
  else if c.failed ≠ 0 then some c.failed
  else if c.deltas.isEmpty && c.unsent.isEmpty then some 0
  else none

/-- MEMBER_VOTE, R346: while a group settles no member votes (R440). -/
def execMemberVote (grp : Nat) (s : State) : Host.Outcome State Fault Refusal :=
  let g := s.group grp
  match g.commit with
  | none => .next s
  | some c =>
    match c.verdict with
    | none => .next s
    | some v => happens (g.st != 1) s (s.sendVote grp c.pitch (v == 0) v)

/-- VOTE, R345, R346. -/
def execVote (msg : Msg) (s : State) : Host.Outcome State Fault Refusal :=
  match s.belayGroup msg with
  | none => .next (s.countStat 0 48 16)
  | some g =>
    match (s.group g).memberOf msg.src with
    | none => .next s
    | some i => happens ((s.group g).leads && (s.group g).st == 0) s (s.castVote g i msg.pitch (msg.val == 0) msg.cause)

/-- BELAY_COMMIT_MSG, R346, R440. -/
def execBelayCommitMsg (msg : Msg) (s : State) : Host.Outcome State Fault Refusal :=
  match s.belayGroup msg with
  | none => .next (s.countStat 0 48 16)
  | some g => happens ((s.group g).st != 1) s (s.applyCommit g msg.pitch 0)

/-- BELAY_ABORT_MSG, R346, R440. -/
def execBelayAbortMsg (msg : Msg) (s : State) : Host.Outcome State Fault Refusal :=
  match s.belayGroup msg with
  | none => .next (s.countStat 0 48 16)
  | some g => happens ((s.group g).st != 1) s (s.applyAbort g msg.pitch msg.cause)

/-- BELAY_TIMEOUT, R346: GTO x 1,024 cycles after the first vote. -/
def execBelayTimeout (grp : Nat) (s : State) : Host.Outcome State Fault Refusal :=
  let g := s.group grp
  match g.timer with
  | none => .next s
  | some t =>
    happens (g.enabled && g.leads && g.st == 0 && decide (t + max 1 (fld (g.reg 0x20) 0 32) * 1024 ≤ s.cyc.toNat)) s
      (s.conclude grp (g.pitch + 1) false 1)

/-! ## Opening a commit (R297, R346) -/

/-- The lines of a group that are dirty in its tracked pitch, those of its joining and leaving regions among them. -/
def State.dirtyLines (s : State) (g : Nat) : List Nat :=
  let x := s.group g
  let whole := (s.cairn.regions.filter (fun r => decide (r.grp = g) && r.st != .prot && decide (r.pitch = x.tracked))).flatMap
    Region.lines
  whole ++ x.dirty.filter (fun l => !whole.contains l)

/-- The value of a line before the writes of a pitch: its before-image in the pitch, or that in the next one, or its home
value. -/
def State.imageOf (s : State) (g line n : Nat) : List Byte :=
  let of (p : Nat) : Option Undo := s.cairn.undo.find? (fun u => u.grp == g && u.line == line && u.pitch == p)
  match (of n).or (of (n + 1)) with
  | some u => s.imageOfUndo u
  | none => (locsFrom (line * 256) 256).map s.byte

/-- The delta of a line at the opening of pitch `n`: before-image against value, which is the before-image of the next pitch
once that pitch has written the line; a joining region's before-image and a leaving region's value are zero (R295, R296,
R346). -/
def State.deltaOf (s : State) (g n : Nat) (r : Region) (line : Nat) : List Nat :=
  let zero := List.replicate 256 0
  let before := if r.st = .joining ∧ r.pitch = n then zero else natsOf (s.imageOf g line n)
  let after := if r.st = .leaving ∧ r.pitch = n then zero else natsOf (s.imageOf g line (n + 1))
  xorBytes before after

/-- The address of a delta at its holder (R342). -/
def cairnAddr (n g off : Nat) : Nat := 0x3FF0000000000 + n % 2 * 2 ^ 39 + g * 2 ^ 35 + off

/-- Note a delta that a commit waits for, or that has failed. -/
def Group.noteDelta (x : Group) (tag : Nat) (out : Bool) : Group :=
  { x with commit := x.commit.map (fun c =>
      if out then { c with deltas := tag :: c.deltas } else { c with failed := if c.failed = 0 then 1 else c.failed }) }

/-- Send the delta of a line to the holder of parity `j` (R346). -/
def State.sendDelta (s : State) (g n line : Nat) (r : Region) (j : Nat) : State :=
  let x := s.group g
  let o := r.offset line
  let (q, t) := x.rowOfData x.midx (o / 2 ^ 16)
  let h := x.holder t j
  let off := x.parityUnit h q t * 2 ^ 16 + o % 2 ^ 16
  let bytes := scaleBytes (coef (x.position x.midx t) j) (s.deltaOf g n r line)
  let tag := s.serial
  let s := { s with serial := tag + 1 }
  let req : FabReq :=
    { src := s.devid, who := 1096 + line * 256 / 2 ^ 36, tag := tag, cls := 0, op := 1, addr := cairnAddr n g off,
      len := 256, aop := 0, fmt := 0, data := ofBytes (bytesOf bytes), cmp := 0, poison := false, dxp := true }
  if s.reachable (x.acc h) then
    (s.onGroup g (fun y => y.noteDelta tag true)).transmit (x.acc h) req
  else (s.onGroup g (fun y => y.noteDelta tag false)).countStat 0 0 16

/-- Send the deltas of a line to every holder of its row. -/
def State.sendDeltas (s : State) (g n line : Nat) : State :=
  match s.regionOf line with
  | none => s
  | some r => (List.range (s.group g).m).foldl (fun s j => s.sendDelta g n line r j) s

/-- A before-image of a pitch is poisoned, so that no delta can be made from it (log entry 109). -/
def State.undoLost (s : State) (g n : Nat) : Bool :=
  s.cairn.undo.any (fun u => u.grp == g && u.pitch == n && s.entryBad u.grp u.reg u.place)

/-- The commit of N = PITCHNO + 1 opens, and the cairn engines track N + 1; the cairn engine of a stack in critical
self-refresh waits (R297, R346, R420). -/
def State.openCommit (s : State) (g : Nat) : State :=
  let x := s.group g
  let n := x.pitch + 1
  let lines := s.dirtyLines g
  let later (l : Nat) : Bool := s.sleeping (l * 256)
  let c : Commit :=
    { pitch := n, openedAt := s.cyc.toNat, lines := lines, overflow := x.overflow
      unsent := if x.overflow then [] else lines.filter later
      failed := if s.undoLost g n then 6 else 0 }
  let s := (s.recPut g 8 8 n).recPut g 16 1 0
  let t := s.onGroup g (fun x => { x with commit := some c, dirty := [], overflow := false })
  if x.overflow then t else (lines.filter (fun l => !later l)).foldl (fun s l => s.sendDeltas g n l) t

/-- The next line of a group's open commit whose stack has left critical self-refresh (R420). -/
def State.nextDelta (s : State) (g : Nat) : Option Nat :=
  ((s.group g).commit.bind (fun c => c.unsent.find? (fun l => !s.sleeping (l * 256))))

/-- The deltas of a line that has waited are sent (R420). -/
def State.sendLater (s : State) (g line : Nat) : State :=
  match (s.group g).commit with
  | none => s
  | some c =>
    let lost := s.undoLost g c.pitch || s.undoLost g (c.pitch + 1)
    (s.onGroup g (fun x => { x with commit := some { c with
      unsent := c.unsent.filter (· ≠ line), failed := if c.failed = 0 && lost then 6 else c.failed } })).sendDeltas g c.pitch line

/-- The strand, lowest number first, whose BELAY of a group waits to perform. -/
def State.belayer (s : State) (g : Nat) : Option Nat :=
  (s.strands.find? (fun e => e.2.belay == some g)).map (·.1)

/-- A BELAY that waits can perform: no commit is open and the group does not settle or rebuild (R297, R441, R449). -/
def State.belayReady (s : State) (g : Nat) : Bool :=
  let x := s.group g
  (s.belayer g).isSome && x.enabled && x.commit.isNone && (x.st == 0 || x.st == 3)

/-- A BELAY performs; in a stopped group its commit aborts at once with cause 8 (R297, R449). -/
def State.belayPerforms (s : State) (g : Nat) : State :=
  match s.belayer g with
  | none => s
  | some k =>
    let s := s.onStrand k (fun x => { x with belay := none })
    if (s.group g).st = 3 then s.applyAbort g ((s.group g).pitch + 1) 8 else s.openCommit g

/-- BELAY_OPEN, R297. -/
def execBelayOpen (grp : Nat) (s : State) : Host.Outcome State Fault Refusal :=
  happens (s.belayReady grp) s (s.belayPerforms grp)

/-- BEFORE_IMAGE_CAPTURE, R339, R341. -/
def execBeforeImageCapture (line : Nat) (s : State) : Host.Outcome State Fault Refusal := .next (s.capture line)

/-! ## BELAY, BWAIT, PITCHRD (R297 to R299, R403) -/

/-- The enabled group in which the issuing strand's context holds a region. -/
def State.heldGroup (s : State) : Option Nat :=
  match s.queueOf s.issue.strand with
  | none => none
  | some q => ((s.cairn.regions.find? (fun r => r.queue = q)).map (·.grp)).filter (fun g => (s.group g).enabled)

/-- BELAY's checks and waits (R297, R403, R441). -/
def belayHurdle (f : LH) (s : State) : Option Hurdle :=
  match s.heldGroup with
  | none => some (.fault .badGroup (Instr.encode (.belay f)))
  | some g =>
    let x := s.group g
    match s.releaseHurdle 0xFFFF 5 0 with
    | some h => some h
    | none =>
      if s.issue.pre.belay.isSome || x.commit.isSome || x.st == 1 || x.st == 2 then some (.wait .belay) else none

/-- BELAY, R297: a release at device scope; BELAY_OPEN opens the commit. -/
def execBelay (f : LH) (s : State) : Host.Outcome State Fault Refusal :=
  runSlot (.belay f) (belayHurdle f) (fun s =>
    (s.releaseAt s.issue.strand 0xFFFF 5 0).onMe (fun x => { x with belay := s.heldGroup })) s

/-- The commit that a BWAIT for `p` waits for. -/
def State.bwaitFor (s : State) (p : Nat) : Option Nat :=
  (s.groupOfStrand s.issue.strand).filter (fun g =>
    (s.group g).commit.isSome && (p == 0 || p == (s.group g).pitch + 1))

/-- OUT of a BWAIT that does not wait (R298). -/
def State.bwaitOut (s : State) (p : Nat) : Nat :=
  match s.issue.pre.decided with
  | some ok => if ok then 0 else 1
  | none =>
    let n := s.pitchNo s.issue.strand
    let aborted := ((s.groupOfStrand s.issue.strand).bind (fun g => (s.group g).lastAbort)) == some p
    if p = 0 then 2
    else if p ≤ n then 0
    else if p = n + 1 ∧ aborted then 1
    else 2

/-- BWAIT's waits (R298). -/
def bwaitHurdle (f : LH) (s : State) : Option Hurdle :=
  if s.issue.pre.belay.isSome then some (.wait .belay)
  else if s.issue.pre.decided.isSome then none
  else
    match s.bwaitFor (s.rs f.s2) with
    | some g => some (.wait (.outcome g))
    | none => none

/-- BWAIT, R298: an acquire at device scope when it finds the pitch committed. -/
def execBwait (f : LH) (s : State) : Host.Outcome State Fault Refusal :=
  runSlot (.bwait f) (bwaitHurdle f) (fun s =>
    let out := s.bwaitOut (s.rs f.s2)
    let w := out * 2 ^ 62 + s.pitchNo s.issue.strand % 2 ^ 48
    let s := if out = 0 then s.acquire s.issue.strand 5 0 else s
    (s.onMe (fun x => { x with decided := none })).later (.s f.s) (some w) .memory f.at_.lat 0) s

/-- The fill of a group's fullest undo area in percent. -/
def State.undoFill (s : State) (g : Nat) : Nat :=
  (List.range 8).foldl (fun m i =>
    let used := (s.cairn.undo.filter (fun u => u.grp = g ∧ u.line * 256 / 2 ^ 36 = i)).length
    max m (used * 100 / max 1 ((s.group g).undoRoom i))) 0

/-- PITCHRD's word (R299, R445): prepare lasts until the outcome, which takes effect in one step. -/
def State.pitchWord (s : State) : Nat :=
  let req := if s.cairn.request then 2 ^ 61 else 0
  match s.groupOfStrand s.issue.strand with
  | none => req + 1
  | some g =>
    let x := s.group g
    let ph := if x.st = 2 ∧ (x.rbt ∨ x.rebuild.isSome) then 3 else if x.commit.isSome then 1 else 0
    ph * 2 ^ 62 + req + s.undoFill g * 2 ^ 54 + x.tracked % 2 ^ 48

/-- PITCHRD, R299. -/
def execPitchrd (f : LH) (s : State) : Host.Outcome State Fault Refusal :=
  runSlot (.pitchrd f) free (fun s => s.later (.s f.s) (some s.pitchWord) .memory f.at_.lat 0) s

/-! ## PROTECT and UNPROTECT (R295, R296, R337, R403, R447) -/

/-- What the checks of a region find. -/
inductive RegionCheck where
  | ok (unit : Nat) (frames : List Nat)
  | bad
  | moving
deriving DecidableEq, Repr

/-- The frames of the pages of a region: none for a page that is invalid, not writable or not in HBM. -/
def State.regionFrames (s : State) (die : Nat) (sp : Option Space) (sup : Bool) (base : Nat) : Nat → RegionCheck
  | 0 => .ok 0 []
  | n + 1 =>
    match s.translate die sp base true sup with
    | .ok pa _ =>
      if isHbm pa then
        match s.regionFrames die sp sup (base + 2 ^ 16) n with
        | .ok u l => .ok u (pa / 2 ^ 16 :: l)
        | r => r
      else .bad
    | .moving => .moving
    | _ => .bad

/-- The lowest free range of `n` units of a group's data space (R337). Where the total leaves room and no range does, PROTECT traps
as if it did not, which R295 leaves open (log entry 129). -/
def State.freeUnits (s : State) (g n : Nat) : Option Nat :=
  let used := (s.cairn.regions.filter (fun r => r.grp = g)).map (fun r => (r.unit, r.unit + r.units))
  let fits (u : Nat) : Bool := decide (u + n ≤ (s.group g).psize) &&
    used.all (fun e => decide (u + n ≤ e.1) || decide (e.2 ≤ u))
  ((0 :: used.map (·.2)).filter fits).foldl (fun m u => match m with
    | none => some u
    | some v => some (min u v)) none

/-- The frame of a unit of a rebuilt member's data space (R444). -/
def Group.unitFrame (g : Group) (u : Nat) : Nat := fld (g.reg (0x200 + 8 * (u % 8))) 16 23 + u / 8

/-- The checks of a region that a context of a queue asks to protect (R295, R403, R447). -/
def State.checkRegion (s : State) (die : Nat) (sp : Option Space) (sup : Bool) (q base size grp : Nat) : RegionCheck :=
  let g := s.group grp
  let n := size / 2 ^ 16
  let local_ : Bool := match sp with
    | some (.device _) => true
    | _ => false
  if !local_ || addrKind base != 0 || fld base 57 3 != 0 || base % 2 ^ 16 != 0 || size == 0 || size % 2 ^ 16 != 0 ||
      s.cairn.regions.any (fun r => r.queue == q && decide (r.base < base + size) && decide (base < r.base + r.size)) ||
      !g.enabled || g.owner != q ||
      s.cairn.regions.any (fun r => r.queue == q && r.grp != grp) then .bad
  else
    match s.freeUnits grp n with
    | none => .bad
    | some u =>
      match s.regionFrames die sp sup base n with
      | .ok _ frames =>
        if s.cairn.regions.any (fun r => r.frames.any (fun f => frames.contains f)) then .bad
        else if g.adp && frames != (locsFrom u n).map g.unitFrame then .bad
        else .ok u frames
      | r => r

/-- The region is registered: it joins in the tracked pitch, or is protected at once by a rebuilt member (R295,
R447). -/
def State.register (s : State) (q base size grp unit : Nat) (frames : List Nat) : State :=
  let g := s.group grp
  let r : Region := { queue := q, base := base, size := size, grp := grp, st := if g.adp then .prot else .joining,
                      unit := unit, frames := frames, pitch := g.tracked }
  { s with cairn := { s.cairn with regions := s.cairn.regions ++ [r] } }

/-- The check of PROTECT's operands (R295). -/
def State.protectCheck (s : State) (f : LH) : RegionCheck :=
  let k := s.issue.strand
  match s.queueOf k with
  | none => .bad
  | some q =>
    if fld (s.rs f.s2) 4 60 != 0 then .bad
    else s.checkRegion (dieOf k) (s.spaceOf k) (s.issue.pre.handler == .sup) q (s.ra f.ab) (s.rs f.s) (s.rs f.s2)

/-- The wait for the cairn engines' registration (R295). -/
def State.registerWait (s : State) : Option Hurdle :=
  if s.issue.pre.registering = some true then none else some (.wait .register)

/-- PROTECT's checks and wait. -/
def protectHurdle (f : LH) (s : State) : Option Hurdle :=
  match s.protectCheck f with
  | .bad => some (.fault .badGroup (Instr.encode (.protect f)))
  | .moving => some (.wait .walk)
  | .ok _ _ => s.registerWait

/-- PROTECT, R295. -/
def execProtect (f : LH) (s : State) : Host.Outcome State Fault Refusal :=
  runSlot (.protect f) (protectHurdle f) (fun s =>
    let t := s.onMe (fun x => { x with registering := none })
    match s.protectCheck f, s.queueOf s.issue.strand with
    | .ok u frames, some q => t.register q (s.ra f.ab) (s.rs f.s) (s.rs f.s2) u frames
    | _, _ => t) s

/-- The region that UNPROTECT names: exactly its base, size and group (R296). -/
def State.namedRegion (s : State) (f : LH) : Option Region :=
  match s.queueOf s.issue.strand with
  | none => none
  | some q => s.cairn.regions.find? (fun r =>
      r.queue == q && r.base == s.ra f.ab && r.size == s.rs f.s && r.grp == s.rs f.s2)

/-- The region joins in the pitch of an open commit that this member has voted for: it stays until the outcome (log entry
136). -/
def State.joinsVoted (s : State) (r : Region) : Bool :=
  r.st == .joining && (s.group r.grp).commit.any (fun c => c.voted && c.pitch == r.pitch)

/-- UNPROTECT's checks and wait. -/
def unprotectHurdle (f : LH) (s : State) : Option Hurdle :=
  match s.namedRegion f with
  | none => some (.fault .badGroup (Instr.encode (.unprotect f)))
  | some r => if s.joinsVoted r then some (.wait .belay) else s.registerWait

/-- A region that joins in the pitch of the open commit gives its part back: the deltas that its lines have sent are sent
again, which takes them out of the staging entries, and those not sent are not sent (R296; log entry 136). -/
def State.takeBack (s : State) (r : Region) : State :=
  match (s.group r.grp).commit with
  | none => s
  | some c =>
    if r.pitch ≠ c.pitch ∨ c.overflow then s
    else
      let mine (l : Nat) : Bool := r.frames.contains (l / 256)
      (c.lines.filter (fun l => mine l && !c.unsent.contains l)).foldl (fun s l => s.sendDeltas r.grp c.pitch l)
        (s.onGroup r.grp (fun x => { x with commit := x.commit.map (fun c =>
          { c with lines := c.lines.filter (fun l => !mine l), unsent := c.unsent.filter (fun l => !mine l) }) }))

/-- A region leaves: a joining one is unprotected at once, with no effect on parity, a protected one at the commit of the tracked
pitch (R296). -/
def State.leaveRegion (s : State) (r : Region) : State :=
  match r.st with
  | .joining =>
    let s := s.takeBack r
    let s := s.dropUndo (fun u => r.frames.contains (u.line / 256))
    let s := s.onGroup r.grp (fun x => { x with dirty := x.dirty.filter (fun l => !r.frames.contains (l / 256)) })
    { s with cairn := { s.cairn with regions := s.cairn.regions.filter (· ≠ r) } }
  | .prot =>
    { s with cairn := { s.cairn with regions := s.cairn.regions.map (fun x =>
        if x = r then { r with st := .leaving, pitch := (s.group r.grp).tracked } else x) } }
  | .leaving => s

/-- UNPROTECT, R296. -/
def execUnprotect (f : LH) (s : State) : Host.Outcome State Fault Refusal :=
  runSlot (.unprotect f) (unprotectHurdle f) (fun s =>
    let t := s.onMe (fun x => { x with registering := none })
    match s.namedRegion f with
    | some r => t.leaveRegion r
    | none => t) s

/-- The registration of a strand is the next one: in order of the cycle, then of the strand's number, once the request
registered before it has performed with its bundle's issue (R296). -/
def State.registersNext (s : State) (k : Nat) : Bool :=
  let x := s.strand k
  x.registering == some false && s.strands.all (fun e =>
    e.2.registering == none || e.2.registering == some false && (decide (x.since.getD 0 < e.2.since.getD 0) || (x.since == e.2.since && decide (k ≤ e.1))))

/-- REGION_REGISTERED, R295, R296. -/
def execRegionRegistered (strand : Nat) (s : State) : Host.Outcome State Fault Refusal :=
  happens (s.registersNext strand) s (s.onStrand strand (fun x => { x with registering := some true }))

/-! ## A killed launch, the owner, and enabling (R335, R336, R347, R449) -/

/-- The groups in which a queue's context holds regions or the grant. -/
def State.groupsOf (s : State) (q : Nat) : List Nat :=
  (List.range 16).filter (fun g => s.cairn.regions.any (fun r => r.queue == q && r.grp == g))

/-- A context's launch is killed: an open commit without this member's vote is voted down with cause 5, and the tracked
pitch aborts on this member; while the group settles or rebuilds the abort waits (R347, R449). -/
def State.killPitch (s : State) (q : Nat) : State :=
  (s.groupsOf q).foldl (fun s g =>
    let x := s.group g
    if !x.enabled then s
    else if x.st = 1 ∨ x.st = 2 then s.onGroup g (fun x => { x with killed := true })
    else
      let s := match x.commit with
        | some c => if c.voted then s else s.sendVote g c.pitch false 5
        | none => s
      s.abortTracked g 5) s

/-- Settling has ended: a kill's abort that waited is made (R449). -/
def State.lateKill (s : State) (g : Nat) : State :=
  if (s.group g).killed then (s.onGroup g (fun x => { x with killed := false })).abortTracked g 5 else s

/-- A write of GOWN (R335, R347). -/
def State.writeGown (s : State) (g v : Nat) : State :=
  let was := (s.group g).bit 0x18 63
  let keep := v / 2 ^ 63 % 2 * 2 ^ 63 + fld v 0 12
  let s := s.onGroup g (fun x => x.setReg 0x18 keep)
  if was && !bitAt v 63 then
    if (s.group g).commit.isSome then s.onGroup g (fun x => { x with ending := true })
    else if s.cairn.regions.any (fun r => r.grp == g) then s.endProtection g
    else s
  else s

/-- GOWN_WRITE, R347. -/
def execGownWrite (grp value : Nat) (s : State) : Host.Outcome State Fault Refusal := .next (s.writeGown grp value)

/-- A count of the entries MEMBER0 to MEMBER(N-1) that hold a domain number exceeds M. -/
def Group.crowded (g : Group) (lo : Nat) : Bool :=
  let l := (List.range g.n).map (fun i => fld (g.reg (0x100 + 8 * i)) lo 8)
  l.any (fun d => decide (g.m < (l.filter (· == d)).length))

/-- The area lies within the populated window of stack `i`. -/
def inStack (i : Nat) (a : Nat × Nat) : Bool :=
  decide (i * 2 ^ 36 ≤ a.1) && decide (a.1 + a.2 ≤ i * 2 ^ 36 + 64000000000)

/-- The areas of a group: parity, undo, staging, record, and on a rebuild target its data images. -/
def Group.areas (g : Group) : List (Nat × Nat) :=
  let eight (o : Nat) (w : Nat) : List (Nat × Nat) := (List.range 8).map (fun i => g.area (o + w * i))
  ([(g.parb, g.punits * 2 ^ 16), (g.recb, 64)] ++ eight 0x40 16 ++ eight 0x48 16 ++
    (if g.rbt then eight 0x200 8 else [])).filter (fun a => decide (0 < a.2))

/-- Two areas overlap. -/
def overlap (a b : Nat × Nat) : Bool := decide (a.1 < b.1 + b.2) && decide (b.1 < a.1 + a.2)

/-- No area of a list overlaps another of it. -/
def disjointAreas : List (Nat × Nat) → Bool
  | [] => true
  | a :: t => t.all (fun b => !overlap a b) && disjointAreas t

/-- The first check of R336 that fails, 0 for none; check 3 ignores GRES and check 4 wants DIMGs on a rebuild target
(R444). -/
def State.enableError (s : State) (slot : Nat) : Nat :=
  let g := s.group slot
  let accs := (List.range g.n).map g.acc
  let res := fld (g.reg 0x28) 0 10
  let st := g.parb / 2 ^ 36
  let others := ((List.range 16).filter (fun i => i != slot && (s.group i).enabled)).flatMap (fun i => (s.group i).areas)
  let eight := List.range 8
  if g.crowded 16 || g.crowded 24 then 1
  else if g.n < 3 || decide (24 < g.n) || g.m == 0 || decide (4 < g.m) || decide (g.n ≤ g.m) then 2
  else if decide (g.n ≤ g.midx) || !accs.Nodup || g.acc g.midx != s.devid ||
      (!g.rbt && (!g.bit 0x28 63 || accs.contains res)) then 3
  else if g.psize == 0 || g.psize % g.k != 0 || decide (2 ^ 35 < g.punits * 2 ^ 16) ||
      decide (8 ≤ st) || !inStack st (g.parb, g.punits * 2 ^ 16) ||
      eight.any (fun i => (g.area (0x40 + 16 * i)).2 == 0 || !inStack i (g.area (0x40 + 16 * i))) ||
      (g.area (0x48 + 16 * st)).2 == 0 ||
      eight.any (fun i => (g.area (0x48 + 16 * i)).2 != 0 && !inStack i (g.area (0x48 + 16 * i))) ||
      !isHbm g.recb || !disjointAreas g.areas || g.areas.any (fun a => others.any (overlap a)) ||
      (g.rbt && eight.any (fun i => decide ((g.area (0x200 + 8 * i)).2 < cdiv g.psize 8 * 2 ^ 16) ||
        !inStack i (g.area (0x200 + 8 * i)))) then 4
  else 0

/-- The group can be enabled. -/
def Group.canEnable (g : Group) : Bool := !g.enabled && g.zeroing.isEmpty

/-- The checks of an enable give ERR, and on success the zeroing begins (R336). -/
def State.enableGroup (s : State) (grp : Nat) : State :=
  let e := s.enableError grp
  s.onGroup grp (fun g => { g.setField 0 60 3 e with
      zeroing := if e = 0 then [(g.parb, g.punits * 2 ^ 16), (g.recb, 64)] else [] })

/-- GCTL_ENABLE, R336, R444. -/
def execGctlEnable (grp : Nat) (s : State) : Host.Outcome State Fault Refusal :=
  happens (s.group grp).canEnable s (s.enableGroup grp)

/-- A bit of each of the low `n` members. -/
def memberBits (p : Nat → Bool) (n : Nat) : Nat := (List.range n).foldl (fun m i => if p i then m ||| 2 ^ i else m) 0

/-- GROUP_ZEROING_DONE, R336, R420, R444. -/
def execGroupZeroingDone (grp : Nat) (s : State) : Host.Outcome State Fault Refusal :=
  let g := s.group grp
  let s' := g.zeroing.foldl (fun s a => s.clearRange a.1 a.2) s
  happens (!g.zeroing.isEmpty && !g.zeroing.any (fun a => s.sleeping a.1)) s (s'.onGroup grp (fun g =>
    let g := { g with gone := [], tried := [], endReply := none, zeroing := [], pitch := 0, dirty := [], overflow := false, commit := none, lastAbort := none,
                      votes := [], timer := none, killed := false, ending := false, miss := [], settle := none,
                      lostAcc := [], probeAt := s.cyc.toNat, expelled := false, received := [], asked := [], rebuild := none }
    let g := (List.range g.n).foldl (fun g i => g.setField (0x100 + 8 * i) 63 1 1) g
    let g := g.setReg 0x1C0 ((if g.rbt then 2 * 2 ^ 62 + 2 ^ 61 else 0))
    g.setField 0 63 1 1))

/-- The group can be disabled: it holds no region (R335). -/
def State.canDisable (s : State) (grp : Nat) : Bool :=
  (s.group grp).enabled && !s.cairn.regions.any (fun r => r.grp == grp)

/-- The group is disabled; the deltas that its slot has staged are freed (log entry 110). -/
def State.disableGroup (s : State) (grp : Nat) : State :=
  let s := (s.dropStage (fun e => e.grp == grp)).onGroup grp (fun g => g.setField 0 63 1 0)
  { s with cairn := { s.cairn with jobs := s.cairn.jobs.filter (fun j => j.grp ≠ grp) } }

/-- GCTL_DISABLE, R335: dropped while the group holds a region. -/
def execGctlDisable (grp : Nat) (s : State) : Host.Outcome State Fault Refusal :=
  happens (s.canDisable grp) s (s.disableGroup grp)

end Sys2Proof.Machine
end

