-- ==== Sys2Proof/Machine/Gang.lean ====
section
/-! DEFINITION. Launches from the packet to the completion record: descriptors, dependences, placement, start, the parts
of a gang, pre-emption, freeze, save and resume, completion and kill (chapters 02, 13, 19; R43 to R51, R290, R304 to
R308, R315 to R317, R381, R412). -/

namespace Sys2Proof.Machine

/-! ## A queue's memory (R98, R303, R310) -/

/-- The space of a queue's context. -/
def State.queueSpace (s : State) (q : Nat) : Space :=
  let c := s.queue q
  if c.hs then .host (c.xlat % 2 ^ 20) else .device c.xlat

/-- The parts of a flat range of a queue's space. -/
def State.queueParts (s : State) (q va n : Nat) : List (Nat × Nat) :=
  partsOf (if (s.queue q).hs then 2 ^ 12 else 2 ^ 16) va n

/-- One part as the device's own units reach it, through CD0 and whatever the page's privilege. -/
def State.queuePart (s : State) (q : Nat) (write : Bool) (p : Nat × Nat) : Except EngStop EngPart :=
  s.unitPart (16384 + q) 0 (some (s.queueSpace q)) write true p

/-- The parts of a range, or what stops the access: an address of another kind has none. -/
def State.queueReach (s : State) (q va n : Nat) (write : Bool) : Except EngStop (List EngPart) :=
  if va / 2 ^ 57 ≠ 0 then .error .fail else (s.queueParts q va n).mapM (s.queuePart q write)

/-- Read bytes. -/
def State.queueBytes (s : State) (q va n : Nat) : Except EngStop (List Byte) :=
  match s.queueReach q va n false with
  | .error e => .error e
  | .ok l =>
    match l.findSome? (fun p => s.partPoison p) with
    | some e => .error e
    | none => .ok (l.flatMap (fun p => (locsFrom p.loc p.len).map s.byte))

/-- The sectors of the cached parts. -/
def cachedOf (l : List EngPart) : List Nat :=
  ((l.filter (·.cached)).flatMap (fun p => (locsFrom p.loc p.len).map (· / 64))).dedup

/-- Write bytes. -/
def State.queuePut (s : State) (q va : Nat) (bytes : List Byte) : Except EngStop State :=
  (s.queueReach q va bytes.length true).map (fun l =>
    s.writeHome ((l.flatMap (fun p => locsFrom p.loc p.len)).zip bytes) (cachedOf l))

/-- A slot asks the host for a page for a die, once (R105): with `n` 0 for its launch, 1 for a packet, 2 for a save area, 3 for
a completion record. -/
def State.askFor (s : State) (h n die va : Nat) : State :=
  s.askPage (2048 + 64 * n + h) die ((s.slot h).queue.map s.queueSpace) va 0

/-- What a slot does about what stops an access of its own, made by a unit of a die: it waits, for a walk perhaps, asks the host
for a page, or goes on without it. -/
def State.orElse (s : State) (h n : Nat) (e : EngStop) (t : State) (die : Nat := 0) : State :=
  match e with
  | .wait => s
  | .moving _ _ => s
  | .walk d root page sup => s.startWalk (16384 + ((s.slot h).queue).getD 0) d root page sup
  | .miss va => s.askFor h n die va
  | .fail => t

/-- The gang of a slot. -/
def State.gangAt (s : State) (h : Nat) : Option Gang := (s.slot h).gang

/-- Change the gang of a slot. -/
def State.onGang (s : State) (h : Nat) (f : Gang → Gang) : State := s.onSlot h (fun x => { x with gang := x.gang.map f })

/-- The cores of a gang. -/
def Gang.cores (g : Gang) : List Nat := g.ropes.flatMap (fun r => (List.range 8).map (fun i => 8 * r + i))

/-- The stream of a context slot is one that the kernel uses (R306). -/
def Gang.uses (g : Gang) (c : Nat) : Bool := bitAt g.desc.smask c

/-! ## Mapping a queue to a slot (R312 to R315) -/

/-- The firmware will make a mapping decision (R314). -/
def State.wake (s : State) : State := { s with mapDue := s.mapDue + 1 }

/-- A pending EPRIO has risen: the firmware makes one decision for the cycle (R314). -/
def State.aged (s : State) : State :=
  if s.agedAt = some s.cycle then s else ({ s with agedAt := some s.cycle } : State).wake

/-- An unmapped queue that has something to run becomes pending (R312, R314). -/
def State.pend (s : State) (q : Nat) : State :=
  let c := s.queue q
  if c.pend then s
  else if c.qhead ≠ c.qtail ∨ c.froz ∨ c.accepted ≠ [] then
    (s.onQueue q (fun c => { c with pend := true, eprio := c.bprio, wstart := s.cyc.toNat })).wake
  else s

/-- The slot dispatches the head accepted launch, unless it runs a gang, is being evicted, or the queue is disabled or
has a frozen gang (R307, R315, R458). -/
def State.dispatch (s : State) (h : Nat) : State :=
  match (s.slot h).queue with
  | none => s
  | some q =>
    let c := s.queue q
    if (s.slot h).gang.isNone && !(s.slot h).evicting && c.en && !c.froz then
      match c.accepted with
      | [] => s
      | l :: t => (s.onQueue q (fun c => { c with accepted := t })).onSlot h (fun x =>
          { x with gang := some { launch := l } })
    else s

/-- Free the ropes that a slot holds. -/
def State.freeRopes (s : State) (h : Nat) (l : List Nat) : State :=
  l.foldl (fun s r =>
    if (s.rope r).res == .held h || (s.rope r).res == .busy h then
      s.onRope r (fun y => { y with res := .free, ready := false, streams := [], mopr := [], reloads := [], stopped := false })
    else s) s

/-- A queue loses its slot (R314), whose attempt number stays (R317): a launch that is not placed goes back to the head of
those accepted, a saved gang stays with the queue. -/
def State.unmap (s : State) (h : Nat) : State :=
  match (s.slot h).queue with
  | none => s
  | some q =>
    let s := match (s.slot h).gang with
      | none => s
      | some g =>
        let s := s.freeRopes h g.ropes
        if g.saved.isSome then
          s.onQueue q (fun c => { c with frozen := some { g with phase := .saved, granted := [], ready := [] } })
        else s.onQueue q (fun c => { c with accepted := g.launch :: c.accepted })
    (s.setSlot h { attempt := (s.slot h).attempt }).pend q

/-- A queue takes a free slot (R314): a frozen gang resumes first. -/
def State.mapTo (s : State) (h q : Nat) : State :=
  let c := s.queue q
  let g := c.frozen.map (fun g => { g with phase := .placing })
  let s := s.onQueue q (fun c =>
    { c with pend := false, eprio := c.bprio, mapc := s.cyc.toNat, frozen := none })
  (s.setSlot h { queue := some q, gang := g, attempt := (s.slot h).attempt }).dispatch h

/-! ## Completion (R308) -/

/-- Write a completion record (R308), unless a page of the ring stops it. -/
def State.record (s : State) (q seq status code : Nat) : Except EngStop State :=
  let c := s.queue q
  if c.crsize = 0 then .ok s
  else s.queuePut q (c.crbase + 32 * (seq % c.crsize))
    (toBytes 8 seq ++ toBytes 4 status ++ toBytes 4 code ++ toBytes 8 s.cyc.toNat ++ toBytes 8 c.prog)

/-- Steps 4 and 5 of a completion; a host-shared context's end sends a Stop Marker (R308, R320). Then the queue goes on
with its next launch, or loses its slot if it is being evicted. -/
def State.endLaunch (s : State) (h : Nat) : State :=
  match (s.slot h).queue, (s.slot h).gang with
  | some q, some g =>
    let s := s.onQueue q (fun c => { c with ldone := g.launch.seq, froz := false, ropes := 0 })
    let s := if g.launch.irq then s.msix (2 + q % 2046) else s
    let s := if (s.queue q).hs then
        { s with host := { s.host with ats := s.host.ats ++ [(5, (s.queue q).xlat % 2 ^ 20, 0)] } }
      else s
    let s := ((s.onSlot h (fun x => { x with gang := none })).wake).forgetFound (16384 + q)
    if (s.slot h).evicting then s.unmap h else s.dispatch h
  | _, _ => s

/-- Steps 3 to 5 of a completion: a record whose page is on the move, asleep, or not yet given by the host is written later,
and one that cannot be written is lost (R308; log entry 70). -/
def State.closeLaunch (s : State) (h status code : Nat) : State :=
  match (s.slot h).queue, (s.slot h).gang with
  | some q, some g =>
    match s.record q g.launch.seq status code with
    | .ok t => t.endLaunch h
    | .error e =>
      (s.onGang h (fun g => { launch := g.launch, phase := .closing, status := status, code := code })).orElse h 3 e (s.endLaunch h)
  | _, _ => s

/-! ## Packets and descriptors (R304 to R306) -/

/-- The fields of a packet, and its reserved bits are zero (R304). -/
def launchOf (b : List Byte) : Launch × Bool :=
  let flg := blockNum b 60 4
  ({ seq := blockNum b 0 8, kdesc := blockNum b 8 8, args := blockNum b 16 8, seed := blockNum b 24 8
     depa := blockNum b 32 8, dept := blockNum b 40 8, donea := blockNum b 48 8, donei := blockNum b 56 4
     irq := bitAt flg 0 }, flg / 2 == 0)

/-- A queue stops with QCTL.ERR: an event of kind 3 tells the runtime, with DATA that the manual does not give (R305,
R322). -/
def State.stopQueue (s : State) (q : Nat) : State :=
  let data := (Config.freeEvent s.freeCount).toNat
  (({ s with freeCount := s.freeCount + 1 } : State).onQueue q (fun c => { c with err := true })).raiseBit (64 + q)
    |>.postEvent 3 q data

/-- The slot judges the packet at QHEAD (R305): a packet that fails is judged again while its record cannot be written yet. -/
def State.acceptPacket (s : State) (h q : Nat) : State :=
  let c := s.queue q
  match s.queueBytes q (c.qbase + 64 * (c.qhead % c.qsize)) 64 with
  | .error e => s.orElse h 1 e (s.stopQueue q)
  | .ok b =>
    let (l, ok) := launchOf b
    if ok && l.seq == (c.lacc + 1) % 2 ^ 64 then
      (s.onQueue q (fun c =>
        { c with lacc := l.seq, qhead := (c.qhead + 1) % 2 ^ 32, accepted := c.accepted ++ [l] })).dispatch h
    else
      match (s.stopQueue q).record q l.seq 3 0 with
      | .ok t => t
      | .error e => s.orElse h 3 e (s.stopQueue q)

/-- The slot can read a packet: its queue is enabled and not stopped, has packets outstanding and no frozen gang. -/
def State.packetReady (s : State) (h : Nat) : Option Nat :=
  ((s.slot h).queue).filter (fun q =>
    let c := s.queue q
    c.en && !c.err && !c.froz && c.qhead != c.qtail && !(s.slot h).evicting)

/-- PACKET_ACCEPT, R305. -/
def execPacketAccept (slot : Nat) (s : State) : Host.Outcome State Fault Refusal :=
  match s.packetReady slot with
  | none => .next s
  | some q => .next (s.acceptPacket slot q)

/-- A descriptor's fields, but for its tables (R306). -/
def descOf (b : List Byte) : Desc :=
  let w (o : Nat) : Nat := blockNum b o 8
  { img0 := w 0, img1 := w 8, entry := [0, 2, 4, 6].map (fun i => blockNum b (16 + i) 2)
    smask := blockNum b 24 1 % 16, gdies := blockNum b 25 1, gropes := blockNum b 26 1, split := blockNum b 27 1
    acc := [0, 4, 8, 12].map (fun i => fld (blockNum b 28 2) i 4), hshare := blockNum b 30 2
    latch := [32, 33, 34, 35].map (fun i => blockNum b i 1), ttab := w 40, stkb := blockNum b 48 4
    stksz := blockNum b 52 4, stkmark := w 56, spillb := w 64, spillsz := w 72
    loop := (List.range 6).map (fun n => (fld (w (80 + 8 * n)) 32 2, fld (w (80 + 8 * n)) 0 32))
    ring := (List.range 16).map (fun n => w (128 + 8 * n)) }

/-- The product of the trips of the levels of a kind (R43). -/
def Desc.trips (d : Desc) (kind : Nat) : Nat := (d.loop.filter (fun e => e.1 = kind)).foldl (fun p e => p * e.2) 1

/-- The reserved bytes and bits of a descriptor are zero (R306, R394). -/
def descClean (b : List Byte) : Bool :=
  blockNum b 36 4 == 0 && blockNum b 24 1 / 16 == 0 && blockNum b 288 32 == 0 &&
  (List.range 6).all (fun n => blockNum b (80 + 8 * n) 8 / 2 ^ 34 == 0)

/-- The limits of R306 and R43. -/
def Desc.legal (d : Desc) : Bool :=
  [1, 2, 4].contains d.gdies && [1, 2, 4, 8].contains d.gropes && decide (4 ≤ d.split) && decide (d.split ≤ 8) &&
  decide (d.acc.foldl (· + ·) 0 ≤ 8) && decide (16 ≤ d.hshare) && decide (d.hshare ≤ 256) &&
  d.img0 % 2 ^ 18 == 0 && d.img1 % 2 ^ 18 == 0 && d.stkb % 256 == 0 && d.stksz % 256 == 0 &&
  d.loop.all (fun e => e.1 == 0 || e.2 != 0) && d.trips 3 == d.gdies && d.trips 2 == 8 * d.gropes &&
  d.regions.all (fun r => decide (r.holder < 8 * d.gropes))

/-- Bytes 0 to 7 of a region-table entry: its bits outside the token, the die and HOLDER are zero (R306). -/
def regionRowClean (v : Nat) : Bool := v == fld v 0 10 + fld v 16 2 * 2 ^ 16 + fld v 24 6 * 2 ^ 24

/-- The words of a table of 24-byte entries. -/
def rowsOf (b : List Byte) (n : Nat) : List (Nat × Nat × Nat) :=
  (List.range n).map (fun i => (blockNum b (24 * i) 8, blockNum b (24 * i + 8) 8, blockNum b (24 * i + 16) 8))

/-- Read a table of 24-byte entries. -/
def State.readRows (s : State) (q a n : Nat) : Except EngStop (List (Nat × Nat × Nat)) :=
  if n = 0 then .ok []
  else
    match s.queueBytes q a (24 * n) with
    | .error e => .error e
    | .ok b => .ok (rowsOf b n)

/-- Read a kernel descriptor with its tables (R306): a descriptor that breaks a limit fails. -/
def State.readDesc (s : State) (q a : Nat) : Except EngStop Desc :=
  match s.queueBytes q a 320 with
  | .error e => .error e
  | .ok b =>
    if a % 64 ≠ 0 ∨ !descClean b then .error .fail
    else
      match s.readRows q (blockNum b 256 8) (blockNum b 264 8), s.readRows q (blockNum b 272 8) (blockNum b 280 8) with
      | .error e, _ => .error e
      | _, .error e => .error e
      | .ok rt, .ok pt =>
        let d := { descOf b with
          regions := rt.map (fun r => { tok := fld r.1 0 10, die := fld r.1 16 2, holder := fld r.1 24 6
                                        base := r.2.1, size := r.2.2 })
          prots := pt }
        if d.legal && rt.all (fun r => regionRowClean r.1) then .ok d else .error .fail

/-- Register a kernel's `.protect` regions, or find the one that fails R295 (R306). -/
def State.protectAll (s : State) (q : Nat) : List (Nat × Nat × Nat) → Except EngStop State
  | [] => .ok s
  | (base, size, grp) :: t =>
    if grp / 16 ≠ 0 then .error .fail
    else
      match s.checkRegion 0 (some (s.queueSpace q)) true q base size grp with
      | .ok u frames => (s.register q base size grp u frames).protectAll q t
      | .moving => .error .wait
      | .bad => .error .fail

/-! ## The dependence (R307) -/

/-- The locations of the counter that a launch depends on, which this device holds: a flat address of its queue's space, or one
of its own export space (R307). One of the export space that it cannot reach is waited for, like another accelerator's; a flat
one fails the launch, as one of another kind or no multiple of eight does (log entry 130). -/
def State.counterLocs (s : State) (q depa : Nat) : Except EngStop (List Nat) :=
  if addrKind depa = 4 then
    match s.fab.spaceRoot with
    | none => .error .wait
    | some root =>
      match s.unitXlat (16384 + q) 0 (some (.device root)) (fld depa 0 50) false true with
      | .ok (pa, _) => .ok (locsFrom pa 8)
      | .error .fail => .error .wait
      | .error e => .error e
  else if depa % 8 ≠ 0 then .error .fail
  else
    match s.queueReach q depa 8 false with
    | .error e => .error e
    | .ok l =>
      match l.findSome? (fun p => s.partPoison p) with
      | some e => .error e
      | none => .ok (l.flatMap (fun p => locsFrom p.loc p.len))

/-- A step of a slot's launch goes on, waits, asks the host for a page, or fails with status 3. -/
def State.orFail (s : State) (h : Nat) (e : EngStop) : State := s.orElse h 0 e (s.closeLaunch h 3 0)

/-- CD0's base camp core reads the 64-byte sector of a counter of another device (R307, R325, R327); a device that it cannot
reach fails the launch (log entry 100), and so does an address that is not a multiple of eight (log entry 130). -/
def State.askCounter (s : State) (h depa : Nat) : State :=
  let owner := fld depa 50 10
  if depa % 8 ≠ 0 then s.closeLaunch h 3 0
  else if s.reachable owner then
    let tag := s.serial
    let r : FabReq := { src := s.devid, who := 1088, tag := tag, cls := 0, op := 0, addr := fld depa 0 50 / 64 * 64, len := 64
                        aop := 0, fmt := 11, data := 0, cmp := 0, poison := false, dxp := true }
    (({ s with serial := tag + 1 } : State).onGang h (fun g => { g with depTag := some tag, depGot := none })).transmit owner r
  else (s.closeLaunch h 3 0).countStat 0 0 16

/-- The slot evaluates its launch's dependence (R307): a counter of this device where it lies, at this and at every later write
that performs on it; one of another device by reads, each sent when the one before has brought too low a value. -/
def State.evalDep (s : State) (h q : Nat) (g : Gang) : State :=
  let l := g.launch
  let met (s : State) : State := s.onGang h (fun g => { g with depMet := true })
  if l.depa = 0 then met s
  else if addrKind l.depa = 4 ∧ fld l.depa 50 10 ≠ s.devid then
    match g.depTag, g.depGot with
    | some _, _ => s
    | none, some (0, v) => if l.dept ≤ fld v (8 * (l.depa % 64)) 64 then met s else s.askCounter h l.depa
    | none, some _ => s.closeLaunch h 3 0
    | none, none => s.askCounter h l.depa
  else
    match s.counterLocs q l.depa with
    | .error e => s.orFail h e
    | .ok locs =>
      if l.dept ≤ ofBytes (locs.map s.byte) then met s else s.onGang h (fun g => { g with depLocs := locs })

/-- The slot waits for its launch's dependence; once it is met and the descriptor is good, it places the gang (R306, R307). -/
def State.depStep (s : State) (h q : Nat) (g : Gang) : State :=
  if !g.depMet then s.evalDep h q g
  else
    match s.readDesc q g.launch.kdesc with
    | .error e => s.orFail h e
    | .ok d =>
      match s.protectAll q d.prots with
      | .error e => s.orFail h e
      | .ok _ => s.onGang h (fun g => { g with desc := d, phase := .placing })

/-- DEPENDENCE_MET, R307, R306. -/
def execDependenceMet (slot : Nat) (s : State) : Host.Outcome State Fault Refusal :=
  match (s.slot slot).queue, s.gangAt slot with
  | some q, some g => happens (g.phase == .waiting) s (s.depStep slot q g)
  | _, _ => .next s

/-! ## Placement (R45, R316, R317) -/

/-- The sets of dies that a gang of 1, 2 or 4 dies tries, in order. -/
def dieSets (n : Nat) : List (List Nat) :=
  match n with
  | 1 => [[0], [1], [2], [3]]
  | 2 => [[0, 1], [2, 3], [0, 2], [1, 3], [0, 3], [1, 2]]
  | _ => [[0, 1, 2, 3]]

/-- The candidates of a gang's shape, in order (R316). -/
def candidates (dies ropes : Nat) : List (List Nat) :=
  (dieSets dies).flatMap (fun ds => (List.range (8 / ropes)).map (fun i =>
    ds.flatMap (fun d => (List.range ropes).map (fun j => 8 * d + i * ropes + j))))

/-- The gang has taken its share of the engines' entries. -/
def Gang.takesShare (g : Gang) : Bool := !g.ropes.isEmpty && g.phase != .backoff && g.phase != .placing

/-- Entries of each engine of a die that gangs other than a slot's have taken (R279). -/
def State.sharesOn (s : State) (h d : Nat) : Nat :=
  s.slots.foldl (fun n e => match e.2.gang with
    | none => n
    | some g => if e.1 ≠ h ∧ g.takesShare ∧ g.ropes.any (fun r => r / 8 = d) then n + g.desc.hshare else n) 0

/-- The candidate is not skipped: its ropes are Free and its dies' engines have the share free (R316). -/
def State.fits (s : State) (h share : Nat) (l : List Nat) : Bool :=
  l.all (fun r => (s.rope r).res == .free) && (l.map (· / 8)).all (fun d => decide (s.sharesOn h d + share ≤ 256))

/-- The candidate to which a slot sends RESERVE: a saved gang takes exactly its ropes (R315, R316). -/
def State.placement (s : State) (h : Nat) (g : Gang) : Option (List Nat) :=
  (if g.saved.isSome then [g.ropes] else candidates g.desc.gdies g.desc.gropes).find? (s.fits h g.desc.hshare)

/-- The back-off of a slot's attempt `a` (R317). -/
def backoff (slot a : Nat) : Nat :=
  let w := 256 * 2 ^ min a 10
  w + (slot * 97 + a) % 64 * w / 64

/-- A rope is asked for: it grants if it is Free, and otherwise the slot backs off (R45, R317). -/
def State.ask (s : State) (h q r : Nat) (g : Gang) : State :=
  if (s.rope r).res = .free then
    let s := (s.onRope r (fun y => { y with res := .held h })).onGang h (fun _ => { g with granted := g.granted ++ [r] })
    if g.granted.length + 1 = g.ropes.length then
      s.onGang h (fun g => { g with phase := .loading, pdl := (s.queue q).pdlv })
    else s
  else
    let a := (s.slot h).attempt
    (s.onGang h (fun _ => { g with phase := .backoff, retryAt := s.cyc.toNat + backoff h a })).onSlot h (fun x =>
      { x with attempt := a + 1 })

/-- The gang as its slot sends RESERVE: the first candidate is chosen while none is under way (R316). -/
def State.chosen (s : State) (h : Nat) (g : Gang) : Gang :=
  if g.phase = .placing then
    match s.placement h g with
    | some l => { g with phase := .reserving, ropes := l, granted := [], ready := [] }
    | none => g
  else g

/-- RESERVE, R45, R316. -/
def execReserve (slot rope : Nat) (s : State) : Host.Outcome State Fault Refusal :=
  match (s.slot slot).queue, s.gangAt slot with
  | some q, some g =>
    let g := s.chosen slot g
    happens (g.phase == .reserving && g.ropes.contains rope && !g.granted.contains rope) s (s.ask slot q rope g)
  | _, _ => .next s

/-- A rope takes a kernel: its streams load, and its cores' scratchpads and tags are cleared (R45, R50, R51). -/
def State.takeRope (s : State) (h r : Nat) (g : Gang) : State :=
  let used := [0, 1, 2, 3].filter g.uses
  let s := s.onRope r (fun y =>
    { y with res := .busy h, ready := false, mopr := [], reloads := [], stopped := false
             streams := used.map (fun c => (c, ({ st := if g.saved.isSome then .frozen else .loading } : Stream))) })
  [0, 1, 2, 3, 4, 5, 6, 7].foldl (fun s p =>
    let c := 8 * r + p
    let s := (s.clearRange (spmLoc c 0) (2 ^ 23)).setCore c { split := g.desc.split }
    { s with full := s.full.filter (fun w => w * 8 < spmLoc c 0 || spmLoc (c + 1) 0 ≤ w * 8) }) s

/-- The two ranges of the bank-0 image that hold the firmware's handler: offset and bytes (R72). -/
def handlerRanges : List (Nat × Nat) := [(0x2E800, 0x1800), (0x3F800, 0x800)]

/-- Before COMMIT, the firmware writes its handler into the bank-0 image (R72), part by part: a part without a translation stays
unwritten. -/
def State.writeHandler (s : State) (q img : Nat) : State :=
  (handlerRanges.flatMap (fun r => s.queueParts q (img + r.1) r.2)).foldl (fun s p =>
    match s.queuePart q true p with
    | .error _ => s
    | .ok x => s.writeHome ((locsFrom x.loc x.len).zip ((locsFrom (p.1 - img) p.2).map Config.handlerByte)) (cachedOf [x])) s

/-- COMMIT reaches a rope: the slot's attempts count anew (R317). -/
def State.commitRope (s : State) (h r : Nat) (g : Gang) : State :=
  (s.takeRope h r g).onSlot h (fun x => { x with attempt := 0 })

/-- The slot sends COMMIT, before the first of a launch the firmware's handler being written (R45, R72). -/
def State.sendCommit (s : State) (h q r : Nat) (g : Gang) : State :=
  if g.saved.isSome || g.handled then s.commitRope h r g
  else
    match s.partsStop (s.queuePart q true) g.refused (handlerRanges.flatMap (fun x => s.queueParts q (g.desc.img0 + x.1) x.2)) with
    | some e => s.orElse h 0 e s
    | none => ((s.writeHandler q g.desc.img0).onGang h (fun g => { g with handled := true })).commitRope h r g

/-- COMMIT, R45: it acts on a rope that its slot holds, once every rope of the candidate has granted. -/
def execCommit (slot rope : Nat) (s : State) : Host.Outcome State Fault Refusal :=
  match (s.slot slot).queue, s.gangAt slot with
  | some q, some g =>
    happens (g.phase == .loading && g.ropes.contains rope && (s.rope rope).res == .held slot) s (s.sendCommit slot q rope g)
  | _, _ => .next s

/-- A rope that a slot gives back is Free, and its loaded code is discarded (R45); the last one lets the back-off of R317
begin, or ends a launch whose code failed to load. -/
def State.giveBack (s : State) (h r : Nat) (g : Gang) : State :=
  let s := (s.freeRopes h [r]).onRope r (fun y => { y with copy := [], bad := [] })
  let left := g.granted.filter (· ≠ r)
  let s := s.onGang h (fun g => { g with granted := left })
  if g.phase = .finished ∧ left = [] then s.closeLaunch h 3 0
  else if left = [] then s.onGang h (fun g => { g with retryAt := s.cyc.toNat + backoff h ((s.slot h).attempt - 1) })
  else s

/-- RELEASE, R45. -/
def execRelease (slot rope : Nat) (s : State) : Host.Outcome State Fault Refusal :=
  match s.gangAt slot with
  | none => .next s
  | some g =>
    happens ((g.phase == .backoff || g.phase == .finished) && g.granted.contains rope &&
      ((s.rope rope).res == .held slot || (s.rope rope).res == .busy slot)) s (s.giveBack slot rope g)

/-- PLACEMENT_RETRY, R317: the slot tries again from the first candidate. -/
def execPlacementRetry (slot : Nat) (s : State) : Host.Outcome State Fault Refusal :=
  match s.gangAt slot with
  | none => .next s
  | some g =>
    happens (g.phase == .backoff && g.granted.isEmpty && decide (g.retryAt ≤ s.cyc.toNat)) s
      (s.onGang slot (fun g => { g with phase := .placing }))

/-! ## What a gang's dies are told (R332) -/

/-- The dies of a gang but the dispatcher's, which is taken to be CD0 (log entry 59). -/
def Gang.farDies (g : Gang) : List Nat := (g.ropes.map (· / 8)).dedup.filter (· ≠ 0)

/-- A multicast of the gang in a slot waits at the dispatcher's fan-out point. -/
def State.tells (s : State) (what : Note) : Bool := s.fab.mcast.any (fun m => m.what == what)

/-! ## Loading (R45, R71) -/

/-- A rope has loaded both banks: READY, or FAIL where some page or sector could not be read; at a resume what could not
is marked bad (R45, R71). The last READY names the start cycle. -/
def State.loaded (s : State) (h q r : Nat) (g : Gang) : State :=
  let s := ((s.reload r (strandAt r 0 0) 0 g.desc.img0 0 (2 ^ 18)).reload r (strandAt r 0 0) 1 g.desc.img1 0
    (2 ^ 18)).forgetFound (8192 + r)
  if g.saved.isNone && !(s.rope r).bad.isEmpty then
    s.onGang h (fun g => { g with phase := .finished, status := 3 })
  else
    let s := (s.onRope r (fun y => { y with ready := true })).onGang h (fun g => { g with ready := g.ready ++ [r] })
    if g.ready.length + 1 < g.ropes.length then s
    else if g.saved.isSome then s.onGang h (fun g => { g with phase := .resuming })
    else
      match s.protectAll q g.desc.prots with
      | .error _ => s.onGang h (fun g => { g with phase := .finished, status := 3 })
      | .ok t =>
        let t := t.onGang h (fun g => { g with phase := .starting, startAt := s.cyc.toNat + 512 })
        if g.farDies.isEmpty then t else t.multicast 0 g.farDies (.start h)

/-- ROPE_LOAD_DONE, R45. -/
def execRopeLoadDone (rope : Nat) (s : State) : Host.Outcome State Fault Refusal :=
  match s.slotOfRope rope with
  | none => .next s
  | some h =>
    match (s.slot h).queue, s.gangAt h with
    | some q, some g =>
      if g.phase == .loading && g.ropes.contains rope && !(s.rope rope).ready then
        match s.partsStop (s.ropePart rope (strandAt rope 0 0)) g.refused
            (s.queueParts q g.desc.img0 (2 ^ 18) ++ s.queueParts q g.desc.img1 (2 ^ 18)) with
        | some e => .next (s.orElse h 0 e s (rope / 8))
        | none => .next (s.loaded h q rope g)
      else .next s
    | _, _ => .next s

/-! ## The start (R44, R45, R49 to R51) -/

/-- Split an index over the levels of a kind, the innermost varying fastest: level and digit (R44). -/
def splitIndex (loop : List (Nat × Nat)) (kind : Nat) : List Nat → Nat → Table Nat → Table Nat
  | [], _, t => t
  | n :: ns, v, t =>
    match loop[n]? with
    | some (k, trip) => if k = kind then splitIndex loop kind ns (v / trip) (Table.set t n (v % trip))
                        else splitIndex loop kind ns v t
    | none => splitIndex loop kind ns v t

/-- The dies of a gang, in increasing order. -/
def Gang.dies (g : Gang) : List Nat := (g.ropes.map (· / 8)).dedup

/-- The core index of a core in its die (R44). -/
def Gang.coreIndex (g : Gang) (core : Nat) : Nat :=
  8 * ((g.ropes.filter (fun r => r / 8 = core / 64)).idxOf (core / 8)) + core % 8

/-- The index of a core's die among the gang's. -/
def Gang.dieIndex (g : Gang) (core : Nat) : Nat := g.dies.idxOf (core / 64)

/-- The coordinates of a core's strands (R44). -/
def Gang.coords (g : Gang) (core : Nat) : Table Nat :=
  splitIndex g.desc.loop 3 levelsDown (g.dieIndex core) (splitIndex g.desc.loop 2 levelsDown (g.coreIndex core) [])

/-- The core index in the whole gang (R306). -/
def Gang.wholeIndex (g : Gang) (core : Nat) : Nat := g.dieIndex core * (8 * g.desc.gropes) + g.coreIndex core

/-- The entry point of stream `c` (R306): bank and program counter. -/
def Desc.entryOf (d : Desc) (c : Nat) : Nat × Nat :=
  let e := (d.entry[c]?).getD 0
  (e / 2 ^ 15, 2 * (e % 2 ^ 15))

/-- TVEC as the firmware sets it (R72): an index word of the handler's range in bank 0. -/
def handlerVector : Nat := 0xF800 + Config.handlerEntry.toNat / 2 * 2

/-- A strand on its gang's start cycle (R49, R51, R61, R306); its first bundle is its restart point (R39). -/
def Gang.strandStart (g : Gang) (pdl k : Nat) : Strand :=
  let d := g.desc
  let c := ctxOf k
  let e := d.entryOf c
  let base := d.stkb + c * d.stksz
  { st := .attached, a := [(0, w64 g.launch.args)], pc := e.2, bank := e.1, restartPc := e.2, restartBank := e.1
    tvec := handlerVector, srseed := w64 g.launch.seed, pdl := pdl, stkbase := base, stklim := base + d.stksz
    stkspill := (d.spillb + (4 * g.wholeIndex (coreOf k) + c) * d.spillsz) % 2 ^ 64, stkmark := d.stkmark
    img := [(0, d.img0), (1, d.img1)], lix := g.coords (coreOf k) }

/-- The core that holds a token at the gang's start (R265). -/
def Gang.holderCore (g : Gang) (r : TokenRegion) : Nat :=
  8 * (((g.ropes.filter (fun x => x / 8 = r.die))[r.holder / 8]?).getD (8 * r.die)) + r.holder % 8

/-- A rope of the gang starts: the streams that the kernel uses read at their entry points. -/
def State.startRope (s : State) (pdl : Nat) (g : Gang) (r : Nat) : State :=
  let used := [0, 1, 2, 3].filter g.uses
  let s := s.onRope r (fun y => { y with streams := used.map (fun c =>
    (c, ({ st := .streaming, bank := (g.desc.entryOf c).1, pc := (g.desc.entryOf c).2, readAt := s.cycle } : Stream))) })
  [0, 1, 2, 3, 4, 5, 6, 7].foldl (fun s p =>
    let core := 8 * r + p
    let s := s.setCore core { split := g.desc.split, rings := g.desc.ring.mapIdx (fun n v => (n, ringWord v)) }
    [0, 1, 2, 3].foldl (fun s c =>
      s.setStrand (4 * core + c) (if g.uses c then g.strandStart pdl (4 * core + c) else {})) s) s

/-- The counters of an engine for a slot's gang begin at zero (R294). -/
def State.zeroCounts (s : State) (h : Nat) (g : Gang) : State :=
  (g.dies.flatMap (fun d => (List.range 16).map (fun e => 16 * d + e))).foldl (fun s e =>
    s.onEngine e (fun x => { x with late := Table.erase x.late h, flt := Table.erase x.flt h })) s

/-- Give a gang's tokens to their holders (R265). -/
def State.giveTokens (s : State) (g : Gang) : State :=
  { s with
    tokens := g.desc.regions.foldl (fun t r => Table.set t (1024 * r.die + r.tok) (g.holderCore r)) s.tokens
    transit := s.transit.filter (fun e => !g.desc.regions.any (fun r => 1024 * r.die + r.tok = e.token)) }

/-- The gang starts (R45, R49 to R51). -/
def State.startGang (s : State) (h q : Nat) (g : Gang) : State :=
  let s := g.ropes.foldl (fun s r => s.startRope g.pdl g r) s
  let bits := g.ropes.foldl (fun n r => n ||| 2 ^ r) 0
  (((s.giveTokens g).zeroCounts h g).onQueue q (fun c => { c with prog := 0, plast := 0, ropes := bits })).onGang h (fun g =>
    { g with phase := .running, checkedAt := s.cyc.toNat })

/-- The gang starts on its start cycle, of which every rope has been told (R45, R332). -/
def State.starts (s : State) (h : Nat) (g : Gang) : Bool :=
  g.phase == .starting && decide (g.startAt ≤ s.cyc.toNat) && !s.tells (.start h)

/-- GANG_START, R45, R49, R50, R51, R44. -/
def execGangStart (slot : Nat) (s : State) : Host.Outcome State Fault Refusal :=
  match (s.slot slot).queue, s.gangAt slot with
  | some q, some g => happens (s.starts slot g) s (s.startGang slot q g)
  | _, _ => .next s

/-! ## The end of a gang (R45, R308) -/

/-- Nothing of a rope runs any more: its strands are Exited or Idle, and its cores' and engines' queues hold no command
of theirs (R45). -/
def State.ropeDone (s : State) (r : Nat) : Bool :=
  (List.range 32).all (fun i =>
    let x := s.strand (32 * r + i)
    (x.st == .exited || x.st == .idle) && x.inflight.isEmpty) &&
  [0, 1, 2, 3, 4, 5, 6, 7].all (fun p =>
    let c := s.core (8 * r + p)
    c.mxRun.isEmpty && c.mxq.all (fun q => q.2.isEmpty)) &&
  s.engines.all (fun e => (e.2.buf ++ e.2.run).all (fun h => ropeOf h.strand != r))

/-- A rope's part of the gang is done: its cores' Dirty sectors go home, its strands are Idle, and it is Free. -/
def State.endRope (s : State) (h r : Nat) : State :=
  let s := [0, 1, 2, 3, 4, 5, 6, 7].foldl (fun s p => s.dropL1 (8 * r + p)) s
  let s := (List.range 32).foldl (fun s i => s.onStrand (32 * r + i) (fun x =>
    { x with st := if x.st = .exited then .idle else x.st })) s
  let s := match (s.slot h).queue with
    | some q => s.onQueue q (fun c => { c with ropes := setFld c.ropes r 1 0 })
    | none => s
  (s.freeRopes h [r]).onGang h (fun g =>
    { g with ready := g.ready.filter (· ≠ r), ropes := g.ropes.filter (· ≠ r) })

/-- ROPE_PART_DONE, R45. -/
def execRopePartDone (rope : Nat) (s : State) : Host.Outcome State Fault Refusal :=
  match s.slotOfRope rope with
  | none => .next s
  | some h =>
    match s.gangAt h with
    | none => .next s
    | some g => happens ((g.phase == .running || g.phase == .freezing) && s.ropeDone rope) s (s.endRope h rope)

/-- Steps 1 and 2 of a completion: the gang's stores perform at the release's scope, and DONEI is added (R308). An address of another
kind, or one whose eight bytes are of two pages, gets no add (log entry 131). -/
def State.addDonei (s : State) (h q : Nat) (g : Gang) : State :=
  let l := g.launch
  let close (s : State) : State := s.closeLaunch h g.status g.code
  if l.donea = 0 then close s
  else if addrKind l.donea = 4 then
    let owner := fld l.donea 50 10
    let s := s.cleanAllL2
    if g.doneSent then close s
    else if s.reachable owner then
      let tag := s.serial
      let r : FabReq := { src := s.devid, who := 1088, tag := tag, cls := 0, op := 2, addr := fld l.donea 0 50, len := 8
                          aop := 0, fmt := 11, data := l.donei, cmp := 0, poison := false, dxp := true }
      (({ s with serial := tag + 1 } : State).onGang h (fun g =>
        { g with doneSent := true, doneTag := some tag })).transmit owner r
    else close (s.countStat 0 0 16)
  else
    match s.queueReach q l.donea 8 true with
    | .error e => s.orElse h 0 e (close s)
    | .ok ps =>
      match ps with
      | [p] => close (s.writeHome ((locsFrom p.loc 8).zip (toBytes 8 ((s.num p.loc 8 + l.donei) % 2 ^ 64))) (cachedOf [p]))
      | _ => close s

/-- Everything of a gang has ended (R308). -/
def State.gangDone (s : State) (h : Nat) (g : Gang) : Bool :=
  (g.phase == .running || g.phase == .freezing) && g.ready.isEmpty && g.doneTag.isNone &&
  s.engines.all (fun e => (e.2.buf ++ e.2.run).all (fun c => c.slot != h))

/-- GANG_COMPLETE, R308, R320, R323. -/
def execGangComplete (slot : Nat) (s : State) : Host.Outcome State Fault Refusal :=
  match (s.slot slot).queue, s.gangAt slot with
  | some q, some g => happens (s.gangDone slot g) s (s.addDonei slot q g)
  | _, _ => .next s

/-! ## Killing a context (R290, R381, R382) -/

/-- A strand of a killed context: Exited, and Idle as its rope is Free (R49, R381). -/
def Strand.killed (x : Strand) : Strand :=
  { x with st := .idle, wasAttached := false, wait := none, queue := [], port := none, freezing := false, met := none, found := [],
           expect := [], outcome := none, inflight := [],
           gate := [], shadows := [], ports := [], reports := [], trapping := none, rolling := false, fw := none,
           pri := none, belay := none, registering := none, decided := none, fences := [], replayBuf := [],
           mxBad := none, reloadWait := [], replayHold := false, frozenAt := none, resumed := false, stack := [],
           sizes := [], depth := 0, resident := 0 }

/-- What a killed gang held in its cores: queues, tickets and commands (R381). -/
def Core.killed (c : Core) : Core := { c with cq := [], inq := [], tickets := [], mxq := [], mxRun := [], l1 := [], l1Dirty := [], lines := [], tlb := [], tileTable := [] }

/-- The gang of a slot that has not ended. -/
def State.liveGang (s : State) (h : Nat) : Option Gang := (s.gangAt h).filter (fun g => g.phase != .closing)

/-- KILLING A CONTEXT (R381): everything of it stops, the stores that have performed stand, so Dirty sectors go home first
(R2), its pitch is handled, its ropes are Free, and its launch completes with a status and a code. A second kill finds no gang
(R382). -/
def State.killGang (s : State) (h status code : Nat) : State :=
  match (s.slot h).queue, s.liveGang h with
  | some q, some g =>
    let s := if g.saved.isSome then s else
      let s := g.strands.foldl (fun s k => if s.slotOfRope (ropeOf k) = some h then s.onStrand k Strand.killed else s) s
      g.cores.foldl (fun s c => if s.slotOfRope (c / 8) = some h then (s.cleanCore c).onCore c Core.killed else s) s
    let s : State := { s with engines := s.engines.map (fun e => (e.1, { e.2 with
      buf := e.2.buf.filter (fun c => c.slot ≠ h), run := e.2.run.filter (fun c => c.slot ≠ h) })) }
    let mine (i : Nat) : Bool := g.desc.regions.any (fun r => 1024 * r.die + r.tok = i)
    let s : State := { s with tokens := s.tokens.filter (fun e => !mine e.1), transit := s.transit.filter (fun e => !mine e.token) }
    (((s.freeRopes h g.ropes).onQueue q (fun c => { c with ropes := 0 })).killPitch q).closeLaunch h status code
  | _, _ => s

/-- Write a fault record and its event (R384, R385). -/
def State.faultRecord (s : State) (kind qnum core strand tfm tba tcause tinfo seq detail : Nat) : State :=
  if s.host.flogSize = 0 then s
  else
    let n := s.host.flogSeq + 1
    let l := hostLoc (s.host.flogBase + 64 * (n % s.host.flogSize))
    let bytes := toBytes 8 n ++ toBytes 2 kind ++ toBytes 2 qnum ++ toBytes 2 core ++ toBytes 1 strand ++ toBytes 1 tfm ++
      toBytes 8 tba ++ toBytes 6 tcause ++ toBytes 2 0 ++ toBytes 8 tinfo ++ toBytes 8 s.cyc.toNat ++ toBytes 8 seq ++
      toBytes 8 detail
    (({ s with host := { s.host with flogSeq := n } } : State).setBytes ((locsFrom l 64).zip bytes)).postEvent 2 qnum n

/-- Kill the context of a slot with a fault record that names no strand (R380, R383, R367). -/
def State.killSlot (s : State) (h kind status code detail : Nat) : State :=
  match (s.slot h).queue, s.liveGang h with
  | some q, some g => (s.faultRecord kind q 0xFFFF 0xFF 0 0 0 0 g.launch.seq detail).killGang h status code
  | _, _ => s

/-- Kill the context of strand `k` with a record of how it was trapped (R374, R385). -/
def State.killStrand (s : State) (k kind code tba tfm tcause tinfo detail : Nat) : State :=
  match s.slotOfRope (ropeOf k) with
  | none => s.onStrand k Strand.killed
  | some h =>
    match (s.slot h).queue, s.gangAt h with
    | some q, some g =>
      (s.faultRecord kind q (coreOf k) (ctxOf k) tfm tba tcause tinfo g.launch.seq detail).killGang h 4 code
    | _, _ => s.onStrand k Strand.killed

/-! ## Pre-emption and freezing (R46, R47) -/

/-- Cycle Y: YREQ is set for every strand of the gang (R46, R66). -/
def State.takeYreq (s : State) (h : Nat) : State :=
  match s.gangAt h with
  | none => s
  | some g =>
    if g.phase = .running ∧ g.yAt = none then
      (g.strands.foldl (fun s k => if g.uses (ctxOf k) then s.onStrand k (fun x => { x with yreq := true }) else s) s).onGang h
        (fun g => { g with yAt := some s.cyc.toNat, forcedAt := none })
    else s

/-- The gang is being evicted or has yielded, and no request has been made yet (R46, R189, R315). -/
def State.wantsYreq (s : State) (h : Nat) (g : Gang) : Bool :=
  g.phase == .running && g.yAt.isNone && ((s.slot h).evicting || g.byYield) && !s.tells (.yreq h)

/-- PREEMPT_REQUEST, R46, R66, R315: YREQ is set for every strand of a gang that is being evicted or has yielded, on the
cycle on which its other dies receive the multicast; a second request has no effect. -/
def execPreemptRequest (slot : Nat) (s : State) : Host.Outcome State Fault Refusal :=
  match (s.slot slot).queue, s.gangAt slot with
  | some _, some g =>
    happens (s.wantsYreq slot g) s
      (if g.farDies.isEmpty then s.takeYreq slot else s.multicast 0 g.farDies (.yreq slot))
  | _, _ => .next s

/-- A strand has come to the point at which a forced freeze stops it: its queue is empty, it waits at a JOIN, its next
bundle blocks, it has been stopped, or its next bundle is a YPOINT that could issue (R47). -/
def Strand.atFreeze (x : Strand) (now : Nat) : Bool :=
  (x.st == .joining || x.st == .waiting || x.freezing || ((x.st == .attached || x.st == .detached) && (match x.queue with
    | [] => true
    | f :: _ => f.what.isYpoint && decide (f.at_ ≤ now) && decide (x.ready ≤ now) &&
      decide (x.lastIssue + f.what.dly ≤ now)))) &&
  x.trapping.isNone && !x.rolling && !x.doomed

/-- Cycle F of a strand that a forced freeze stops now (R47). -/
def Strand.freezeCycle (x : Strand) (deadline now : Nat) : Nat :=
  if x.queue.isEmpty || x.st == .waiting || x.freezing then max deadline x.lastIssue else now

/-- A strand is frozen by force: its results that land from cycle F on go to the replay buffer (R47). -/
def State.forceStrand (s : State) (k deadline : Nat) : State :=
  let at_ := (s.strand k).freezeCycle deadline s.cycle
  (s.freezeStrand k).onStrand k (fun x =>
    { x with frozenAt := some at_, frozenCyc := s.cycIn (at_ - s.cycle), pri := none })

/-- The gang's rope heads stop reading, and every strand that has come to its point freezes (R47). -/
def State.forceGang (s : State) (h deadline : Nat) (g : Gang) : State :=
  let s := (g.ropes.foldl (fun s r => s.onRope r (fun y => { y with stopped := true })) s).onGang h (fun g =>
    { g with phase := .freezing, forcedAt := some deadline })
  g.strands.foldl (fun s k => if (s.strand k).atFreeze s.cycle then s.forceStrand k deadline else s) s

/-- The gang was not saved by Y + PDL in CYC (R7, R47): the cycle on which that deadline came. -/
def State.overdue (s : State) (g : Gang) : Option Nat :=
  if g.phase = .running ∨ g.phase = .freezing then
    g.yAt.bind (fun y => if y + g.pdl ≤ s.cyc.toNat then some (g.forcedAt.getD s.cycle) else none)
  else none

/-- The freeze has reached every die of the gang (R47). -/
def State.takeFreeze (s : State) (h : Nat) : State :=
  match s.gangAt h with
  | none => s
  | some g =>
    match s.overdue g with
    | none => s
    | some d => s.forceGang h d g

/-- FORCED_FREEZE, R47, R41: the first is told to the gang's other dies by a multicast (R332), and the strands freeze as they
come to their points. -/
def execForcedFreeze (slot : Nat) (s : State) : Host.Outcome State Fault Refusal :=
  match s.gangAt slot with
  | none => .next s
  | some g =>
    match s.overdue g with
    | none => .next s
    | some d =>
      .next (if g.phase = .freezing ∨ g.farDies.isEmpty then s.forceGang slot d g
        else if s.tells (.freeze slot) then s
        else (s.onGang slot (fun g => { g with forcedAt := some d })).multicast 0 g.farDies (.freeze slot))

/-! ## Saving (R46, R47, R51, R54, R239, R290, R315, R412) -/

/-- The strand is still, and what it has in flight has landed, is ticketed, or waits for a rendezvous. -/
def Strand.still (x : Strand) : Bool :=
  (x.st == .frozen || x.st == .exited || x.st == .idle) && x.belay.isNone &&
  x.inflight.all (fun e => e.ticketed || e.landed || (e.source == .mx && e.value.isNone))

/-- No command of a core runs or can start: what is queued waits for a rendezvous. -/
def State.mxStill (s : State) (c : Nat) : Bool :=
  (s.core c).mxRun.isEmpty && [0, 1, 2, 3].all (fun p => (s.mxReady c p).isNone)

/-- The gang can be saved (R46, R47, R290). -/
def State.saveReady (s : State) (h : Nat) (g : Gang) : Bool :=
  (g.phase == .running || g.phase == .freezing) && g.yAt.isSome &&
  g.strands.all (fun k => (s.strand k).still && (s.strand k).ports.all (fun p =>
    p.2.canDrain.isNone || (s.streamLoc k p.2).isSome)) && g.cores.all s.mxStill &&
  g.ropes.all (fun r => [0, 1, 2, 3].all (fun c => !s.rendezvousReady r c)) &&
  s.engines.all (fun e => e.2.run.all (fun c => c.slot != h) &&
    e.2.buf.all (fun c => c.slot != h || decide (s.cyc.toNat < c.t))) &&
  g.strands.any (fun k => (s.strand k).st == .frozen)

/-- The write-bound port `q` of a strand performs what it holds (R54). -/
def State.emptyPort (s : State) (k q : Nat) : Nat → State
  | 0 => s
  | n + 1 =>
    match Table.find (s.strand k).ports q with
    | none => s
    | some p =>
      match p.canDrain, s.streamLoc k p with
      | some v, some loc => (s.drainPort k q p v loc).emptyPort k q n
      | _, _ => s

/-- The replay-buffer entry of a result that landed after the freeze (R47). -/
def InFlight.entry (f : Nat) (e : InFlight) : ReplayEntry :=
  let d : Int := (e.lands.getD f : Nat) - (f : Int) + 1
  { dest := e.dest, value := e.value.getD 0, d := d, e := if e.late then (e.due : Int) - f + 1 else d }

/-- A strand as it is saved: its gate has been released, its replay buffer is made in the order of issue, and read-bound
ports keep no buffer (R41, R47, R54). -/
def Strand.atSave (x : Strand) : Strand :=
  let port (p : StreamPort) : StreamPort := if p.write then p else { p with buf := [], moved := p.used }
  { x with
    outcome := none, shadows := [], ports := x.ports.map (fun p => (p.1, port p.2))
    replayBuf := (x.inflight.filter (fun e => e.landed && x.frozenAt.isSome)).map (InFlight.entry (x.frozenAt.getD 0))
    inflight := x.inflight.filter (fun e => !e.landed) }

/-- Prepare a strand for the save. -/
def State.readyToSave (s : State) (k : Nat) : State :=
  let s := (s.strand k).ports.foldl (fun s p => s.emptyPort k p.1 8) s
  (s.releaseGate k).onStrand k Strand.atSave

/-- The stream as it is saved: one that pauses at a YPOINT at which its strands froze by choice reads its successor
(R48). -/
def State.streamSaved (s : State) (r c : Nat) : Stream :=
  let t := s.stream r c
  let t := { t with lits := 0, bits := 0, bad := none }
  if t.yielding then { t.advance (s.succOf r t.bank t.pc) with yielding := false } else t

/-- CYC on a strand's freeze cycle; for a strand that has ended, on that of the save (R290). -/
def State.frozenCyc (s : State) (k : Nat) : Nat :=
  if (s.strand k).st = .frozen then (s.strand k).frozenCyc else s.cyc.toNat

/-- What is saved with a gang (R47, R51, R68, R239, R265, R290, R294, R412). -/
def State.savedOf (s : State) (h : Nat) (g : Gang) : Saved :=
  let mine (i : Nat) : Bool := g.desc.regions.any (fun r => 1024 * r.die + r.tok = i)
  let inSpm (l : Nat) : Bool := g.cores.any (fun c => decide (spmLoc c 0 ≤ l) && decide (l < spmLoc c 0 + 2 ^ 23))
  { strands := g.strands.map (fun k => (k, s.strand k))
    cores := g.cores.map (fun c => (c, { (s.core c).mapTickets (fun t => t.pause s.cyc.toNat) with
                                l1 := [], l1Dirty := [], lines := [], tlb := [], tileTable := [] }))
    streams := g.ropes.flatMap (fun r => [0, 1, 2, 3].map (fun c => (4 * r + c, s.streamSaved r c)))
    mopr := g.ropes.flatMap (fun r => [0, 1, 2, 3].map (fun c => (4 * r + c, Table.get (s.rope r).mopr [] c)))
    spm := s.mem.filter (fun e => inSpm e.1)
    full := s.full.filter (fun w => inSpm (8 * w))
    hauls := s.engines.flatMap (fun e => (e.2.buf.filter (fun c => c.slot = h)).map (fun c =>
      (e.1, { c with t := c.t - s.frozenCyc c.strand })))
    counts := s.engines.map (fun e => (e.1, Table.get e.2.late 0 h, Table.get e.2.flt 0 h))
    tokens := (s.tokens ++ s.transit.map (fun e => (e.token, e.dest))).filter (fun e => mine e.1) }

/-- What has been saved leaves the machine. -/
def State.clearSaved (s : State) (h : Nat) (g : Gang) : State :=
  let mine (i : Nat) : Bool := g.desc.regions.any (fun r => 1024 * r.die + r.tok = i)
  let s := g.strands.foldl (fun s k => s.setStrand k {}) s
  let s := g.cores.foldl (fun s c => s.setCore c {}) s
  let s := g.ropes.foldl (fun s r => s.onRope r (fun y =>
    { y with ready := false, streams := y.streams.map (fun t => (t.1, { st := .frozen })), mopr := [], reloads := [] })) s
  { s with
    tokens := s.tokens.filter (fun e => !mine e.1), transit := s.transit.filter (fun e => !mine e.token)
    engines := s.engines.map (fun e => (e.1, { e.2 with
      buf := e.2.buf.filter (fun c => c.slot ≠ h), late := Table.erase e.2.late h, flt := Table.erase e.2.flt h })) }

/-- The CYC cycles for which the gang has run since the latest watchdog comparison, up to its freeze (R318). -/
def State.runTime (s : State) (g : Gang) : Nat :=
  g.strands.foldl (fun n k => if (s.strand k).st = .frozen then max n ((s.strand k).frozenCyc - g.checkedAt) else n) 0

/-- A gang is saved (R315): an evicted queue loses its slot; a queue whose gang yielded keeps it until the firmware has
decided. -/
def State.saveGang (s : State) (h q : Nat) (g : Gang) : State :=
  let s := g.strands.foldl State.readyToSave s
  let s := g.cores.foldl State.dropL1 s
  let v := s.savedOf h g
  let ran := s.runTime g
  let s := (s.clearSaved h g).onQueue q (fun c =>
    { c with froz := true, ropes := g.ropes.foldl (fun n r => n ||| 2 ^ r) 0 })
  let s := s.onGang h (fun g => { g with
    phase := .saved, saved := some v, yAt := none, byYield := false, stalled := false, granted := g.ropes, ready := []
    checkedAt := ran })
  if (s.slot h).evicting then s.unmap h else s.wake

/-- The gang's state is written to SAVEA, in a form and a length that are the firmware's (R315; log entry 72), and the gang is
saved; a page of the area that is on the move, asleep, or not yet given by the host lets the save wait. -/
def State.saveTo (s : State) (h q : Nat) (g : Gang) : State :=
  let image := (List.range Config.saveSize).map (Config.freeByte s.freeCount)
  if g.lostArea then s.saveGang h q g
  else
    match ({ s with freeCount := s.freeCount + 1 } : State).queuePut q (s.queue q).savea image with
    | .ok t => t.saveGang h q g
    | .error e => s.orElse h 2 e (s.saveGang h q g)

/-- GANG_SAVE, R46, R315. -/
def execGangSave (slot : Nat) (s : State) : Host.Outcome State Fault Refusal :=
  match (s.slot slot).queue, s.gangAt slot with
  | some q, some g => happens (s.saveReady slot g) s (s.saveTo slot q g)
  | _, _ => .next s

/-! ## Resuming (R48, R50, R71, R290) -/

/-- The strand resumes attached (R48): a stream that has delivered a JOIN has no next read before the join completes
(R33). -/
def Strand.rejoins (x : Strand) (t : Stream) : Bool :=
  x.wasAttached && x.pc == t.pc && x.bank == t.bank && t.st != .resolving && t.st != .pausing && t.st != .joining

/-- The strand waited at its stream's pending join. -/
def Stream.waitsFor (t : Stream) (p : Nat) : Bool :=
  match t.join with
  | none => false
  | some j => j.arrived.contains p

/-- A strand as it resumes (R48, R66): its first bundle is its restart point (R41). -/
def Strand.resume (x : Strand) (k pdl : Nat) (t : Stream) : Strand :=
  if x.st = .frozen then
    let y : Strand := { x with
      found := []
      st := if t.waitsFor (posOf k) then .joining else if x.rejoins t then .attached else .detached
      wasAttached := t.waitsFor (posOf k) && x.wasAttached
      wait := if t.waitsFor (posOf k) then some .join else none
      yreq := false, pdl := pdl, tried := none, since := none, moved := none, ready := 0, lastIssue := 0, resumed := true }
    y.restartAt x.pc x.bank x.lastX
  else { x with yreq := false, pdl := pdl }

/-- A stream as it resumes (R50). -/
def Stream.resume (t : Stream) (now : Nat) (attached allDone : Bool) : Stream :=
  let t : Stream := { t with readAt := now }
  if allDone then { t with st := .idle }
  else if attached then { t with st := .streaming } else { t with st := .parked }

/-- The streams of a rope of a gang, restored. -/
def State.restoreStreams (s : State) (v : Saved) (g : Gang) (r : Nat) : State :=
  let one (c : Nat) : Nat × Stream :=
    let t := Table.get v.streams {} (4 * r + c)
    let xs := [0, 1, 2, 3, 4, 5, 6, 7].map (fun p => Table.get v.strands {} (strandAt r c p))
    (c, t.resume s.cycle (xs.any (fun x => x.st == .frozen && x.rejoins t))
      (xs.all (fun x => x.st == .exited || x.st == .idle)))
  s.onRope r (fun y => { y with
    streams := ([0, 1, 2, 3].filter g.uses).map one, stopped := false
    mopr := [0, 1, 2, 3].map (fun c => (c, Table.get v.mopr [] (4 * r + c))) })

/-- A haul command is re-entered: its time counts from its strand's first bundle, or from now if the strand has ended
(R290). -/
def State.reenterHaul (s : State) (h : Nat) (e : Nat × Haul) : State :=
  let live := (s.strand e.2.strand).resumed
  let c : Haul :=
    { e.2 with eng := e.1, t := s.cyc.toNat + e.2.t, slot := h, resumedAt := if live then some s.cyc.toNat else none }
  s.onEngine e.1 (fun x => { x with buf := enterHaul c x.buf })

/-- A saved gang goes on (R48). -/
def State.resumeGang (s : State) (h q : Nat) (g : Gang) (v : Saved) : State :=
  let pdl := (s.queue q).pdlv
  let s := v.strands.foldl (fun s e => s.setStrand e.1
    (e.2.resume e.1 pdl (Table.get v.streams {} (4 * ropeOf e.1 + ctxOf e.1)))) s
  let s := v.cores.foldl (fun s e => s.setCore e.1 e.2) s
  let s := g.cores.foldl (fun s c => s.clearRange (spmLoc c 0) (2 ^ 23)) s
  let s := (s.setBytes (v.spm.map (fun c => (c.1, c.2))))
  let s := g.ropes.foldl (fun s r => s.restoreStreams v g r) s
  let s : State := { s with
    full := s.full.filter (fun w => !v.full.contains w) ++ v.full
    tokens := v.tokens.foldl (fun t e => Table.set t e.1 e.2) s.tokens
    engines := s.engines.map (fun e =>
      match v.counts.find? (fun c => c.1 = e.1) with
      | none => e
      | some c => (e.1, { e.2 with late := Table.set e.2.late h c.2.1, flt := Table.set e.2.flt h c.2.2 })) }
  let s := g.ropes.foldl (fun s r => [0, 1, 2, 3].foldl (fun s c => s.abandonLeft r c) s) s
  ((v.hauls.foldl (fun s e => s.reenterHaul h e) s).onQueue q (fun c => { c with froz := false })).onGang h (fun g =>
    { g with phase := .running, saved := none, pdl := pdl, ready := g.ropes, checkedAt := s.cyc.toNat - g.checkedAt })

/-- GANG_RESUME, R48, R50, R71, R412. -/
def execGangResume (slot : Nat) (s : State) : Host.Outcome State Fault Refusal :=
  match (s.slot slot).queue, s.gangAt slot with
  | some q, some g =>
    match g.saved with
    | none => .next s
    | some v => happens (g.phase == .resuming) s (s.resumeGang slot q g v)
  | _, _ => .next s

end Sys2Proof.Machine
end

