-- ==== Sys2Proof/Machine/Links.lean ====
section
/-! DEFINITION. The die-to-die links: lane groups, the routing table and multicasts (R332, R333, R431), and the stop of the
device (R383). -/

namespace Sys2Proof.Machine

/-! ## The stop of the device (R367, R383, R431) -/

/-- The device stops: every gang is killed with status 4, a fault record of a kind is written, vector 1 is signalled, and
the stations go down (R383). -/
def State.stopDevice (s : State) (kind code detail : Nat) : State :=
  if s.plat.stopped then { s with plat := { s.plat with crit := s.plat.crit || kind == 6 } }
  else
    let s := (List.range 64).foldl (fun s h => s.killGang h 4 code) s
    let s := (s.faultRecord kind 0xFFFF 0xFFFF 0xFF 0 0 0 0 0 detail).msix 1
    { s with
      plat := { s.plat with stopped := true, crit := s.plat.crit || kind == 6 }
      fab := { s.fab with
        stations := (List.range 24).map (fun i => (i, { s.station i with down := true, training := none })) } }

/-! ## Lane groups (R431) -/

/-- A transfer of a class that an access of the device has requested over a link has not been made: an operand of a queued
command on an mx path, whose accesses are of class 0 (R231, R333). The other accesses of the model are made in one step. -/
def State.routeOpen (s : State) (link cls : Nat) : Bool :=
  let crosses (d l : Nat) : Bool := d != homeDie l && linkOf d (homeDie l) == link
  cls == 0 && s.cores.any (fun c => (c.2.mxq.flatMap (·.2) ++ c.2.mxRun.map (·.2)).any (fun m =>
    m.mem.any (fun l => l.any (fun p => crosses (c.1 / 64) p.loc))))

/-- The lane groups of a link that carry no traffic, a bit each, as they stand. -/
def State.lanesOut (s : State) (link : Nat) : Nat :=
  (s.fab.lanes.filter (fun e => e.1 / 256 == link)).foldl (fun v e => setFld v (e.1 % 256) 1 (if e.2.down then 1 else 0)) 0

/-- The links whose lane groups the routing table in use does not give as they stand, in some direction. -/
def State.routesOff (s : State) : List Nat :=
  (List.range 6).filter (fun l => [0, 1].any (fun d => Table.get s.fab.laneSet 0 (16 * s.fab.routeGen + 2 * l + d) != s.lanesOut l))

/-- The firmware brings the other routing table up to date, in both directions, and it comes into use: a pair of a link that changes
and a class switches at once unless its old transfers are open. While such pairs are open it writes nothing (R328, R329, R333,
R431). -/
def State.syncRoutes (s : State) : State :=
  let links := s.routesOff
  if !s.fab.routePairs.isEmpty || links.isEmpty then s
  else
    let gen := 1 - s.fab.routeGen
    { s with fab := { s.fab with
      laneSet := (List.range 12).foldl (fun t key => Table.set t (16 * gen + key) (s.lanesOut (key / 2))) s.fab.laneSet
      routeGen := gen
      routePairs := links.flatMap (fun l => ((List.range 16).filter (fun c => s.routeOpen l c)).map (fun c => (l, c))) } }

/-- Replace a lane group; the routing table follows. -/
def State.setLane (s : State) (link group : Nat) (x : Station) : State :=
  ({ s with fab := { s.fab with lanes := Table.set s.fab.lanes (256 * link + group) x } } : State).syncRoutes

/-- A bucket as its leak has left it by now (R424). -/
def Station.leaked (x : Station) (leak now : Nat) : Station :=
  let p := leak * 2 ^ 20
  if p = 0 ∨ x.ret then x
  else
    let n := min x.bkt ((now - x.leakFrom) / p)
    { x with bkt := x.bkt - n, leakFrom := x.leakFrom + n * p }

/-- Every group of a link is retired, or none has come up for 2^24 cycles (R431). -/
def State.linkLost (s : State) (link : Nat) : Bool :=
  decide (0 < Config.laneGroups) &&
  (List.range Config.laneGroups).all (fun g => (s.lane link g).ret || (s.lane link g).overdue s.cyc.toNat)

/-- A lane group retrains after three failed replays, or is retired after 2^24 cycles down (R423, R431). -/
def State.retrainLane (s : State) (link group : Nat) : State :=
  let x := (s.lane link group).leaked s.fab.leak s.cyc.toNat
  if x.ret then s
  else if !x.down then s.setLane link group (x.retrain s.cyc.toNat s.fab.bthr)
  else if x.overdue s.cyc.toNat then s.setLane link group { x with ret := true, training := none }
  else s

/-- The loss of a whole link stops the device (R431). -/
def State.loseLink (s : State) (link : Nat) : State :=
  if s.linkLost link then s.stopDevice 5 0x43 (0x100 + link) else s

/-- D2D_LANE_RETRAIN, R431. -/
def execD2dLaneRetrain (link group : Nat) (s : State) : Host.Outcome State Fault Refusal :=
  .next ((s.retrainLane link group).loseLink link)

/-- A lane group whose retrain has run for 2^24 cycles is retired, and with its last group the link is lost (R423, R431). -/
def State.laneUnits (s : State) : Option State :=
  (s.fab.lanes.find? (fun e => !e.2.ret && e.2.overdue s.cyc.toNat)).map (fun e =>
    (s.retrainLane (e.1 / 256) (e.1 % 256)).loseLink (e.1 / 256))

/-- D2D_LANE_GROUP_UP, R431, R423. -/
def execD2dLaneGroupUp (link group : Nat) (s : State) : Host.Outcome State Fault Refusal :=
  let x := s.lane link group
  happens (x.training.isSome && !x.ret) s (s.setLane link group { x with down := false, training := none })

/-- D2D_ROUTE_SWITCH, R333, R329: a pair of link and class goes over to the present table once its old transfers have been
made. -/
def execD2dRouteSwitch (link cls : Nat) (s : State) : Host.Outcome State Fault Refusal :=
  happens (s.fab.routePairs.contains (link, cls) && !s.routeOpen link cls) s
    ({ s with fab := { s.fab with routePairs := s.fab.routePairs.filter (fun p => p ≠ (link, cls)) } } : State).syncRoutes

/-! ## Multicasts (R104, R332) -/

/-- A TLB entry that an invalidation drops. -/
def Stale.drops (w : Stale) (e : TlbEntry) : Bool :=
  !e.host && match w with
  | .range root va len => e.root == root && (List.range 16).any (fun i =>
      let page := e.page / 16 * 16 + i
      bitAt e.mask i && decide (page * 2 ^ 16 < va + len) && decide (va < (page + 1) * 2 ^ 16))
  | .entry p => e.place / 128 == p / 128 && bitAt e.mask (p / 8 % 16)

/-- Every TLB, and those who hold a translation that they have waited for, lose the entries that satisfy a test. -/
def State.loseEntries (s : State) (gone : TlbEntry → Bool) : State :=
  { s with
    sys := { s.sys with tlb := s.sys.tlb.filter (fun e => !gone e), found := s.sys.found.filter (fun e => !gone e.2) }
    strands := s.strands.map (fun x => (x.1, { x.2 with found := x.2.found.filter (fun e => !gone e) }))
    cores := s.cores.map (fun c => (c.1, { c.2 with tlb := c.2.tlb.filter (fun e => !gone e) })) }

/-- An invalidation acts on a set of dies: on their TLBs, those of their cores, and what their walks have found missing. -/
def State.dropTlb (s : State) (dies : List Nat) (w : Stale) : State :=
  let s := s.loseEntries (fun e => dies.contains e.die && w.drops e)
  { s with sys := { s.sys with walks := s.sys.walks.filter (fun x => !(x.failed && dies.contains x.die)) } }

/-- A location lies in a frame of 64 KiB. -/
def inFrame (f l : Nat) : Bool := l / 2 ^ 16 == f

/-- A command on an mx path reaches a frame. -/
def MxCmd.usesFrame (m : MxCmd) (f : Nat) : Bool :=
  m.mem.any (fun l => l.any (fun p => decide (p.loc < (f + 1) * 2 ^ 16) && decide (f * 2 ^ 16 < p.loc + p.len)))

/-- An access that has used an older translation of a frame has not performed: a queued mx command, or a store in a
restart gate (R104). -/
def State.frameBusy (s : State) (f : Nat) : Bool :=
  s.cores.any (fun c => c.2.mxRun.any (fun m => m.2.usesFrame f) || c.2.mxq.any (fun q => q.2.any (fun m => m.usesFrame f))) ||
  s.strands.any (fun k => k.2.gate.any (fun x => x.cells.any (fun c => inFrame f c.1))) ||
  s.sys.queued.any (fun x => x.cells.any (fun c => inFrame f c.1)) || s.fab.waiting.any (fun w => inFrame f w.2.1)

/-- The frames that the TLBs' entries for what is invalidated lead to. -/
def State.staleFrames (s : State) (w : Stale) : List Nat :=
  ((s.sys.tlb ++ s.cores.flatMap (fun c => c.2.tlb) ++ s.sys.found.map (·.2) ++ s.strands.flatMap (fun k => k.2.found)).filter
    (fun e => w.drops e)).flatMap (fun e =>
    (List.range 16).filterMap (fun i =>
      if bitAt e.mask i then some (fld (e.pteOf ((e.page / 16 * 16 + i) * 2 ^ 16)) 16 32) else none))

/-- The frames that accesses of strands of a space which have not performed reach: their stores in the gate and their commands on
the mx paths. Which translation such an access has used is not kept, so an invalidation of a range of the space waits for all of
them (R104; log entry 90). -/
def State.framesInUse (s : State) (sp : Space) : List Nat :=
  let mine (k : Nat) : Bool := s.spaceOf k == some sp
  (s.strands.flatMap (fun k => if mine k.1 then k.2.gate.flatMap (fun x => x.cells.map (·.1 / 2 ^ 16)) else [])) ++
  s.cores.flatMap (fun c => ((c.2.mxRun.map (·.2)) ++ c.2.mxq.flatMap (·.2)).flatMap (fun m =>
    if mine m.strand then m.mem.flatMap (fun l => l.flatMap (fun p => [p.loc / 2 ^ 16, (p.loc + p.len - 1) / 2 ^ 16])) else []))

/-- The firmware invalidates on its own die, and sends a multicast to the others; it goes on once the invalidation has
completed (R104, R332). -/
def State.invalidate (s : State) (w : Stale) : State :=
  let used := match w with
    | .range root _ _ => s.framesInUse (.device root) ++
        (if s.fab.spaceRoot = some root then s.fab.waiting.map (fun w => w.2.1 / 2 ^ 16) else [])
    | .entry _ => []
  let frames := (s.staleFrames w ++ used).dedup
  let s := (s.dropTlb [0] w).multicast 0 [1, 2, 3] (.stale w)
  { s with sys := { s.sys with invals := s.sys.invals ++ [(w, frames)] } }

/-- An invalidation completes: every die has received it, and every access that used an old translation has performed
(R104). -/
def State.invalOver (s : State) (v : Stale × List Nat) : Bool :=
  !s.fab.mcast.any (fun m => m.what == .stale v.1) && !v.2.any s.frameBusy

/-- An invalidation has completed; the firmware will walk again for the stalled pairs of the export space (R104, R408). -/
def State.invalEnds (s : State) (v : Stale × List Nat) : State :=
  let mine := match v.1 with
    | .range root _ _ => s.fab.spaceRoot == some root
    | .entry _ => true
  { s with
    sys := { s.sys with invals := s.sys.invals.erase v }
    fab := { s.fab with stalls := s.fab.stalls.map (fun e => { e with look := e.look || (mine && e.why == 2) }) } }

/-- The pending invalidation of a page's level-3 entry. -/
def State.entryPends (s : State) (place : Nat) : Bool := s.sys.invals.any (fun v => v.1 == .entry place)

/-- The first multicast that a die's fan-out point holds. -/
def State.heldMcast (s : State) (die : Nat) : Option Mcast := s.fab.mcast.find? (fun m => m.src = die)

/-- The fan-out point can forward it: every destination link has space (R332). -/
def State.canForward (s : State) (die : Nat) : Option Mcast :=
  (s.heldMcast die).filter (fun m => m.dests.all (fun d => !s.cutOff die d))

/-- Dies receive a multicast (R332). Of a gang's messages only the forwarding counts: a start cycle that every rope has
(R45), YREQ for all its strands on one cycle (R46), a forced freeze (R47). -/
def State.receive (s : State) (dies : List Nat) (what : Note) : State :=
  match what with
  | .stale w => s.dropTlb dies w
  | .caches _ _ _ parts lo len cores => s.invalCores parts lo len (cores.filter (fun c => dies.contains (c / 64)))
  | .reloads _ _ _ ropes l => s.addReloads l (ropes.filter (fun r => dies.contains (r / 8)))
  | .start _ => s
  | .yreq h => s.takeYreq h
  | .freeze h => s.takeFreeze h

/-- MULTICAST_FORWARD, R332: every destination receives the message at once, and messages keep their order. -/
def execMulticastForward (die : Nat) (s : State) : Host.Outcome State Fault Refusal :=
  match s.canForward die with
  | none => .next s
  | some m =>
    let t := ({ s with fab := { s.fab with mcast := s.fab.mcast.erase m } } : State).receive m.dests m.what
    .next (match m.what.asked with
      | some a => t.endFences a.2.1
      | none => t)

end Sys2Proof.Machine
end

