-- ==== Sys2Proof/Machine/Firmware.lean ====
section
/-! DEFINITION. What the Henvar firmware does for strands: the services of SVC, breakpoints, waits for tickets, and kills
(R300, R373, R374, R400, R406); and the moving of pages (R104, R120, R413). -/

namespace Sys2Proof.Machine

/-! ## Moving pages (R104, R120, R413) -/

/-- Every core's Dirty sectors of a frame go home, and no core keeps a copy. -/
def State.flushFrame (s : State) (f : Nat) : State :=
  s.cores.foldl (fun s e =>
    let mine := (e.2.l1Dirty.filter (fun sec => sec / 1024 = f))
    (mine.foldl (fun s sec => s.cleanL1 e.1 sec) s).onCore e.1 (fun c =>
      { c with l1 := c.l1.filter (fun x => x.1 / 1024 ≠ f), lines := c.lines.filter (fun x => x.line / 256 ≠ f) })) s

/-- Copy a frame, with its poison, whose errors are counted (R413). -/
def State.copyFrame (s : State) (src dst : Nat) : State :=
  let s := s.flushFrame src
  let cells := (s.mem.filter (fun c => inFrame src c.1)).map (fun c => (dst * 2 ^ 16 + c.1 % 2 ^ 16, c.2))
  let bad := s.sys.poison.filter (fun sec => sec / 1024 = src)
  let s := (s.clearRange (dst * 2 ^ 16) (2 ^ 16)).setBytes cells
  let s : State := { s with sys := { s.sys with
    below := s.sys.below.filter (fun e => e.1 / 1024 ≠ src ∧ e.1 / 1024 ≠ dst)
    poison := bad.map (fun sec => dst * 1024 + sec % 1024) ++ s.sys.poison.filter (fun sec => sec / 1024 ≠ dst) } }
  bad.foldl (fun s sec => s.uncorrected (errUnitOf (sec * 64))) s

/-- A frame of the tier or of HBM that holds no page of a protected region. -/
def State.movable (s : State) (f : Nat) : Bool :=
  (isHbm (f * 2 ^ 16) || isTier (f * 2 ^ 16)) && !s.cairn.regions.any (fun r => r.frames.contains f)

/-- A move can begin: a valid page in the normal state, from the tier to HBM or back, of no protected region. -/
def State.canMove (s : State) (pte frame : Nat) : Bool :=
  let e := s.num pte 8
  let old := fld e 16 32
  bitAt e 0 && fld e 60 2 == 0 && s.movable old && s.movable frame && isHbm (old * 2 ^ 16) != isHbm (frame * 2 ^ 16)

/-- Steps 1 and 2 of a move: the page is moving, and its translation is invalidated. -/
def State.beginMove (s : State) (pte : Nat) : State :=
  let e := s.num pte 8
  let s := s.setNum pte 8 (setFld e 60 2 1)
  ({ s with sys := { s.sys with moves := s.sys.moves ++ [(pte, e)] } } : State).invalidate (.entry pte)

/-- The invalidation of a move has completed: every die has received it, and no access uses the old translation. -/
def State.moveReady (s : State) (pte old : Nat) : Bool :=
  !s.entryPends pte && !s.frameBusy (fld old 16 32) && !s.sleeping (fld old 16 32 * 2 ^ 16)

/-- Steps 3 and 4 of a move; sectors, by number, whose writes have failed their link check five times are stored as poisoned
ones (R421). -/
def State.endMove (s : State) (pte old frame : Nat) (failed : List Nat) : State :=
  let s := (s.copyFrame (fld old 16 32) frame).setNum pte 8 (setFld (setFld old 16 32 frame) 60 2 0)
  let s := (failed.filter (fun j => decide (j < 1024))).foldl (fun s j => s.poisonSector (frame * 1024 + j)) s
  ({ s with sys := { s.sys with moves := s.sys.moves.filter (fun m => m.1 ≠ pte) } } : State).invalidate (.entry pte)

/-- PAGE_MIGRATION, R120: the first event of a move of the page at `pte` begins it, and one after its invalidation has
completed ends it, in the frame that the firmware names; writes that are sent again are recoverable events (R369, R421). -/
def execPageMigration (pte : Nat) (copy : PageCopy) (s : State) : Host.Outcome State Fault Refusal :=
  match s.sys.moves.find? (fun m => m.1 = pte) with
  | none => happens (s.canMove pte copy.frame) s (s.beginMove pte)
  | some m =>
    happens (s.moveReady pte m.2 && s.movable copy.frame && !s.sleeping (copy.frame * 2 ^ 16)) s
      (copy.resent.repeat State.recoverable (s.endMove pte m.2 copy.frame copy.failed))

/-! ## Services (R300) -/

/-- The cause for which the firmware acts (R374): of the slots' causes the first below 0x20, and without one the first. -/
def causeOfTrap (tcause : Nat) : Nat :=
  let l := ([0, 1, 2, 3, 4, 5].map (fun n => fld tcause (8 * n) 8)).filter (· ≠ 0)
  ((l.find? (fun c => decide (c < 0x20))).or l.head?).getD 0

/-- Henvar returns to the bundle at TBA (R194, R300). -/
def State.return_ (s : State) (k : Nat) : State :=
  s.onStrand k (fun x =>
    let y := { x.returnFromTrap with fw := none }
    y.restartAt y.pc y.bank y.lastX)

/-- The service returns with a value in s1 (R300). -/
def State.returnWith (s : State) (k v : Nat) : State := (s.onStrand k (fun x => x.put (.s 1) v)).return_ k

/-- EVENT: while the ring is full it does not return (R300, R309). -/
def State.svcEvent (s : State) (k : Nat) : State :=
  if s.host.evsize = 0 then s.returnWith k 0
  else if s.eventFull then s
  else
    let t := s.postEvent 1 ((s.queueOf k).getD 0xFFFF) ((s.strand k).get (.s 1))
    t.returnWith k t.host.evseq

/-- A strand that ends by ABORT: its gate is released, and it is Exited (R300). -/
def State.abortStrand (s : State) (k : Nat) : State :=
  let x := s.strand k
  if x.st = .idle ∨ x.st = .exited then s
  else
    let s := (s.releaseGate k).onStrand k (fun x => { x with
      st := .exited, wasAttached := false, wait := none, queue := [], port := none, freezing := false, met := none
      expect := [], outcome := none
      inflight := x.inflight.filter (fun e => match e.dest with
        | .push _ _ => true
        | _ => false)
      fw := none, trapping := none, rolling := false, pri := none, belay := none, registering := none, shadows := [] })
    s.onCore (coreOf k) (fun c =>
      let f (m : MxCmd) : MxCmd := if m.strand = k then { m with orphan := true } else m
      { c with
        mxq := c.mxq.map (fun q => (q.1, q.2.map f)), mxRun := c.mxRun.map (fun m => (m.1, f m.2))
        tickets := c.tickets.filter (fun t => t.2.strand ≠ k) })

/-- ABORT: every strand of the context ends, and the launch will complete with status 1 and a code (R300, R308). -/
def State.svcAbort (s : State) (k : Nat) : State :=
  match s.slotOfRope (ropeOf k) with
  | none => s.abortStrand k
  | some h =>
    match s.gangAt h with
    | none => s.abortStrand k
    | some g =>
      let code := fld ((s.strand k).get (.s 1)) 0 32
      let s := g.strands.foldl State.abortStrand s
      let s := g.ropes.foldl (fun s r => s.onRope r (fun y =>
        { y with streams := y.streams.map (fun t => (t.1, { t.2 with st := .idle, join := none, fence := none })), mopr := [] })) s
      s.onGang h (fun g => { g with status := 1, code := code })

/-- The state of a page of a range for RESIDE: 0 not in the space, 1 still to be moved, 2 resident. R300 does not say what a
page without a valid entry is: here it lies outside the space (log entry 107). -/
def State.residence (s : State) (root va : Nat) : Nat :=
  match s.walk root va with
  | none => 0
  | some e =>
    if !bitAt e 0 then 0
    else if fld e 60 2 = 0 && !isTier (fld e 16 32 * 2 ^ 16) then 2
    else 1

/-- RESIDE: returns once PAGE_MIGRATION has brought every page of the range into HBM (R120, R300). A host-shared space
has no page that R120 moves. -/
def State.svcReside (s : State) (k : Nat) : State :=
  let va := (s.strand k).get (.s 1)
  let n := (s.strand k).get (.s 2)
  if 2 ^ 57 < va + n then s.returnWith k 1
  else
    match s.spaceOf k with
    | some (.device root) =>
      let l := (partsOf (2 ^ 16) va n).map (fun p => s.residence root p.1)
      if l.contains 0 then s.returnWith k 1
      else if l.contains 1 then s
      else s.returnWith k 0
    | _ => s.returnWith k 0

/-- GROUPINFO: n, k, m and the member index; the reserve (R300). Without a group both are free (log entry 3). -/
def State.svcGroupInfo (s : State) (k : Nat) : State :=
  match (s.groupOfStrand k).map s.group with
  | none =>
    let f := s.freeCount
    let s : State := { s with freeCount := f + 1 }
    (s.onStrand k (fun x => x.put (.s 2) (Config.freeReg f 2).toNat)).returnWith k (Config.freeReg f 1).toNat
  | some g =>
    (s.onStrand k (fun x => x.put (.s 2) (fld (g.reg 0x28) 0 10))).returnWith k
      (g.n + g.k * 2 ^ 8 + g.m * 2 ^ 16 + g.midx * 2 ^ 24)

/-- Serve an SVC by its number (R300, R404). -/
def State.service (s : State) (k n : Nat) : State :=
  match n with
  | 0 => s.returnWith k 0
  | 1 => s.svcEvent k
  | 2 => s.svcAbort k
  | 3 => s.svcReside k
  | 4 => s.svcGroupInfo k
  | _ => s.returnWith k (2 ^ 64 - 1)

/-- A breakpoint: a fault record of kind 4, and the queue is evicted (R374). -/
def State.serveBreak (s : State) (k : Nat) : State :=
  let x := s.strand k
  match s.slotOfRope (ropeOf k) with
  | none => s.return_ k
  | some h =>
    match (s.slot h).queue, s.gangAt h with
    | some q, some g =>
      ((s.faultRecord 4 q (coreOf k) (ctxOf k) x.tfm x.tba x.tcause x.tinfo g.launch.seq 0).onSlot h (fun y =>
        { y with evicting := true })).onStrand k (fun x => { x with fw := some .afterBreak })
    | _, _ => s.return_ k

/-- The routine of R273 for a strand without one of its own: wait for a notice, replay what is ready, and return once no
entry holds a ticket. -/
def State.serveTickets (s : State) (k : Nat) : State :=
  let c := s.core (coreOf k)
  if c.tickets.any (fun t => t.2.strand == k && t.2.replaying) then s
  else if (c.ticketed k).isEmpty then s.return_ k
  else if c.hasReady k then (s.acquire k 6 0).replayAll k
  else s

/-- The last column of R374. -/
def State.serveTrap (s : State) (k : Nat) : State :=
  let x := s.strand k
  match causeOfTrap x.tcause with
  | 0x15 => s.serveBreak k
  | 0x16 => s.service k x.tinfo
  | 0x20 => s.return_ k
  | 0x21 => s.serveTickets k
  | c => s.killStrand k 1 c x.tba x.tfm x.tcause x.tinfo 0

/-- What the firmware owes a strand, done if it can be (R374, R382, R400, R406): a frozen strand's waits for the resume, but
for a kill. -/
def State.serve (s : State) (k : Nat) : State :=
  let x := s.strand k
  if x.st = .frozen && !x.doomed then s
  else
    match x.fw with
    | none => s
    | some .serveTrap => if x.trapping.isSome then s else s.serveTrap k
    | some .afterBreak => if x.resumed then s.return_ k else s
    | some (.kill kind code tba tfm tcause tinfo detail) => s.killStrand k kind code tba tfm tcause tinfo detail

end Sys2Proof.Machine
end

