-- ==== Sys2Proof/Machine/Queues.lean ====
section
/-! DEFINITION. Writing the device registers of BAR0 under their access codes (R9, R321), the queue table and its kicks
(R303, R310 to R312, R458), and the firmware's scheduling of queues: ageing, mapping, watchdog and the bound of a save
(R313 to R315, R318, R380). -/

namespace Sys2Proof.Machine

/-! ## Fields of a write (R9, R321) -/

/-- The bits that an access of 32 or 64 bits covers of its aligned register, or none where the write is dropped. -/
def writeMask (off width : Nat) : Option Nat :=
  if width = 64 ∧ off % 8 = 0 then some (2 ^ 64 - 1)
  else if width = 32 ∧ off % 4 = 0 then some ((2 ^ 32 - 1) * 2 ^ (8 * (off % 8)))
  else none

/-- The old value with the bits of a mask taken from a new one. -/
def mix (old new mask : Nat) : Nat := old - (old &&& mask) + (new &&& mask)

/-- The bits `lo` to `lo + n - 1`. -/
def bits (lo n : Nat) : Nat := (2 ^ n - 1) * 2 ^ lo

/-- A field of a register that a write may change: the written bits of it are taken over. -/
def newFld (old lo n v m : Nat) : Nat := fld (mix (old * 2 ^ lo) v (m &&& bits lo n)) lo n

/-! ## Queues (R303, R310 to R312, R458) -/

/-- A kick that the queue's EN lets in sets QTAIL; too many outstanding packets stop the queue; an unmapped queue becomes
pending (R303, R312). -/
def State.kick (s : State) (q tail : Nat) : State :=
  let c := s.queue q
  if !c.en then s
  else
    let s := s.onQueue q (fun c => { c with qtail := tail })
    let s := if c.qsize < subMod tail c.qhead (2 ^ 32) then (if c.err then s.raiseBit (64 + q) else s.stopQueue q) else s
    if s.mapped q || tail == c.qhead then s else s.pend q

/-- Disabling a queue ends its context's protection, after the outcome of a commit in progress (R347). -/
def State.endOwner (s : State) (q : Nat) : State :=
  (s.groupsOf q).foldl (fun s g =>
    if (s.group g).commit.isSome then s.onGroup g (fun x => { x with ending := true }) else s.endProtection g) s

/-- BPRIO or AGEP has been written: every pending queue's EPRIO follows, and a rise asks for a decision (R313, R314). -/
def State.reprio (s : State) : State :=
  let now (e : Nat × Queue) : Queue := if e.2.pend then { e.2 with eprio := s.eprioNow e.1 } else e.2
  let t := { s with queues := s.queues.map (fun e => (e.1, now e)) }
  if s.queues.any (fun e => e.2.pend && decide (e.2.eprio < s.eprioNow e.1)) then t.aged else t

/-- The slot of a mapped queue. -/
def State.slotOf (s : State) (q : Nat) : Option Nat := (s.slots.find? (fun e => e.2.queue == some q)).map (·.1)

/-- A write of QCTL (R311): HS only while the queue is neither mapped nor frozen; ERR clears where it is written 1. -/
def State.writeQctl (s : State) (q v m : Nat) (locked : Bool) : State :=
  let c := s.queue q
  let en := if bitAt m 63 then bitAt v 63 else c.en
  let s := s.onQueue q (fun c => { c with
    en := en, hs := if bitAt m 62 && !locked then bitAt v 62 else c.hs
    bprio := newFld c.bprio 59 3 v m, bke := if bitAt m 53 then bitAt v 53 else c.bke
    err := c.err && !(bitAt m 54 && bitAt v 54 && s.clears (64 + q)) })
  let s := s.reprio
  if c.en && !en then s.endOwner q
  else if !c.en && en then
    match s.slotOf q with
    | some h => s.dispatch h
    | none => s
  else s

/-- A write to word `w` of a queue's control block: the written bits of its fields, of which those that R458 names take
none while the queue is mapped or has a frozen gang. -/
def State.writeQueueWord (s : State) (q w v m : Nat) : State :=
  let locked := s.mapped q || (s.queue q).froz
  let whole (old : Nat) : Nat := mix old v m
  let low (old : Nat) : Nat := newFld old 0 32 v m
  let high (old : Nat) : Nat := newFld old 32 32 v m
  let set (f : Queue → Queue) : State := if locked then s else s.onQueue q f
  match w with
  | 0 => set (fun c => { c with qbase := whole c.qbase })
  | 1 => set (fun c => { c with qsize := low c.qsize, qhead := high c.qhead })
  | 2 => (set (fun c => { c with qtail := low c.qtail })).writeQctl q v m locked
  | 3 => set (fun c => { c with lacc := whole c.lacc })
  | 4 => set (fun c => { c with ldone := whole c.ldone })
  | 5 => set (fun c => { c with crbase := whole c.crbase })
  | 6 => (set (fun c => { c with crsize := low c.crsize })).onQueue q (fun c => { c with pdlv := high c.pdlv })
  | 7 => set (fun c => { c with xlat := whole c.xlat })
  | 8 => set (fun c => { c with prog := whole c.prog })
  | 9 => set (fun c => { c with plast := whole c.plast })
  | 10 => s.onQueue q (fun c => { c with wdint := low c.wdint })
  | 11 => set (fun c => { c with wstart := whole c.wstart })
  | 12 => set (fun c => { c with mapc := whole c.mapc })
  | 13 => set (fun c => { c with savea := whole c.savea })
  | 14 => set (fun c => { c with ropes := whole c.ropes })
  | _ => s

/-- QCTL.ERR is cleared: the queue goes on at QHEAD (R311). -/
def State.clearErr (s : State) (q : Nat) : State :=
  s.onQueue q (fun c => { c with err := c.err && !s.clears (64 + q) })

/-! ## Events, interrupts and fault records (R322, R323, R384) -/

/-- A ring size that a register takes: 0, or a power of two from 16 to `2 ^ top`. -/
def ringSize (top n : Nat) : Bool := n == 0 || (List.range (top + 1)).any (fun i => decide (4 ≤ i) && n == 2 ^ i)

/-- A write of EVBASE or EVSIZE: dropped unless every event is acknowledged and the size is valid (R322). -/
def State.writeRing (s : State) (size : Bool) (v m : Nat) : State :=
  if s.host.evseq ≠ s.host.evack then s
  else if size then
    let n := newFld s.host.evsize 0 21 v m
    if ringSize 20 n then { s with host := { s.host with evsize := n } } else s
  else { s with host := { s.host with evbase := mix s.host.evbase v m } }

/-- A write of FLOGSIZE (R384). -/
def State.writeFlogSize (s : State) (v m : Nat) : State :=
  let n := newFld s.host.flogSize 0 17 v m
  if ringSize 16 n then { s with host := { s.host with flogSize := n } } else s

/-- A write to half of an MSI-X table entry: one that unmasks a pending vector sends its message (R323; log entry 17). -/
def State.writeMsix (s : State) (o v m : Nat) : State :=
  let i := o / 16
  let old := Table.get s.host.msix msixReset i
  let lo := 8 * (o % 16)
  let new := setFld old lo 64 (mix (fld old lo 64) v m)
  let s := { s with host := { s.host with msix := Table.set s.host.msix i new } }
  if bitAt old 96 && !bitAt new 96 && s.host.msixPend.contains i then
    ({ s with host := { s.host with msixPend := s.host.msixPend.filter (· ≠ i) } } : State).msix i
  else s

/-! ## The fabric, group and platform blocks -/

/-- A write to the fabric block (R328, R424, R426, R429). -/
def State.writeFabric (s : State) (o v m : Nat) : State :=
  if o = 0 then (if bitAt m 0 && s.canSwitch v then s.switchEgress (v % 2) else s)
  else if o = 8 then { s with fab := { s.fab with tmo := newFld s.fab.tmo 0 32 v m } }
  else if o = 0x10 then s.writeLnkcfg (mix (s.fabricWord 0x10) v (m &&& (bits 63 1 + bits 0 40)))
  else if o = 0x40 then { s with fab := { s.fab with fstat0 := mix s.fab.fstat0 v m } }
  else if o = 0x48 then { s with fab := { s.fab with fstat1 := mix s.fab.fstat1 v m } }
  else if 0x100 ≤ o ∧ o < 0x1C0 then
    let i := (o - 0x100) / 8
    if bitAt m 62 && bitAt v 62 && (s.station i).ret && s.clears (32 + i) then s.clearRet i else s
  else if 0x10000 ≤ o ∧ o < 0x14000 then
    let e := (o - 0x10000) / 8
    if e / 1024 = s.fab.cur ∨ s.fab.busy then s
    else { s with fab := { s.fab with
      egress := Table.set s.fab.egress e (mix (Table.get s.fab.egress 0 e) v (m &&& (bits 32 1 + bits 0 24))) } }
  else s

/-- The writable bits of a group slot's registers while EN is 0, but for GCTL (R335, R436, R444). -/
def groupBits (o : Nat) : Nat :=
  if o = 8 then bits 48 16 + bits 40 5 + bits 32 5 + bits 24 3
  else if o = 0x10 then bits 0 24
  else if o = 0x18 then bits 63 1 + bits 0 12
  else if o = 0x20 then bits 0 32
  else if o = 0x28 then bits 63 1 + bits 0 10
  else if o = 0x30 then bits 16 32
  else if o = 0x38 then bits 6 42
  else if 0x40 ≤ o ∧ o < 0xC0 then bits 40 24 + bits 16 23
  else if 0x100 ≤ o ∧ o < 0x1C0 then bits 63 1 + bits 16 16 + bits 0 10
  else if o = 0x1C0 then bits 61 1
  else if o = 0x1C8 then bits 0 32
  else if 0x200 ≤ o ∧ o < 0x240 then bits 40 24 + bits 16 23
  else 0

/-- A write to a group slot (R335): EN enables or disables; while EN is 1 the others but GOWN and LIVE take no write. -/
def State.writeGroup (s : State) (i o v m : Nat) : State :=
  let g := s.group i
  if o = 0 then
    if !bitAt m 63 then s
    else if bitAt v 63 then (if g.canEnable then s.enableGroup i else s)
    else if s.canDisable i then s.disableGroup i
    else s
  else
    let may := if !g.enabled then groupBits o
               else if o = 0x18 then groupBits o else if 0x100 ≤ o ∧ o < 0x1C0 then bits 63 1 else 0
    let new := mix (g.reg o) v (m &&& may)
    if m &&& may = 0 then s
    else if o = 0x18 then s.writeGown i new
    else s.onGroup i (fun g => g.setReg o new)

/-- A write to the registers behind the group slots (R343, R348). -/
def State.writePacing (s : State) (o v m : Nat) : State :=
  if o = 0 then { s with cairn := { s.cairn with cshare := newFld s.cairn.cshare 0 8 v m } }
  else if o = 8 then { s with cairn := { s.cairn with
    prior := newFld s.cairn.prior 32 32 v m, rwt := newFld s.cairn.rwt 16 16 v m, decay := newFld s.cairn.decay 0 4 v m } }
  else s

/-- A write of BOOTCTL.GO starts the copy (R362, R434): dropped unless ST is 1. -/
def State.writeBootctl (s : State) (len : Nat) : State :=
  if s.plat.bootSt = 1 then
    { s with plat := { s.plat with
        bootSt := 2, bootErr := 0, bootLen := len, image := (locsFrom 0 (len * 4096)).map s.byte } }
  else s

/-- A write to a zone's register (R366): a WARN that TEMP has reached sets WRS, and a stack's refresh follows it (R367). -/
def State.writeZone (s : State) (z v m : Nat) : State :=
  let x := s.zone z
  let y : Zone := { x with
    warn := sgn 16 (newFld (wrap 16 x.warn) 32 16 v m)
    crs := x.crs && !(bitAt m 1 && bitAt v 1 && s.clears (2 * z)), wrs := x.wrs && !(bitAt m 0 && bitAt v 0 && s.clears (2 * z + 1)) }
  let met := !decide (x.warn ≤ x.temp) && decide (y.warn ≤ x.temp)
  let s : State := { s with
    plat := { s.plat with zones := Table.set s.plat.zones z (if met then { y with wrs := true } else y) }
    raised := if met then (2 * z + 1) :: s.raised else s.raised }
  if 4 ≤ z then { s with sys := { s.sys with
      refresh2 := if y.warn ≤ x.temp then addTo (z - 4) s.sys.refresh2 else s.sys.refresh2.filter (· ≠ z - 4) } }
  else s

/-- A write to an error counter or a SCRUB register (R417, R418). -/
def State.writeErr (s : State) (u v m : Nat) (scrub : Bool) : State :=
  let x := Table.get s.plat.errs {} u
  let y : ErrUnit :=
    if scrub then { x with per := newFld x.per 32 32 v m, thr := newFld x.thr 24 8 v m }
    else { x with ce := newFld x.ce 40 24 v m, ue := newFld x.ue 24 16 v m, rep := newFld x.rep 16 8 v m }
  { s with plat := { s.plat with errs := Table.set s.plat.errs u y } }

/-- A write to the platform block (R362, R365, R366, R417, R418): BOOTCTL takes only a write of all its fields. -/
def State.writePlatform (s : State) (o v m : Nat) : State :=
  if o = 0 then (if m = 2 ^ 64 - 1 ∧ bitAt v 63 then s.writeBootctl (fld v 0 14) else s)
  else if o = 0x100 then { s with plat := { s.plat with plim := newFld s.plat.plim 0 16 v m } }
  else if 0x200 ≤ o ∧ o < 0x260 then s.writeZone ((o - 0x200) / 8) v m
  else if 0x400 ≤ o ∧ o < 0x5C0 then
    let u := (o - 0x400) / 16
    if o % 16 = 0 then s.writeErr u v m false else if u < 8 then s.writeErr u v m true else s
  else s

/-- A write to the registers below the queue table (R321, R322): a kick takes only a write of all of QTAIL. -/
def State.writeFront (s : State) (o v m : Nat) : State :=
  if o < 0x8000 then (if m % 2 ^ 32 = 2 ^ 32 - 1 then s.kick (o / 8) (v % 2 ^ 32) else s)
  else if o = 0x20000 then s.writeRing false v m
  else if o = 0x20008 then s.writeRing true v m
  else if o = 0x20018 then { s with host := { s.host with evack := mix s.host.evack v m } }
  else if 0x30000 ≤ o ∧ o < 0x38000 then s.writeMsix (o - 0x30000) v m
  else s

/-- A gang runs on a die: a rope that is only reserved for one counts, since R115 does not say (log entry 94). -/
def State.gangOn (s : State) (die : Nat) : Bool := (List.range 8).any (fun i => (s.rope (8 * die + i)).res != .free)

/-- A slice's staging part takes its size: the firmware has written back and emptied the slice's cache, and what leaves
the staging part is gone (R115). -/
def State.setStaging (s : State) (i mib : Nat) : State :=
  let s := (s.emptySlice i).clearRange (2 ^ 41 + i * 2 ^ 22 + mib * 2 ^ 20) ((4 - mib) * 2 ^ 20)
  { s with sys := { s.sys with staging := Table.set s.sys.staging i mib } }

/-- A write of a slice's split (R115, R321): it acts only while no gang runs on the die, and with a size that there is;
another is dropped (log entry 94). -/
def State.writeSplit (s : State) (i mib : Nat) : State :=
  if mib ≤ 4 ∧ !s.gangOn (i / 16) then s.setStaging i mib else s

/-- A write to the device controls (R321, R384; log entry 1 for the places of DEVID, AGEP and the splits): DEVID takes
none while the fabric is enabled (R324). -/
def State.writeControl (s : State) (o v m : Nat) : State :=
  if o = 0 then (if s.fab.fen then s else { s with devid := newFld s.devid 0 10 v m })
  else if 0x100 ≤ o ∧ o < 0x300 then (if m % 8 = 7 then s.writeSplit ((o - 0x100) / 8) (fld v 0 3) else s)
  else if o = 8 then ({ s with sys := { s.sys with agep := mix s.sys.agep v m } } : State).reprio
  else if o = 0x400 then { s with host := { s.host with flogBase := mix s.host.flogBase v m } }
  else if o = 0x408 then s.writeFlogSize v m
  else s

/-- Write the bits of `m` of the 64-bit register at an aligned offset of BAR0 (R321): other offsets ignore writes, and
after a failed verification all but BOOTCTL do (R434). -/
def State.regWrite (s : State) (off v m : Nat) : State :=
  if s.bootHeld ∧ off ≠ 0x2300000 then s
  else if off < 0x1000000 then s.writeFront off v m
  else if off < 0x1100000 then s.writeQueueWord ((off - 0x1000000) / 256) (off % 256 / 8) v m
  else if off < 0x2000000 then s
  else if off < 0x2100000 then s.writeControl (off - 0x2000000) v m
  else if off < 0x2200000 then s.writeFabric (off - 0x2100000) v m
  else if off < 0x2210000 then s.writeGroup ((off - 0x2200000) / 0x1000) (off % 0x1000) v m
  else if off < 0x2300000 then s.writePacing (off - 0x2210000) v m
  else if off < 0x2400000 then s.writePlatform (off - 0x2300000) v m
  else s

/-- A write of 32 or 64 bits at a BAR0 offset (R321). -/
def State.hostWrite (s : State) (off width v : Nat) : State :=
  match writeMask off width with
  | none => s
  | some m => s.regWrite (off / 8 * 8) (v % 2 ^ width * 2 ^ (8 * (off % 8))) m

/-- REGISTER_WRITE, R9, R321. -/
def execRegisterWrite (off width value : Nat) (s : State) : Host.Outcome State Fault Refusal :=
  .next (s.hostWrite off width value)

/-- KICK, R303, R312. -/
def execKick (queue tail : Nat) (s : State) : Host.Outcome State Fault Refusal :=
  .next (s.hostWrite (8 * queue) 64 tail)

/-- QUEUE_RECORD_WRITE, R458. -/
def execQueueRecordWrite (queue off width value : Nat) (s : State) : Host.Outcome State Fault Refusal :=
  .next (s.hostWrite (0x1000000 + 256 * queue + off) width value)

/-- QCTL_ERR_CLEAR, R311. -/
def execQctlErrClear (queue : Nat) (s : State) : Host.Outcome State Fault Refusal :=
  happens (!s.bootHeld) s (s.clearErr queue)

/-- EVACK_WRITE, R309. -/
def execEvackWrite (value : Nat) (s : State) : Host.Outcome State Fault Refusal := .next (s.hostWrite 0x20018 64 value)

/-- EVENT_RING_CONFIG_WRITE, R322. -/
def execEventRingConfigWrite (size : Bool) (value : Nat) (s : State) : Host.Outcome State Fault Refusal :=
  .next (s.hostWrite (if size then 0x20008 else 0x20000) 64 value)

/-- FLOGSIZE_WRITE, R384. -/
def execFlogsizeWrite (value : Nat) (s : State) : Host.Outcome State Fault Refusal :=
  .next (s.hostWrite 0x2000408 64 value)

/-! ## Ageing and mapping (R313 to R315) -/

/-- EPRIO_AGEING, R313: a pending queue's priority has risen, and the firmware decides (R314). -/
def execEprioAgeing (queue : Nat) (s : State) : Host.Outcome State Fault Refusal :=
  happens ((s.queue queue).pend && decide ((s.queue queue).eprio < s.eprioNow queue)) s
    ((s.onQueue queue (fun c => { c with eprio := s.eprioNow queue })).aged)

/-- Queue `a` goes before queue `b` among those pending (R314). -/
def State.before (s : State) (a b : Nat) : Bool :=
  let x := s.eprioNow a
  let y := s.eprioNow b
  decide (y < x) || (x == y && (decide ((s.queue a).wstart < (s.queue b).wstart) ||
    ((s.queue a).wstart == (s.queue b).wstart && decide (a < b))))

/-- Put a queue in its place among those pending. -/
def State.rank (s : State) (q : Nat) : List Nat → List Nat
  | [] => [q]
  | a :: t => if s.before q a then q :: a :: t else a :: s.rank q t

/-- The pending queues, the best first. -/
def State.pendingQueues (s : State) : List Nat :=
  ((s.queues.filter (fun e => e.2.pend)).map (·.1)).foldl (fun l q => s.rank q l) []

/-- The best pending queue (R314). -/
def State.bestPending (s : State) : Option Nat := s.pendingQueues.head?

/-- The mapped slots, in increasing order. -/
def State.mappedSlots (s : State) : List (Nat × Nat) :=
  (List.range 64).filterMap (fun h => (s.slot h).queue.map (fun q => (h, q)))

/-- A mapped queue is idle: it has nothing to run, or its gang has yielded (R314, R315). -/
def State.idleSlot (s : State) (e : Nat × Nat) : Bool :=
  match (s.slot e.1).gang with
  | some g => g.phase == .saved
  | none => (s.queue e.2).qhead == (s.queue e.2).qtail && (s.queue e.2).accepted.isEmpty

/-- Slot `a` is evicted before slot `b`: lower BPRIO, then earlier MAPC, then the lower slot (R314). -/
def State.victimFirst (s : State) (a b : Nat × Nat) : Bool :=
  let x := s.queue a.2
  let y := s.queue b.2
  decide (x.bprio < y.bprio) || (x.bprio == y.bprio && (decide (x.mapc < y.mapc) ||
    (x.mapc == y.mapc && decide (a.1 < b.1))))

/-- The slot that an eviction would take, one that is under eviction already among them: that one is not chosen again, and no other
in its place (R314). -/
def State.victim (s : State) : Option (Nat × Nat) :=
  s.mappedSlots.foldl (fun b e => match b with
    | none => some e
    | some f => if s.victimFirst e f then some e else some f) none

/-- A slot is evicted (R315): one whose gang has ropes to save or to load waits for it, another is unmapped at once. -/
def State.evict (s : State) (h : Nat) : State :=
  let held := match s.gangAt h with
    | none => false
    | some g => [Phase.running, .freezing, .loading, .starting, .resuming, .finished, .closing].contains g.phase
  if held then s.onSlot h (fun x => { x with evicting := true }) else s.unmap h

/-- One decision for the best pending queue (R314), if it changes anything. Of several free slots, or of several idle
queues, the lowest slot is taken: the manual gives no rule for these ties (log entry 99). -/
def State.mapBest (s : State) (q : Nat) : Option State :=
  match (List.range 64).find? (fun h => (s.slot h).queue.isNone) with
  | some h => some (s.mapTo h q)
  | none =>
    match s.mappedSlots.find? (fun e => !(s.slot e.1).evicting && s.idleSlot e) with
    | some (h, _) => some ((s.unmap h).mapTo h q)
    | none => s.victim.bind (fun e =>
        if (s.queue e.2).bprio < s.eprioNow q ∧ !(s.slot e.1).evicting then some (s.evict e.1) else none)

/-- The gangs that have yielded and keep their slots resume at once on their ropes (R315). -/
def State.resumeYielded (s : State) : State :=
  (s.mappedSlots.filter (fun e => !(s.slot e.1).evicting)).foldl (fun s e =>
    s.onGang e.1 (fun g => if g.phase = .saved then { g with phase := .loading } else g)) s

/-- A mapping decision for the best pending queue (R314); a gang that yielded and keeps its slot resumes (R315). -/
def State.mapQueues (s : State) : State :=
  let s := { s with mapDue := s.mapDue - 1 }
  ((s.bestPending.bind s.mapBest).getD s).resumeYielded

/-- The firmware runs: a verified image has started, and the device has not been stopped (R360, R383). -/
def State.firmwareRuns (s : State) : Bool := s.plat.bootSt == 3 && !s.plat.stopped

/-- MAPPING_DECISION, R314. -/
def execMappingDecision (s : State) : Host.Outcome State Fault Refusal := happens (decide (0 < s.mapDue) && s.firmwareRuns) s s.mapQueues

/-! ## The watchdog and the bound of a save (R318, R380, R420) -/

/-- The comparison of PROG with PLAST: none is made while a stack is in self-refresh (R318, R420). -/
def State.watch (s : State) (h q : Nat) : State :=
  let c := s.queue q
  let s := (s.onQueue q (fun c => { c with plast := c.prog })).onGang h (fun g => { g with checkedAt := s.cyc.toNat })
  if c.prog = c.plast ∧ s.sys.selfRefresh = [] then
    (s.onGang h (fun g => { g with stalled := true })).onSlot h (fun x => { x with evicting := true })
  else s

/-- A comparison is due: WDINT cycles of running have passed since the last (R318). -/
def State.watchDue (s : State) (q : Nat) (g : Gang) : Bool :=
  let n := (s.queue q).wdint
  g.phase == .running && !s.gangFrozen g && n != 0 && decide (g.checkedAt + n ≤ s.cyc.toNat)

/-- WATCHDOG_CHECK, R318. -/
def execWatchdogCheck (slot : Nat) (s : State) : Host.Outcome State Fault Refusal :=
  match (s.slot slot).queue, s.gangAt slot with
  | some q, some g => happens (s.watchDue q g) s (s.watch slot q)
  | _, _ => .next s

/-- The bound of a save has come (R318, R380). -/
def State.saveOverdue (s : State) (q : Nat) (g : Gang) : Bool :=
  let n := (s.queue q).wdint
  match g.yAt with
  | none => false
  | some y => (g.phase == .running || g.phase == .freezing) && decide (y + g.pdl + (if n = 0 then 2 ^ 26 else n) ≤ s.cyc.toNat)

/-- SAVE_TIMEOUT, R380. -/
def execSaveTimeout (slot : Nat) (s : State) : Host.Outcome State Fault Refusal :=
  match (s.slot slot).queue, s.gangAt slot with
  | some q, some g =>
    happens (s.saveOverdue q g) s (s.killSlot slot 3 2 (if g.stalled then 0x40 else 0x41) (s.queue q).prog)
  | _, _ => .next s

end Sys2Proof.Machine
end

