-- ==== Sys2Proof/Machine/Platform.lean ====
section
/-! DEFINITION. Boot, attestation, power, thermal zones, heartbeats, self-refresh, refresh and scrubbing, and the resets
(chapter 18; R360 to R368, R383, R417 to R420, R434). -/

namespace Sys2Proof.Machine

/-! ## Heartbeats, power and temperature (R365 to R367, R383) -/

/-- HEARTBEAT_CHECK, R383: bit c of `beats` says that base camp core c has written its heartbeat; a second miss in a row
stops the device. -/
def State.checkBeats (s : State) (beats : Nat) : State :=
  let miss (c : Nat) : Nat := if bitAt beats c then 0 else Table.get s.plat.beats 0 c + 1
  let s : State := { s with plat := { s.plat with
    beats := [0, 1, 2, 3].map (fun c => (c, miss c)), beatAt := s.cyc.toNat } }
  match [0, 1, 2, 3].find? (fun c => decide (2 ≤ Table.get s.plat.beats 0 c)) with
  | some c => s.stopDevice 5 0x43 c
  | none => s

/-- HEARTBEAT_CHECK, R383, every 2^20 CYC cycles. -/
def execHeartbeatCheck (beats : Nat) (s : State) : Host.Outcome State Fault Refusal :=
  happens (decide (s.plat.beatAt + 2 ^ 20 ≤ s.cyc.toNat) && !s.plat.stopped) s (s.checkBeats beats)

/-- Some die zone is at or above WARN. -/
def State.dieHot (s : State) : Bool := [0, 1, 2, 3].any (fun z => decide ((s.zone z).warn ≤ (s.zone z).temp))

/-- Every die zone is 5 degrees below WARN. -/
def State.dieCool (s : State) : Bool := [0, 1, 2, 3].all (fun z => decide ((s.zone z).temp + 40 ≤ (s.zone z).warn))

/-- The clock as the power controller proposes it (R365). -/
def State.powerClock (s : State) (watts : Nat) : Nat :=
  let lim := min 2000 (max 600 s.plat.plim)
  if lim < watts then s.plat.freq - 100
  else if 100 * watts < 97 * lim then s.plat.freq + 100
  else s.plat.freq

/-- The clock as the thermal controller proposes it (R367). -/
def State.thermalClock (s : State) : Nat :=
  if s.dieHot then s.plat.freq - 100 else if s.dieCool then s.plat.freq + 100 else s.plat.freq

/-- A comparison: the lower proposal is applied, from 1.0 to 2.5 GHz (R365). -/
def State.compare (s : State) (watts : Nat) : State :=
  let f := min 2500 (max 1000 (min (s.powerClock watts) s.thermalClock))
  { s with plat := { s.plat with
      pavg := min watts 65535, freq := f, comparedAt := s.cyc.toNat
      capn := if f < s.plat.freq then min (s.plat.capn + 1) 65535 else s.plat.capn } }

/-- POWER_COMPARE, R365, every 250,000 CYC cycles: `watts` is the average over the last millisecond. -/
def execPowerCompare (watts : Nat) (s : State) : Host.Outcome State Fault Refusal :=
  happens (decide (s.plat.comparedAt + 250000 ≤ s.cyc.toNat)) s (s.compare watts)

/-- Change a zone. -/
def State.onZone (s : State) (z : Nat) (f : Zone → Zone) : State :=
  { s with plat := { s.plat with zones := Table.set s.plat.zones z (f (s.zone z)) } }

/-- A zone has a temperature: at or above WARN, WRS is set, and a stack's refresh rate is doubled (R366, R367). -/
def State.warm (s : State) (z : Nat) (t : Int) : State :=
  let hot := decide ((s.zone z).warn ≤ t)
  let s := s.onZone z (fun x => { x with temp := t, wrs := x.wrs || hot })
  let s := if hot then s.raiseBit (2 * z + 1) else s
  if 4 ≤ z then { s with sys := { s.sys with
      refresh2 := if hot then addTo (z - 4) s.sys.refresh2 else s.sys.refresh2.filter (· ≠ z - 4) } }
  else s

/-- A stack enters critical self-refresh (R367, R420). -/
def State.enterSleep (s : State) (stack : Nat) : State :=
  let s := (s.msix 1).onErr stack (fun u => { u with sleptAt := s.cyc.toNat })
  { s with sys := { s.sys with selfRefresh := addTo stack s.sys.selfRefresh } }

/-- A zone is at CRIT (R366, R367). -/
def State.crit (s : State) (z : Nat) (t : Int) : State :=
  let s := ((s.warm z t).onZone z (fun x => { x with crs := true })).raiseBit (2 * z)
  if z < 4 then s.stopDevice 6 0x44 0
  else if s.sys.selfRefresh.contains (z - 4) then s
  else s.enterSleep (z - 4)

/-- A zone has a temperature, which may have reached CRIT too (R366, R367). -/
def State.heat (s : State) (z : Nat) (t : Int) : State := if critOf z ≤ t then s.crit z t else s.warm z t

/-- ZONE_WARN, R367: `temp` is the zone's TEMP. -/
def execZoneWarn (zone temp : Nat) (s : State) : Host.Outcome State Fault Refusal :=
  happens (decide ((s.zone zone).warn ≤ sgn 16 temp)) s (s.heat zone (sgn 16 temp))

/-- ZONE_CRIT, R367. -/
def execZoneCrit (zone temp : Nat) (s : State) : Host.Outcome State Fault Refusal :=
  happens (decide (critOf zone ≤ sgn 16 temp)) s (s.crit zone (sgn 16 temp))

/-- ZONE_BELOW_WARN, R367: the doubled refresh of a stack ends; a die's clock may rise as the temperature says. Where WARN has
been set above CRIT, the zone may be at CRIT all the same. -/
def execZoneBelowWarn (zone temp : Nat) (s : State) : Host.Outcome State Fault Refusal :=
  happens (decide (sgn 16 temp < (s.zone zone).warn)) s (s.heat zone (sgn 16 temp))

/-- A stack leaves critical self-refresh; the time in it does not count for its scrubber, and its refresh rate is that of its
temperature (R367, R418, R420). Requests that it held go on by themselves. -/
def State.wakeStack (s : State) (stack : Nat) (t : Int) : State :=
  let s := (s.warm (4 + stack) t).onErr stack (fun u => { u with since := u.since + (s.cyc.toNat - u.sleptAt) })
  { s with sys := { s.sys with selfRefresh := s.sys.selfRefresh.filter (· ≠ stack) } }

/-- SELF_REFRESH_EXIT, R420, at 5 degrees below CRIT. -/
def execSelfRefreshExit (stack temp : Nat) (s : State) : Host.Outcome State Fault Refusal :=
  happens (s.sys.selfRefresh.contains stack && decide (sgn 16 temp ≤ (critOf (4 + stack) : Nat) - 40)) s
    (s.wakeStack stack (sgn 16 temp))

/-- BANK_REFRESH, R419: a bank of a stack is under refresh, which delays requests to it and changes nothing else. -/
def execBankRefresh (stack bank : Nat) (s : State) : Host.Outcome State Fault Refusal :=
  .next { s with sys := { s.sys with banks := (stack, bank) :: s.sys.banks.filter (fun b => b.1 ≠ stack) } }

/-- Lines of a stack (R418). -/
def stackLines : Nat := 250000000

/-- Lines that a pass should have scrubbed by now. -/
def ErrUnit.expected (u : ErrUnit) (now : Nat) : Nat :=
  min stackLines (stackLines * (now - u.since) / (u.per * 2 ^ 30))

/-- Whether the scrubber is escalated, as it was or as its lag makes it (R418). -/
def ErrUnit.escalates (u : ErrUnit) (now : Nat) : Bool :=
  let done := u.lines / 16 * 16
  if u.esc then decide (done < u.expected now) else decide (done + stackLines / 8 < u.expected now)

/-- The scrubber reads and corrects its next line; once a pass is complete and its period has run out, the next begins. -/
def ErrUnit.scrub (u : ErrUnit) (now occupancy : Nat) : ErrUnit :=
  let u := { u with esc := u.escalates now }
  if stackLines ≤ u.lines then
    if u.since + u.per * 2 ^ 30 ≤ now then { u with lines := 0, since := now, esc := false } else u
  else if u.esc || decide (occupancy < u.thr) then { u with lines := u.lines + 1 }
  else u

/-- What the scrubber finds in the sectors of a line, a digit of base 3 for each: 0 nothing, 1 an error that it corrects, 2 an
uncorrectable one (R414, R418). -/
def State.scrubLine (s : State) (line found : Nat) : State :=
  (List.range 4).foldl (fun s i =>
    match found / 3 ^ i % 3 with
    | 0 => s
    | 1 => s.corrected (errUnitOf (256 * line))
    | _ => s.dramError (4 * line + i)) s

/-- SCRUB_ISSUE, R418. -/
def execScrubIssue (stack : Nat) (sight : ScrubSight) (s : State) : Host.Outcome State Fault Refusal :=
  let t := s.onErr stack (fun u => u.scrub s.cyc.toNat sight.occupancy)
  let line := stack * 2 ^ 28 + (s.errUnit stack).lines
  happens ((s.errUnit stack).per != 0 && !s.sys.selfRefresh.contains stack) s
    (if (s.errUnit stack).lines < (t.errUnit stack).lines then t.scrubLine line sight.found else t)

/-! ## Boot (R360 to R363, R434) -/

/-- BOOT_TRAINING_DONE, R360. -/
def execBootTrainingDone (s : State) : Host.Outcome State Fault Refusal :=
  happens (s.plat.bootSt == 0) s { s with plat := { s.plat with bootSt := 1, bootErr := 0 } }

/-- BOOTCTL_GO, R362: step 4 copies the image from device physical address 0. -/
def execBootctlGo (len : Nat) (s : State) : Host.Outcome State Fault Refusal := .next (s.writeBootctl len)

/-- The digest of an image (R361): header bytes 0 to 255, then the body. -/
def imageDigest (b : List Byte) (blen : Nat) : BitVec 384 := Config.sha384 (b.take 256 ++ (b.drop 4096).take blen)

/-- A vendor key is the one whose hash the fuses hold (R361). -/
def keyHolds (n : Nat) : Bool := Config.sha384 (Config.vendorKey n) == Config.fuseKeyHash n

/-- The first check of R361 and R362 that an image fails; 0 for none. -/
def imageError (b : List Byte) (len : Nat) : Nat :=
  let f (o n : Nat) : Nat := ofBytes ((b.drop o).take n)
  let blen := f 12 4
  if len = 0 then 1
  else if f 0 8 ≠ 0x4E56524858440001 then 2
  else if len * 4096 < 4096 + blen then 1
  else if blen ≤ f 16 8 then 2
  else if f 8 4 < Config.fuseSvn then 3
  else if !(keyHolds 0 && Config.ecdsaVerifies (Config.vendorKey 0) ((b.drop 256).take 96) (imageDigest b blen)) then 4
  else if !(keyHolds 1 && Config.lmsVerifies (Config.vendorKey 1) ((b.drop 352).take 3744) (imageDigest b blen)) then 5
  else 0

/-- The store of alias certificates after a boot: eight entries, of which the oldest is replaced (R363). -/
def addAlias (d : BitVec 384) (l : List (BitVec 384)) : List (BitVec 384) :=
  if l.contains d then l else (l ++ [d]).drop (l.length - 7)

/-- The copy is verified, and the firmware starts or ERR is set (R360, R361, R363). -/
def State.verifyImage (s : State) : State :=
  let b := s.plat.image
  let e := imageError b s.plat.bootLen
  let d := imageDigest b (ofBytes ((b.drop 12).take 4))
  if e = 0 then
    { s with plat := { s.plat with
        bootSt := 3, bootErr := 0, bootSvn := ofBytes ((b.drop 8).take 4), digest := d
        aliases := addAlias d s.plat.aliases } }
  else { s with plat := { s.plat with bootSt := 1, bootErr := e } }

/-- BOOT_VERIFY, R361. -/
def execBootVerify (s : State) : Host.Outcome State Fault Refusal := happens (s.plat.bootSt == 2) s s.verifyImage

/-! ## The mailbox (R319, R364, R434) -/

/-- A mailbox answer: the code of the request and a payload. -/
def State.mailbox (s : State) (code : Nat) (p : List Nat) : State :=
  { s with host := { s.host with doe := s.host.doe ++ [(code, p)] } }

/-- The algorithms that the responder negotiates, and no other (R364). -/
def spdmAlgs : List SpdmAlg := [.sha384, .ecdsaP384, .secp384r1, .aes256Gcm]

/-- An SPDM request: ERROR code Busy (3) after a failed verification (R434); else it is served under the algorithms that the
connection has negotiated before it (R364; log entry 13). -/
def State.spdm (s : State) (t : State) : Host.Outcome State Fault Refusal :=
  .next (if s.bootHeld then s.mailbox 0x7F [3] else { t with host := { t.host with algs := spdmAlgs } })

/-- The types that the mailbox serves: DOE discovery, SPDM, secured SPDM (R319; log entry 13 for their numbers). -/
def doeTypes : List Nat := [0, 1, 2]

/-- DOE_DISCOVERY, R319: the vendor, a type, and the next index, 0 after the last. -/
def execDoeDiscovery (index : Nat) (s : State) : Host.Outcome State Fault Refusal :=
  .next (match doeTypes[index]? with
    | some t => s.mailbox 0 [1, t, if index + 1 < doeTypes.length then index + 1 else 0]
    | none => s.mailbox 0 [0xFFFF, 0, 0])

/-- The certificate chain of the running image, as bytes. -/
def State.chain (s : State) : List Byte := Config.certificate s.plat.digest

/-- GET_DIGESTS, R364: the SHA-384 digest of the chain. -/
def execGetDigests (s : State) : Host.Outcome State Fault Refusal :=
  s.spdm (s.mailbox 0x81 [(Config.sha384 s.chain).toNat])

/-- GET_CERTIFICATE, R364: a part of the chain, and what remains. -/
def execGetCertificate (off len : Nat) (s : State) : Host.Outcome State Fault Refusal :=
  s.spdm (s.mailbox 0x82 ((s.chain.length - (off + len)) :: natsOf ((s.chain.drop off).take len)))

/-- CHALLENGE, R364: signed with the alias key. -/
def execChallenge (nonce : Nat) (s : State) : Host.Outcome State Fault Refusal :=
  s.spdm (s.mailbox 0x83 [(Config.sha384 s.chain).toNat, nonce, Config.aliasSign s.plat.digest nonce])

/-- A measurement block (R364). -/
def State.measurement (s : State) (index : Nat) : List Nat :=
  match index with
  | 1 => [Config.romMeasurement.toNat]
  | 2 => [s.plat.digest.toNat]
  | 3 => [Config.fuseSvn, (Config.fuseKeyHash 0).toNat, (Config.fuseKeyHash 1).toNat]
  | 4 => [s.devid, s.sys.agep, s.host.flogBase, s.host.flogSize, s.host.flogSeq] ++
      (List.range 64).map (fun i => Table.get s.sys.staging 0 i)
  | _ => []

/-- GET_MEASUREMENTS, R364: index 0 asks for how many there are, 0xFF for all, and another for one block; with a nonce the answer
carries a signature by the alias key (log entry 13). -/
def execGetMeasurements (req : MeasureReq) (s : State) : Host.Outcome State Fault Refusal :=
  let blocks := if req.index = 0 then [4] else if req.index = 0xFF then [1, 2, 3, 4].flatMap s.measurement else s.measurement req.index
  let signed := match req.nonce with
    | some n => blocks ++ [Config.aliasSign s.plat.digest n]
    | none => blocks
  s.spdm (if req.index ≤ 4 ∨ req.index = 0xFF then s.mailbox 0xE0 signed else s.mailbox 0x7F [1])

/-- KEY_EXCHANGE, R364: opens a session, which FINISH completes. -/
def execKeyExchange (share : Nat) (s : State) : Host.Outcome State Fault Refusal :=
  let t : State := { s with host := { s.host with session := 1 } }
  s.spdm (t.mailbox 0xE4 [Config.exchangeShare share, Config.aliasSign s.plat.digest share])

/-- FINISH, R364. -/
def execFinish (mac : Nat) (s : State) : Host.Outcome State Fault Refusal :=
  s.spdm (
    if s.host.session = 1 ∧ Config.finishVerifies mac then
      ({ s with host := { s.host with session := 2 } } : State).mailbox 0xE5 []
    else ({ s with host := { s.host with session := 0 } } : State).mailbox 0x7F [6])

/-- IDE_KM, R319, R364: link IDE has one stream, and its keys come over a secured session. -/
def execIdeKm (stream key : Nat) (s : State) : Host.Outcome State Fault Refusal :=
  s.spdm (
    if s.host.session = 2 ∧ stream = 0 then
      ({ s with host := { s.host with ideKeys := Table.set s.host.ideKeys stream key } } : State).mailbox 2 [stream]
    else s.mailbox 0x7F [1])

/-! ## Resets (R368) -/

/-- The state after a cold reset: memory of the device as it reads after power-on, and of the host as it is; the alias
certificates, and what is the model's own, are kept (R368; log entries 2 to 4). -/
def State.coldReset (s : State) : State :=
  { State.reset with
    mem := s.mem.filter (fun c => decide (2 ^ 64 ≤ c.1))
    plat := { aliases := s.plat.aliases }
    agenda := s.agenda, freeCount := s.freeCount, serial := s.serial }

/-- COLD_RESET, R368. -/
def execColdReset (s : State) : Host.Outcome State Fault Refusal := .next s.coldReset

/-- A location that a fundamental or hot reset keeps: host memory, the HBM and the low-power DRAM, and L2 staging memory,
which the table of R368 does not name and which therefore holds what was last written to it (R2; log entry 83). -/
def keptByReset (l : Nat) : Bool := decide (2 ^ 64 ≤ l) || isHbm l || isTier l || isStaging l

/-- The belay records of the group slots are cleared, that is undefined, also where the memory that holds them is kept (R368). -/
def State.loseRecords (s : State) : State :=
  s.groups.foldl (fun s g =>
    if g.2.recb = 0 then s
    else s.setBytes ((locsFrom g.2.recb 64).map (fun l => (l, Config.freeByte s.freeCount l)))) s

/-- A fundamental or hot reset keeps memory, with what L1 and L2 held Dirty, which was last written (R2, R368). The staging splits
stay with the staging memory: the table does not name them either (log entry 83). A stop by a die at CRIT stays (R367, log entry
111). -/
def State.hotReset (s : State) : State :=
  let s := s.cores.foldl (fun s c => s.cleanCore c.1) s
  let t := s.coldReset
  { t with
    plat := { t.plat with stopped := s.plat.crit, crit := s.plat.crit }
    mem := (s.loseRecords.mem).filter (fun c => keptByReset c.1), freeCount := s.freeCount + 1
    sys := { t.sys with
      staging := s.sys.staging, poison := s.sys.poison.filter (fun sec => keptByReset (sec * 64)) } }

/-- FUNDAMENTAL_RESET, R368. -/
def execFundamentalReset (s : State) : Host.Outcome State Fault Refusal := .next s.hotReset

/-- A function level reset kills the running gangs with status 2 and code 0x45, each with a fault record, for which R385 gives
no kind: that is a free value (R384; log entry 82). It clears the queue table and the event and MSI-X registers (R368). -/
def State.functionReset (s : State) : State :=
  let kind := (Config.freeEvent s.freeCount).toNat % 2 ^ 16
  let s := (List.range 64).foldl (fun s h => s.killSlot h kind 2 0x45 0) { s with freeCount := s.freeCount + 1 }
  { s with
    slots := [], queues := [], mapDue := 0, agedAt := none
    sys := { s.sys with tlb := s.sys.tlb.filter (fun e => !e.host) }
    cores := s.cores.map (fun c => (c.1, { c.2 with tlb := c.2.tlb.filter (fun e => !e.host) }))
    host := { s.host with
      evbase := 0, evsize := 0, evseq := 0, evack := 0, msix := [], msixPend := [], asks := [] } }

/-- FUNCTION_LEVEL_RESET, R368. -/
def execFunctionLevelReset (s : State) : Host.Outcome State Fault Refusal := .next s.functionReset

end Sys2Proof.Machine
end

