-- ==== Sys2Proof/Machine/HostPort.lean ====
section
/-! DEFINITION. The host side of translation and of memory: walks and invalidations, ATS and PRI, BAR2, staging splits, the
export space, and PCIe errors (R98, R102, R104, R105, R115, R320, R321, R407, R432). -/

namespace Sys2Proof.Machine

/-! ## Device-local translation (R98, R102, R104, R115) -/

/-- PAGE_WALK_COMPLETE, R102: the walk of a page ends, and the TLB takes the entry; a walk that faults leaves the TLB as it
is, and one that waits for a stack is not complete (R420). -/
def execPageWalkComplete (die space va : Nat) (s : State) : Host.Outcome State Fault Refusal :=
  let w := (s.sys.walks.find? (fun w => !w.failed && w.isFor die space (va / 2 ^ 16))).getD
    { die := die, pages := [(space, va / 2 ^ 16)], who := [] }
  happens (s.walkOver w) s (s.endWalk w)

/-- TLB_INVALIDATION, R104, R332. -/
def execTlbInvalidation (space va len : Nat) (s : State) : Host.Outcome State Fault Refusal :=
  .next (s.invalidate (.range space va len))

/-- STAGING_SPLIT_WRITE, R115: only while no gang runs on the die. -/
def execStagingSplitWrite (die slice mib : Nat) (s : State) : Host.Outcome State Fault Refusal :=
  .next (s.writeSplit (16 * die + slice) mib)

/-- EXPORT_SPACE_DESIGNATION, R98. -/
def execExportSpaceDesignation (on : Bool) (root : Nat) (s : State) : Host.Outcome State Fault Refusal :=
  .next { s with fab := { s.fab with spaceRoot := if on then some root else none } }

/-! ## ATS and PRI (R105, R289, R320, R407) -/

/-- The oldest question of an asker that satisfies a test. -/
def State.askOf (s : State) (who : Nat) (p : Ask → Bool) : Option Ask := s.host.asks.find? (fun a => a.who == who && p a)

/-- A question is answered. -/
def State.dropAsk (s : State) (a : Ask) : State := { s with host := { s.host with asks := s.host.asks.erase a } }

/-- A question changes. -/
def State.putAsk (s : State) (a b : Ask) : State :=
  { s with host := { s.host with asks := s.host.asks.map (fun x => if x = a then b else x) } }

/-- The strand that asked still waits for the answer. -/
def State.asker (s : State) (a : Ask) : Bool := decide (a.who < 1024) && (s.strand a.who).pri == some a.addr

/-- The asker goes on and translates again (R105, R289, R407). -/
def State.goOn (s : State) (a : Ask) : State :=
  let s := s.dropAsk a
  if s.asker a then s.onStrand a.who (fun x => { x with pri := none, tried := none })
  else if 1024 ≤ a.who ∧ a.who < 2048 then
    s.onEngine (a.who - 1024) (fun e => { e with run := e.run.map (fun h =>
      if h.missing = some a.addr then { h with missing := none } else h) })
  else s

/-- The host cannot give a page that a slot asked for: a packet cannot be read, a save area or a record not be written, a
counter not be increased; an image's page is bad (R71), and any other page of a launch ends it with status 3. -/
def State.slotRefused (s : State) (h n va : Nat) : State :=
  match (s.slot h).queue, s.gangAt h with
  | some q, g =>
    match n, g with
    | 1, _ => s.stopQueue q
    | 2, _ => s.onGang h (fun g => { g with lostArea := true })
    | 3, some g => if g.phase = .closing then s.endLaunch h else s.stopQueue q
    | 3, none => s.stopQueue q
    | 0, some g =>
      if g.phase = .loading then s.onGang h (fun g => { g with refused := va :: g.refused })
      else if g.phase = .running ∨ g.phase = .freezing then s.closeLaunch h g.status g.code
      else if g.phase = .waiting then s.closeLaunch h 3 0
      else s
    | _, _ => s
  | none, _ => s

/-- The host's answer cannot resolve the access: the context is killed, the command ends with ST = 1, the launch ends
with status 3, or a reload marks what it cannot read bad (R268, R289, R306, R320, R407). -/
def State.askFails (s : State) (a : Ask) : State :=
  let s := s.dropAsk a
  if s.asker a then
    let s := if a.paged then s else s.rollBack a.who
    s.onStrand a.who (fun x => { x with pri := none, fw := some (.kill 1 0x18 a.tba 0 0x18 a.addr 0) })
  else if 8192 ≤ a.who then
    s.onRope (a.who - 8192) (fun r => { r with reloads := r.reloads.map (fun l => { l with refused := a.addr :: l.refused }) })
  else if 2048 ≤ a.who then s.slotRefused ((a.who - 2048) % 64) ((a.who - 2048) / 64) a.addr
  else if 1024 ≤ a.who then
    match (s.engine (a.who - 1024)).run.findIdx? (fun h => h.missing = some a.addr) with
    | some i => s.endHaul (a.who - 1024) i
    | none => s
  else s

/-- The entry of a completion that covers 64 KiB or more, or of one of 4 KiB (R105). Of a completion that covers more than
64 KiB the spec does not say which entries are filled: here it is that of the page asked for alone (log entry 127). -/
def Ask.entry (a : Ask) (frame : Nat) (large : Bool) : TlbEntry :=
  { die := a.die, root := a.pasid, page := a.addr / 2 ^ 12, mask := if large then 1 else 0, pte := frame, host := true }

/-- Whose translation the asker's is, as those who wait for a walk are numbered: a slot's is its queue's. -/
def State.holder (s : State) (a : Ask) : Nat :=
  if 2048 ≤ a.who ∧ a.who < 4096 then 16384 + ((s.slot ((a.who - 2048) % 64)).queue).getD 0 else a.who

/-- A translation goes into the TLB of the asker's die, in place of an older one of its page (R105). -/
def State.takeAts (s : State) (a : Ask) (e : TlbEntry) : State :=
  let old (x : TlbEntry) : Bool := x.die == e.die && x.coversHost e.root (e.page * 2 ^ 12)
  (({ s with sys := { s.sys with tlb := s.sys.tlb.filter (fun x => !old x) } } : State).addTlb e).giveEntry [s.holder a] e

/-- The host's allocation of page requests has room, of which there are at most 1,024 (R319). -/
def State.pageRoom (s : State) : Bool :=
  let n := (s.host.asks.filter (·.paged)).length
  decide (n < 1024) && decide (n < Config.pageRequests + 1)

/-- A page request goes out, or waits on the device (R319, R407). -/
def State.sendPage (s : State) (a : Ask) : State :=
  if s.pageRoom then
    let s := s.putAsk a { a with paged := true, queued := false, sentAt := s.cyc.toNat }
    { s with host := { s.host with ats := s.host.ats ++ [(2, a.pasid, a.addr)] } }
  else s.putAsk a { a with queued := true }

/-- ATS cannot translate: the strand rolls back, and a page request goes out (R105, R406). -/
def State.pageRequest (s : State) (a : Ask) : State :=
  (if s.asker a then s.rollBack a.who else s).sendPage a

/-- A translation request is refused or lost: it is sent once more later, and the second time the access fails (R407). -/
def State.atsError (s : State) (a : Ask) : State :=
  if a.retried then s.askFails a else s.putAsk a { a with failedAt := some s.cyc.toNat }

/-- ATS_COMPLETION, R105, R407: status 0 success, 1 no translation, other values an error. A frame is in units of 4 KiB;
one below 2^29 lies in the device's memory BAR, and others are host pages (log entry 10). -/
def execAtsCompletion (strand status frame : Nat) (large : Bool) (s : State) : Host.Outcome State Fault Refusal :=
  match s.askOf strand (fun a => !a.paged && !a.queued && a.failedAt.isNone) with
  | none => .next s
  | some a =>
    .next (if status = 0 then (s.takeAts a (a.entry frame large)).goOn a
      else if status = 1 then s.pageRequest a
      else s.atsError a)

/-- ATS_RETRY, R407: 2^16 cycles after the error. -/
def execAtsRetry (strand : Nat) (s : State) : Host.Outcome State Fault Refusal :=
  match s.askOf strand (fun a => a.failedAt.any (fun t => decide (t + 2 ^ 16 ≤ s.cyc.toNat))) with
  | none => .next s
  | some a =>
    let t := s.putAsk a { a with failedAt := none, retried := true, sentAt := s.cyc.toNat }
    .next { t with host := { t.host with ats := t.host.ats ++ [(1, a.pasid, a.addr)] } }

/-- PRI_RESPONSE, R320, R407. -/
def execPriResponse (strand : Nat) (success : Bool) (s : State) : Host.Outcome State Fault Refusal :=
  match s.askOf strand (·.paged) with
  | none => .next s
  | some a => .next (if success then s.goOn a else s.askFails a)

/-- PRI_TIMEOUT, R407: 2^28 CYC cycles without a response. -/
def execPriTimeout (strand : Nat) (s : State) : Host.Outcome State Fault Refusal :=
  match s.askOf strand (fun a => a.paged && decide (a.sentAt + 2 ^ 28 ≤ s.cyc.toNat)) with
  | none => .next s
  | some a => .next (s.askFails a)

/-- An entry of ATS covers part of a range of a PASID. -/
def TlbEntry.meets (e : TlbEntry) (pasid va len : Nat) : Bool :=
  let size := if e.mask = 1 then 2 ^ 16 else 2 ^ 12
  let lo := e.page * 2 ^ 12 / size * size
  e.host && e.root == pasid && decide (lo < va + len) && decide (va < lo + size)

/-- The frames of 64 KiB that an entry of ATS leads to. -/
def TlbEntry.hostFrames (e : TlbEntry) : List Nat :=
  match hostReach (e.frameOf (e.page * 2 ^ 12)) 0 with
  | .ok l _ => [l / 2 ^ 16]
  | _ => []

/-- Every entry of ATS that a TLB or a waiting access holds and that a host's invalidation reaches. -/
def State.hostEntries (s : State) (pasid va len : Nat) : List TlbEntry :=
  (s.sys.tlb ++ s.cores.flatMap (fun c => c.2.tlb) ++ s.sys.found.map (·.2) ++ s.strands.flatMap (fun k => k.2.found)).filter
    (·.meets pasid va len)

/-- ATS_INVALIDATION, R105, R104: the entries go at once, and the host is told once no earlier access still uses one. -/
def execAtsInvalidation (pasid va len : Nat) (s : State) : Host.Outcome State Fault Refusal :=
  let frames := ((s.hostEntries pasid va len).flatMap TlbEntry.hostFrames ++ s.framesInUse (.host pasid)).dedup
  let t := s.loseEntries (·.meets pasid va len)
  .next { t with sys := { t.sys with atsInvals := t.sys.atsInvals ++ [(pasid, va, frames)] } }

/-- The first of the host's invalidations that completes: the host is told (R104, R105). -/
def State.atsInvalOver (s : State) : Option State :=
  (s.sys.atsInvals.find? (fun v => !v.2.2.any s.frameBusy)).map (fun v =>
    { s with
      sys := { s.sys with atsInvals := s.sys.atsInvals.erase v }
      host := { s.host with ats := s.host.ats ++ [(4, v.1, v.2.1)] } })

/-! ## BAR2 (R321, R414, R420, R432) -/

/-- A range of BAR2 lies within the populated memory. -/
def barRange (off n : Nat) : Bool := (locsFrom off n).all (fun l => isHbm l || isTier l)

/-- An entry of the AER log: class and kind. -/
def State.aer (s : State) (cls kind : Nat) : State := { s with host := { s.host with aer := s.host.aer ++ [(cls, kind)] } }

/-- A host write performs at the home of its locations (R321); poisoned data makes poisoned sectors (R432). -/
def State.barWrite (s : State) (off : Nat) (data : List Byte) (poisoned : Bool) : State :=
  let cells := (locsFrom off data.length).zip data
  let secs := ((locsFrom off data.length).map (· / 64)).dedup
  let s := (secs.foldl State.cleanL2 s).writeHome cells []
  if poisoned then { s with sys := { s.sys with poison := secs ++ s.sys.poison.filter (fun x => !secs.contains x) } } else s

/-- A host read is answered (R321): a poisoned sector is read as such, with a non-fatal error (R415). -/
def State.barRead (s : State) (off n : Nat) : State :=
  let ls := locsFrom off n
  let answer (s : State) (r : Nat × List Byte) : State := { s with host := { s.host with reads := s.host.reads ++ [r] } }
  if ls.any (fun l => s.sys.poison.contains (l / 64)) then (answer s (2, [])).aer 1 5 else answer s (0, ls.map s.byte)

/-- The request must wait for a stack in critical self-refresh (R420), for the link between CD0, where the host's traffic
enters, and the die of its memory (R14, R16, R431), or a read for the repair of a poisoned sector of a protected line (R415,
R416). -/
def State.barWaits (s : State) (r : HostReq) : Bool :=
  let held (l : Nat) : Bool := s.sleeping l || s.cutOff 0 (homeDie l)
  match r with
  | .write off data _ => (locsFrom off data.length).any held
  | .read off n => (locsFrom off n).any (fun l => held l || s.repairable (l / 64))

/-- Serve a request. -/
def State.barServe (s : State) (r : HostReq) : State :=
  match r with
  | .write off data p => s.barWrite off data p
  | .read off n => s.barRead off n

/-- A request arrives: it is served in order, behind those that wait (R321, R420). -/
def State.barRequest (s : State) (r : HostReq) : State :=
  if s.host.bar2.isEmpty && !s.barWaits r then s.barServe r
  else { s with host := { s.host with bar2 := s.host.bar2 ++ [r] } }

/-- The first waiting request that can be served. -/
def State.barNext (s : State) : Option State :=
  match s.host.bar2 with
  | [] => none
  | r :: t => if s.barWaits r then none else some (({ s with host := { s.host with bar2 := t } } : State).barServe r)

/-- BAR2_WRITE, R321: outside the memory a write is dropped, with an advisory error. -/
def execBar2Write (off : Nat) (data : List Byte) (s : State) : Host.Outcome State Fault Refusal :=
  .next (if barRange off data.length then s.barRequest (.write off data false) else s.aer 1 1)

/-- BAR2_READ, R321: outside the memory a read completes with Unsupported Request. -/
def execBar2Read (off len : Nat) (s : State) : Host.Outcome State Fault Refusal :=
  .next (if barRange off len then s.barRequest (.read off len)
    else (({ s with host := { s.host with reads := s.host.reads ++ [(1, [])] } } : State).aer 1 1))

/-! ## PCIe errors (R432) -/

/-- PCIE_CORRECTABLE_ERROR, R432, R369. -/
def execPcieCorrectableError (kind : Nat) (s : State) : Host.Outcome State Fault Refusal := .next ((s.aer 0 kind).recoverable)

/-- PCIE_POISONED_TLP, R432. -/
def execPciePoisonedTlp (off : Nat) (data : List Byte) (s : State) : Host.Outcome State Fault Refusal :=
  .next (if barRange off data.length then (s.barRequest (.write off data true)).aer 1 2 else s.aer 1 2)

/-- A strand has a result of a local load in flight. -/
def Strand.loads (x : Strand) : Bool := x.inflight.any (fun e => e.source == .memory && !e.landed)

/-- A command reads host memory. -/
def State.readsHost (s : State) (h : Haul) : Bool :=
  match s.haulPlan h with
  | .error _ => true
  | .ok l => (s.sourceParts h l).any (fun p => decide (2 ^ 64 ≤ p.loc))

/-- A read of host memory fails (R427, R432): the context of a strand is killed with sub-code 3 and a TINFO whose other
bits are free (log entry 3); a haul command that reads host memory, named as 1024 + its engine + 64 times its place among the
running ones, ends with ST = 1. -/
def State.readFails (s : State) (who : Nat) : State :=
  if who < 1024 then
    if (s.strand who).loads then
      let info := 3 * 2 ^ 56 + (Config.freeEvent s.freeCount).toNat % 2 ^ 56
      ({ s with freeCount := s.freeCount + 1 } : State).onStrand who (fun x =>
        { x with fw := x.fw.or (some (.kill 1 0x18 0 0 0x18 info 0)) })
    else s
  else
    let e := (who - 1024) % 64
    let idx := (who - 1024) / 64
    match (s.engine e).run[idx]? with
    | some h => if s.readsHost h && !h.moved then s.endHaul e idx else s
    | none => s

/-- PCIE_COMPLETION_ERROR, R432: an ATS request follows R407, and any other read R427. -/
def execPcieCompletionError (strand : Nat) (ats : Bool) (s : State) : Host.Outcome State Fault Refusal :=
  let s := s.aer 1 3
  .next (if ats then
      match s.askOf strand (fun a => !a.paged && !a.queued && a.failedAt.isNone) with
      | some a => s.atsError a
      | none => s
    else s.readFails strand)

/-- UNEXPECTED_COMPLETION, R432: discarded and logged. -/
def execUnexpectedCompletion (_tag : Nat) (s : State) : Host.Outcome State Fault Refusal := .next (s.aer 1 4)

/-- PCIE_FATAL_ERROR, R432: logged; the device runs on. -/
def execPcieFatalError (kind : Nat) (s : State) : Host.Outcome State Fault Refusal := .next (s.aer 2 kind)

/-- PCIE_LINK_DOWN, R432: a hot reset; the error is logged like the others, and the table gives it no class (log entry 135). -/
def execPcieLinkDown (s : State) : Host.Outcome State Fault Refusal := .next (s.hotReset.aer 2 5)

end Sys2Proof.Machine
end

