-- ==== Sys2Proof/Machine/Recovery.lean ====
section
/-! DEFINITION. Losing a member of a coding group: record reads, declarations, settling, rebuild into the reserve, the
repair of a protected line, and the windows of the fabric that carry parity and rebuild traffic (R342, R416, R435 to
R450). -/

namespace Sys2Proof.Machine

/-! ## The windows (R342, R435, R443) -/

/-- The member reads and writes that the fabric ingress does not translate. -/
inductive Window where
  | cairn (p slot off : Nat)
  | data (slot off : Nat)
  | parity (slot off : Nat)
deriving DecidableEq, Repr

/-- The window that an export address lies in. -/
def windowOf (a : Nat) : Option Window :=
  let top := fld a 40 10
  if top = 0x3FF then some (.cairn (fld a 39 1) (fld a 35 4) (fld a 0 35))
  else if 0x3E0 ≤ top ∧ top < 0x3F0 then some (.data (top - 0x3E0) (fld a 0 40))
  else if top = 0x3F0 ∧ fld a 35 1 = 0 then some (.parity (fld a 36 4) (fld a 0 35))
  else none

/-- The address lies at or above the lowest window: it is never translated (R443). -/
def aboveExports (a : Nat) : Bool := decide (0x3E0 * 2 ^ 40 ≤ a)

/-! ## Deltas at their holder (R342) -/

/-- A delta is added into the staging entry of its parity line (R342). -/
def State.addDelta (s : State) (e : Stage) (bytes : List Byte) : State :=
  let g := s.group e.grp
  s.setBytes ((locsFrom (g.imageAt g.stageReg e.place) 256).zip
    (bytesOf (xorBytes (natsOf (s.entryImage e.grp g.stageReg e.place)) (natsOf bytes))))

/-- Write data that carry the poison indication are stored as poisoned lines (R414, R428). -/
def State.poisonIf (s : State) (poison : Bool) (line : Nat) : State := if poison then s.poisonLine line else s

/-- A delta arrives: its status, 0 done and 2 an error completion, and the state after. -/
def State.stageDelta (s : State) (r : FabReq) : Nat × State :=
  match windowOf r.addr with
  | some (.cairn p slot off) =>
    let g := s.group slot
    let bytes := toBytes 256 r.data
    if !g.enabled || g.lostSender r.src || off % 256 != 0 || decide (g.punits * 2 ^ 16 ≤ off) || r.len != 256 then (2, s)
    else
      let places := (s.cairn.stage.filter (fun e => e.grp = slot)).map (·.place)
      match s.cairn.stage.find? (fun e => e.grp == slot && e.bit == p && e.off == off) with
      | some e => (0, (s.addDelta e bytes).poisonIf r.poison (g.imageAt g.stageReg e.place / 256))
      | none =>
        if g.room g.stageReg ≤ places.length then (2, s)
        else
          let e : Stage := { grp := slot, bit := p, off := off, place := freePlace places }
          let s := (s.openEntry slot g.stageReg e.place p (off / 256) bytes).poisonIf r.poison
            (g.imageAt g.stageReg e.place / 256)
          (0, { s with cairn := { s.cairn with stage := s.cairn.stage ++ [e] } })
  | _ => (2, s)

/-! ## Answers, and waiting in the ingress (R138, R327, R420) -/

/-- Answer a request: the device's own requesters directly, a peer's over the fabric, by the station at which it has come in (R327;
log entry 59). Status 0 data or acknowledgement, 1 a ticket, 2 the standard error completion, 3 poison. -/
def State.respond (s : State) (r : FabReq) (status data : Nat) : State :=
  if r.src = s.devid then s.reply r.who r.tag status data
  else s.depart (ingressDie r) (.reply r.src r.port r.who r.tag status data)

/-- Two requests are of one pair of requester and class. -/
def samePair (a b : FabReq) : Bool := a.src == b.src && a.who == b.who && a.cls == b.cls

/-- The oldest request of its pair stays in the ingress, where the pair's later ones wait behind it. -/
def State.queueIn (s : State) (r : FabReq) : State := { s with fab := { s.fab with ingress := r :: s.fab.ingress } }

/-- A request comes in, or one that has waited in the ingress is served; behind an earlier one of its pair it waits there
(R138). -/
def State.enter (s : State) (r : FabReq) (serve : State → State) : State :=
  if (s.fab.ingress.takeWhile (· ≠ r)).any (samePair r) then
    (if s.fab.ingress.contains r then s else { s with fab := { s.fab with ingress := s.fab.ingress ++ [r] } })
  else serve { s with fab := { s.fab with ingress := s.fab.ingress.erase r } }

/-- A request of a window is served when it does not wait for a stack or a repair; else it stays in the ingress. -/
def State.serveUnless (s : State) (waits : Bool) (r : FabReq) (f : State → Nat × Nat × State) : State :=
  if waits then s.queueIn r
  else
    let x := f s
    x.2.2.respond r x.1 x.2.1

/-- A delta is staged and answered (R342); one for a stack in critical self-refresh waits (R420). -/
def State.serveDelta (s : State) (r : FabReq) : State :=
  let waits := match windowOf r.addr with
    | some (.cairn _ slot _) => s.sleeping (s.group slot).parb
    | _ => false
  s.serveUnless waits r (fun s => ((s.stageDelta r).1, 0, (s.stageDelta r).2))

/-- DELTA_WRITE, R342, R428. -/
def execDeltaWrite (who : Requester) (addr : Nat) (data : WriteData) (s : State) : Host.Outcome State Fault Refusal :=
  .next (s.enter (who.write addr data) (fun s => s.serveDelta (who.write addr data)))

/-! ## Settling (R435 to R441) -/

/-- Members with a clear LIVE bit, as a fence mask. -/
def Group.fenceMask (g : Group) : Nat := memberBits (fun i => !g.live i) g.n

/-- The cairn engine that sends a group's record reads and rebuild traffic: of the stack that holds its belay record (log
entry 95). -/
def Group.sender (x : Group) : Nat := 1096 + x.recb / 2 ^ 36

/-- Send a record read to member `j` of a group; one that is unreachable counts as a miss (R435, R440). -/
def State.readRecord (s : State) (g j : Nat) : State :=
  let x := s.group g
  if s.reachable (x.acc j) then
    let tag := s.serial
    let r : FabReq := { src := s.devid, who := x.sender, tag := tag, cls := 0, op := 0, len := 64, aop := 0, fmt := 0
                        addr := 0x3FF0000000000 + g * 2 ^ 35 + x.fenceMask, data := 0, cmp := 0, poison := false, dxp := true }
    (({ s with serial := tag + 1 } : State).transmit (x.acc j) r).onGroup g (fun y =>
      { y with asked := y.asked ++ [(j, tag, s.cyc.toNat)] })
  else s.onGroup g (fun y => { y with miss := Table.set y.miss j (Table.get y.miss 0 j + 1) })

/-- PITCH, PEND and DEC of this member's belay record. -/
def State.ownRecord (s : State) (g : Nat) : Nat × Nat × Nat := (s.recGet g 0 8, s.recGet g 8 8, s.recGet g 16 1)

/-- The recovery coordinator stops its belay timer and reads every live member's record (R440). -/
def State.startSettling (s : State) (g : Nat) : State :=
  let x := s.group g
  let s := s.onGroup g (fun y => { y with timer := none, settle := some [(x.midx, s.ownRecord g)] })
  (x.livers.filter (· ≠ x.midx)).foldl (fun s j => s.readRecord g j) s

/-- The member stops: its open commit and its tracked pitch abort with cause 8 (R438, R439). An expelled one has stopped for
good. -/
def State.stopGroup (s : State) (g : Nat) (expelled : Bool) : State :=
  if (s.group g).expelled then s else
  let s := s.onGroup g (fun x => { x.setSt 3 with settle := none, expelled := x.expelled || expelled })
  (s.applyAbort g ((s.group g).pitch + 1) 8).lateKill g

/-- The live members suffice (R439). -/
def Group.quorate (g : Group) : Bool := decide (max g.k (g.n / 2 + 1) ≤ g.livers.length)

/-- A loss counts once for each accelerator until it is rebuilt (R450). -/
def State.countLoss (s : State) (acc : Nat) : State :=
  if s.cairn.losses.contains acc then s
  else { s with cairn := { s.cairn with losses := acc :: s.cairn.losses, lossCount := s.cairn.lossCount + 1 } }

/-- A member is declared lost (R437). -/
def State.declareLost (s : State) (g i : Nat) : State :=
  let x := s.group g
  if !x.live i || i == x.midx then s
  else
    let s := (s.onGroup g (fun y =>
      { (y.setField (0x100 + 8 * i) 63 1 0).setField 0x1C0 (24 + i) 1 1 with
        lostAcc := Table.set y.lostAcc i (y.acc i), gone := y.acc i :: y.gone, miss := Table.set y.miss i 0 })).countLoss (x.acc i)
    if x.building then s
    else
      let s := if x.st = 3 then s else s.onGroup g (fun y => y.setSt 1)
      let s := if (s.group g).quorate || (s.group g).st == 3 then s else s.stopGroup g false
      let y := s.group g
      let s := s.pitchEvent g (y.pitch + 1) 2 4
      match y.coordinator with
      | none => s
      | some c =>
        if c = y.midx then (if y.st = 1 then s.startSettling g else s)
        else s.belayMsg g 11 (y.acc c) 0 0 (y.pitch + 1)

/-- Declare every member of a mask lost. -/
def State.declareMask (s : State) (g mask : Nat) : State :=
  ((List.range (s.group g).n).filter (bitAt mask)).foldl (fun s i => s.declareLost g i) s

/-- RECORD_READ's answer: the first 32 bytes of the belay record, the LIVE bits, GRCV[63:56] (R435). -/
def State.recordReply (s : State) (g : Nat) : Nat :=
  let x := s.group g
  s.recGet g 0 32 + memberBits x.live 24 * 2 ^ 256 + fld (x.reg 0x1C0) 56 8 * 2 ^ 288

/-- A record read is served: its status and data, and the state after. A fence mask declares members lost when a live member
sends it, and expels this one whoever does (R435, R437, R438). -/
def State.readOwnRecord (s : State) (r : FabReq) : Nat × Nat × State :=
  match windowOf r.addr with
  | some (.cairn p slot off) =>
    let g := s.group slot
    if r.len != 64 || p != 0 || decide (2 ^ 24 ≤ off) || !g.enabled then (2, 0, s)
    else
      let fromLive := match g.memberOf r.src with
        | some i => g.live i
        | none => false
      let mask := off
      let s := if fromLive then s.declareMask slot (setFld mask g.midx 1 0) else s
      let s := if bitAt mask g.midx && !g.rbt then s.stopGroup slot true else s
      (0, s.recordReply slot, s)
  | _ => (2, 0, s)

/-- A record read is answered (R435); while the stack of the belay record is in critical self-refresh it waits (R420). -/
def State.serveRecord (s : State) (r : FabReq) : State :=
  let waits := match windowOf r.addr with
    | some (.cairn _ slot _) => s.sleeping (s.group slot).recb
    | _ => false
  s.serveUnless waits r (fun s => s.readOwnRecord r)

/-- RECORD_READ, R435. -/
def execRecordRead (who : Requester) (addr : Nat) (s : State) : Host.Outcome State Fault Refusal :=
  .next (s.enter (who.read addr 64) (fun s => s.serveRecord (who.read addr 64)))

/-- When settling ends with a member lost and a reserve configured, the reserve takes its entry (R445). -/
def Group.adoptReserve (g : Group) : Group :=
  let lost := (List.range g.n).find? (fun i => bitAt g.lost i && Table.find g.lostAcc i == some (g.acc i))
  match lost, g.bit 0x28 63 with
  | some i, true => (g.setField (0x100 + 8 * i) 0 10 (fld (g.reg 0x28) 0 10)).setField 0x28 63 1 0
  | _, _ => g

/-- A DECISION is acted on, which ends the settling (R441, R445, R449). -/
def State.actDecision (s : State) (g n v : Nat) : State :=
  let s := if v = 1 then (s.applyCommit g n 4).applyAbort g (n + 1) 4
    else s.applyAbort g n 4
  let s := s.onGroup g (fun x =>
    let x := { x with settle := none }
    (x.setSt (if x.lost = 0 then 0 else 2)).adoptReserve)
  s.lateKill g

/-- A member accepts a DECISION for pitch `n` (R441): 1 commits, 2 aborts. -/
def Group.takesDecision (g : Group) (src n v : Nat) : Bool :=
  g.st == 1 && n == g.pitch + 1 && (v == 1 || v == 2) && g.coordinator.map g.acc == some src

/-- Every live member has answered: the coordinator decides and tells each (R440). -/
def State.trySettle (s : State) (g : Nat) : State :=
  let x := s.group g
  match x.settle with
  | none => s
  | some recs =>
    if x.st = 1 ∧ x.leads ∧ x.livers.all (fun j => (Table.find recs j).isSome) then
      let rec_ (j : Nat) : Nat × Nat × Nat := Table.get recs (0, 0, 0) j
      let q := (x.livers.map (fun j => (rec_ j).1)).foldl min (rec_ x.midx).1
      let n := q + 1
      let commit := x.livers.any (fun j => decide (n ≤ (rec_ j).1) || ((rec_ j).2.1 == n && (rec_ j).2.2 == 1))
      let told (j : Nat) : Nat × Nat := if (rec_ j).1 = q then (n, if commit then 1 else 2) else (n + 1, 2)
      let s := (x.livers.filter (· ≠ x.midx)).foldl (fun s j =>
        s.belayMsg g 12 (x.acc j) (told j).2 0 (told j).1) s
      let mine := told x.midx
      if x.takesDecision s.devid mine.1 mine.2 then s.actDecision g mine.1 mine.2 else s
    else s

/-- DECISION, R441: one that is not accepted is dropped and counted. -/
def execDecision (msg : Msg) (s : State) : Host.Outcome State Fault Refusal :=
  match s.belayGroup msg with
  | none => .next (s.countStat 0 48 16)
  | some g =>
    if (s.group g).takesDecision msg.src msg.pitch msg.val then .next (s.actDecision g msg.pitch msg.val)
    else .next (s.countStat 0 48 16)

/-- QUERY, R437: the recovery coordinator starts settling if it has not. -/
def execQuery (msg : Msg) (s : State) : Host.Outcome State Fault Refusal :=
  match s.belayGroup msg with
  | none => .next (s.countStat 0 48 16)
  | some g =>
    let x := s.group g
    happens (x.leads && x.st != 3 && !x.building && x.settle.isNone) s
      ((s.onGroup g (fun y => y.setSt 1)).startSettling g)

/-- The members that a member probes: the live ones, and a reserve that has taken a lost member's entry (R436, R445). -/
def Group.probed (g : Group) : List Nat :=
  (List.range g.n).filter (fun i => i != g.midx &&
    (g.live i || (bitAt g.lost i && Table.find g.lostAcc i != some (g.acc i))))

/-- The probe period in cycles (R436). -/
def Group.period (g : Group) : Nat := max 1 (fld (g.reg 0x1C8) 0 16) * 1024

/-- A probe of a member: one that has become unreachable is declared lost (R436, R437). -/
def State.probe (s : State) (g i : Nat) : State :=
  if s.reachable ((s.group g).acc i) then s.readRecord g i else s.declareLost g i

/-- PROBE_PERIOD, R436, R438. -/
def execProbePeriod (grp : Nat) (s : State) : Host.Outcome State Fault Refusal :=
  let g := s.group grp
  happens (g.enabled && !g.building && !g.expelled && decide (g.probeAt + g.period ≤ s.cyc.toNat)) s
    ((g.probed.foldl (fun s i => s.probe grp i) s).onGroup grp (fun x => { x with probeAt := s.cyc.toNat }))

/-- A probe or settling read of a member misses (R436, R437, R440). -/
def State.probeMiss (s : State) (g i : Nat) : State :=
  let x := s.group g
  let n := Table.get x.miss 0 i + 1
  let s := s.onGroup g (fun y => { y with miss := Table.set y.miss i n })
  if x.live i && decide (max 1 (fld (x.reg 0x1C8) 16 16) ≤ n) then s.declareLost g i else s

/-- The reserve in place of member `i` is rebuilt: it is live, and its LOST bit clears (R446). -/
def Group.rebuilt (g : Group) (i : Nat) : Group :=
  let y := (g.setField (0x100 + 8 * i) 63 1 1).setField 0x1C0 (24 + i) 1 0
  let y := { y with lostAcc := Table.erase y.lostAcc i, rebuild := none, miss := Table.set y.miss i 0 }
  if y.lost == 0 && y.st == 2 then y.setSt 0 else y

/-- The rebuild of member `i` has ended (R446, R450). -/
def State.memberRebuilt (s : State) (g i : Nat) : State :=
  let old := Table.get (s.group g).lostAcc 1024 i
  let s := { s with cairn := { s.cairn with losses := s.cairn.losses.filter (fun a => a != old) } }
  let s := s.onGroup g (fun y => y.rebuilt i)
  if (s.group g).st == 0 then s.lateKill g else s

/-- The reply of a reserve that has taken a lost member's entry starts the rebuild, or ends it (R445, R446). -/
def State.reserveReply (s : State) (g i data : Nat) : State :=
  let st := fld data 294 2
  if !bitAt data 293 then s
  else if st == 2 then s.onGroup g (fun x => { x with rebuild := x.rebuild.or (some 0) })
  else if st == 0 then s.memberRebuilt g i
  else s

/-- A live member's reply: a clear LIVE bit of this device expels it, those of others declare them lost; a settling
coordinator keeps the record once the member has cleared every bit that it holds clear (R437, R438, R440). -/
def State.memberReply (s : State) (g i data : Nat) : State :=
  let live := fld data 256 24
  let x := s.group g
  let s := s.onGroup g (fun y => { y with miss := Table.set y.miss i 0 })
  if !bitAt live x.midx then s.stopGroup g true
  else
    let s := s.declareMask g (memberBits (fun j => x.live j && !bitAt live j && j != i) x.n)
    let y := s.group g
    if y.st = 1 ∧ y.settle.isSome ∧ live &&& y.fenceMask = 0 then
      let r : Nat × Nat × Nat := (fld data 0 64, fld data 64 64, fld data 128 8)
      (s.onGroup g (fun z => { z with settle := z.settle.map (fun t => Table.set t i r) })).trySettle g
    else s

/-- The oldest unanswered record read of a member has ended. -/
def dropAsked (i : Nat) : List (Nat × Nat × Nat) → List (Nat × Nat × Nat)
  | [] => []
  | e :: t => if e.1 = i then t else e :: dropAsked i t

/-- Every line of a rebuild target's data space and parity area has been written (R446). -/
def Group.whole (g : Group) : Bool := decide (g.received.length = (g.psize + g.punits) * 256)

/-- The answer to the record read with which a rebuild target ends its rebuild: it is kept, or a miss sends the target to the next
live member (R446). -/
def Group.endRead (g : Group) (member status data : Nat) : Group :=
  if !g.whole || g.endReply.isSome then g
  else if status = 0 then { g with endReply := some data }
  else { g with tried := member :: g.tried }

/-- What the end of a record read of a member leads to: status 0 answered, any other a miss (R436, R437). -/
def State.recordEnd (s : State) (grp member status data : Nat) : State :=
  let g := s.group grp
  let s := match g.asked.find? (fun e => e.1 = member) with
    | some e => s.answered g.sender e.2.1
    | none => s
  let s := s.onGroup grp (fun x => { x with asked := dropAsked member x.asked })
  if !g.enabled then s
  else if g.building then s.onGroup grp (fun x => x.endRead member status data)
  else if !g.probed.contains member then s
  else if status ≠ 0 then s.probeMiss grp member
  else if g.live member then s.memberReply grp member data
  else s.reserveReply grp member data

/-- RECORD_READ_REPLY, R437: one that comes after the deadline is discarded and counted (R427, R429). -/
def execRecordReadReply (grp member status data : Nat) (s : State) : Host.Outcome State Fault Refusal :=
  if (s.group grp).asked.any (fun e => e.1 = member) then .next (s.recordEnd grp member status data)
  else .next (s.countStat 1 32 32)

/-- The member whose record read has reached its deadline (R426, R436). -/
def State.askedLate (s : State) (grp : Nat) : Option Nat :=
  ((s.group grp).asked.find? (fun e => decide (e.2.2 + s.deadline ≤ s.cyc.toNat))).map (·.1)

/-- A record read reaches its deadline: it misses (R427, R436). -/
def State.recordDeadline (s : State) (grp member : Nat) : State :=
  (s.recordEnd grp member 1 0).countStat 0 0 16

/-! ## Committed values and the windows' reads and writes (R416, R443) -/

/-- The committed value of a line: its oldest before-image, or its home value (R416). -/
def State.committed (s : State) (line : Nat) : List Byte :=
  match s.cairn.undo.find? (fun u => u.line == line) with
  | some u => s.imageOfUndo u
  | none => (locsFrom (line * 256) 256).map s.byte

/-- The line that holds an offset of a group's data space, with whether it belongs to a joining region. -/
def State.dataLine (s : State) (g o : Nat) : Option (Nat × Bool) :=
  let u := o / 2 ^ 16
  match s.cairn.regions.find? (fun r => decide (r.grp = g) && decide (r.unit ≤ u) && decide (u < r.unit + r.units)) with
  | some r => (r.frames[u - r.unit]?).map (fun f => (f * 256 + o % 2 ^ 16 / 256, r.st == .joining))
  | none =>
    if (s.group g).rbt then some ((s.group g).unitFrame u * 256 + o % 2 ^ 16 / 256, false) else none

/-- The committed 256 bytes of a data-space offset: zero outside every region and before a region's first commit. -/
def State.dataBytes (s : State) (g o : Nat) : List Byte :=
  match s.dataLine g o with
  | some (line, false) => s.committed line
  | _ => List.replicate 256 0

/-- The 256 bytes of a parity-area offset. -/
def State.parityBytes (s : State) (g o : Nat) : List Byte :=
  (locsFrom ((s.group g).parb + o / 256 * 256) 256).map s.byte

/-- A line has a poisoned sector. -/
def State.linePoisoned (s : State) (line : Nat) : Bool := s.sys.poison.any (fun x => decide (x / 4 = line))

/-- The committed value of a line cannot be read: its oldest before-image is poisoned, or its home value (R416). -/
def State.committedBad (s : State) (line : Nat) : Bool :=
  match s.cairn.undo.find? (fun u => u.line == line) with
  | some u => s.entryBad u.grp u.reg u.place
  | none => s.linePoisoned line

/-- The line whose value a window's read returns, where one is stored. -/
def State.windowLine (s : State) (w : Window) : Option Nat :=
  match w with
  | .data g o => (s.dataLine g o).bind (fun e => if e.2 then none else some e.1)
  | .parity g o => some (((s.group g).parb + o) / 256)
  | .cairn _ _ _ => none

/-- A read of a window waits: for a stack in critical self-refresh, or for the repair of its line (R416, R420). -/
def State.windowWaits (s : State) (w : Window) : Bool :=
  match s.windowLine w with
  | none => false
  | some line => s.sleeping (line * 256) || (s.committedBad line && !s.sys.lostLines.contains line)

/-- A read of the data or parity window: its status and data, `n` bytes that cross no 256-byte boundary; a line that cannot be
repaired is poison (R415, R416, R443). -/
def State.windowRead (s : State) (addr n : Nat) : Nat × Nat :=
  let cut (l : List Byte) : Nat := ofBytes ((l.drop (addr % 256)).take n)
  let give (w : Window) (l : List Byte) : Nat × Nat :=
    match s.windowLine w with
    | some line => if s.committedBad line then (3, 0) else (0, cut l)
    | none => (0, cut l)
  match windowOf addr with
  | some (.data g o) =>
    if (s.group g).enabled && decide (o / 2 ^ 16 < (s.group g).psize) then give (.data g o) (s.dataBytes g o) else (2, 0)
  | some (.parity g o) =>
    if (s.group g).enabled && decide (o / 2 ^ 16 < (s.group g).punits) then give (.parity g o) (s.parityBytes g o) else (2, 0)
  | _ => (2, 0)

/-- A request of a type and size that R325 gives: at most 256 bytes that cross no 256-byte boundary, and an aligned
atomic of 32 or 64 bits with a defined operation (R269, R325, R430). -/
def reqForm (r : FabReq) : Bool :=
  if r.op = 2 then (r.len == 4 || r.len == 8) && r.addr % r.len == 0 && decide (r.aop ≤ 9)
  else decide (r.op ≤ 1) && decide (1 ≤ r.len) && decide (r.addr % 256 + r.len ≤ 256)

/-- A read of a window is answered (R325, R443). -/
def State.serveWindowRead (s : State) (r : FabReq) : State :=
  let waits := match windowOf r.addr with
    | some w => s.windowWaits w
    | none => false
  if reqForm r then s.serveUnless waits r (fun s => ((s.windowRead r.addr r.len).1, (s.windowRead r.addr r.len).2, s))
  else s.respond r 2 0

/-- REBUILD_WINDOW_READ, R443: of a line; FABRIC_REQUEST_SERVE serves those of other sizes. -/
def execRebuildWindowRead (who : Requester) (addr : Nat) (s : State) : Host.Outcome State Fault Refusal :=
  .next (s.enter (who.read addr 256) (fun s => s.serveWindowRead (who.read addr 256)))

/-- Where a rebuild target keeps a window's line, and the line's number among all that it must receive. -/
def Group.target (g : Group) : Window → Option (Nat × Nat)
  | .data _ o =>
    if o / 2 ^ 16 < g.psize then some (g.unitFrame (o / 2 ^ 16) * 2 ^ 16 + o % 2 ^ 16, o / 256) else none
  | .parity _ o => if o / 2 ^ 16 < g.punits then some (g.parb + o, g.psize * 256 + o / 256) else none
  | .cairn _ _ _ => none

/-- The slot of a window. -/
def Window.slot : Window → Nat
  | .cairn _ g _ => g
  | .data g _ => g
  | .parity g _ => g

/-- A rebuild write: its status and the state after (R428, R437, R443, R444). -/
def State.windowWrite (s : State) (r : FabReq) : Nat × State :=
  match windowOf r.addr with
  | none => (2, s)
  | some w =>
    let g := s.group w.slot
    match g.target w with
    | none => (2, s)
    | some (pa, i) =>
      if !g.enabled || !g.building || g.lostSender r.src || r.len != 256 || r.addr % 256 != 0 then (2, s)
      else
        let s := (s.putBytes ((locsFrom pa 256).zip (toBytes 256 r.data))).poisonIf r.poison (pa / 256)
        (0, s.onGroup w.slot (fun x =>
          let l := if x.received.contains i then x.received else i :: x.received
          { x.setField 0x1C0 0 24 (min (l.length / 4096) (2 ^ 24 - 1)) with received := l }))

/-- A rebuild write is taken and answered; one for a stack in critical self-refresh waits (R420, R443). -/
def State.serveRebuildWrite (s : State) (r : FabReq) : State :=
  let waits := match (windowOf r.addr).bind (fun w => (s.group w.slot).target w) with
    | some (pa, _) => s.sleeping pa
    | none => false
  s.serveUnless waits r (fun s => ((s.windowWrite r).1, 0, (s.windowWrite r).2))

/-- REBUILD_WRITE, R443. -/
def execRebuildWrite (who : Requester) (addr : Nat) (data : WriteData) (s : State) : Host.Outcome State Fault Refusal :=
  .next (s.enter (who.write addr data) (fun s => s.serveRebuildWrite (who.write addr data)))

/-- The live member, lowest index first, whose record a rebuild target that has received everything reads next (R446). -/
def Group.endAsks (g : Group) : Option Nat := (g.livers.filter (fun i => i != g.midx && !g.tried.contains i)).head?

/-- A rebuild target that has received everything reads a live member's record; when every one has missed it begins again
(R446). -/
def State.askEnd (s : State) (grp : Nat) : State :=
  match (s.group grp).endAsks with
  | none => s.onGroup grp (fun g => { g with tried := [] })
  | some j =>
    if s.reachable ((s.group grp).acc j) then s.readRecord grp j
    else s.onGroup grp (fun g => { g with tried := j :: g.tried })

/-- A rebuild target takes over the pitch and the live members that a member's record gives (R446). -/
def State.endRebuild (s : State) (grp data : Nat) : State :=
  let live := fld data 256 24 ||| 2 ^ (s.group grp).midx
  let pitch := fld data 0 64
  let done := ((s.recPut grp 0 8 pitch).recPut grp 8 8 0).onGroup grp (fun x =>
    let x := (List.range x.n).foldl (fun x i => x.setField (0x100 + 8 * i) 63 1 (if bitAt live i then 1 else 0)) x
    { (x.setSt 0).setField 0x1C0 60 1 1 with pitch := pitch, probeAt := s.cyc.toNat, endReply := none, tried := [] })
  (done.pitchEvent grp (pitch + 1) 2 7).lateKill grp

/-- REBUILD_END, R446: every byte has been received, and a live member has answered the record read with this pitch and these
LIVE bits. -/
def execRebuildEnd (grp pitch live : Nat) (s : State) : Host.Outcome State Fault Refusal :=
  let g := s.group grp
  match g.endReply with
  | none => .next s
  | some data =>
    happens (g.enabled && g.building && g.whole && fld data 0 64 == pitch && fld data 256 24 == live) s (s.endRebuild grp data)

/-! ## Solving a stripe row (R338, R416, R445) -/

/-- A linear equation over the data units of a row: coefficients, and the bytes on the right. -/
abbrev Equation := List Nat × List Nat

/-- Subtract a multiple of an equation so that column `c` vanishes. -/
def Equation.clear (c : Nat) (p e : Equation) : Equation :=
  let k := (e.1[c]?).getD 0
  if k = 0 then e else (xorBytes e.1 (scaleBytes k p.1), xorBytes e.2 (scaleBytes k p.2))

/-- Eliminate the columns one after another: the unknowns' values in the order of the columns. -/
def eliminate : List Nat → List Equation → List Equation → Option (List Equation)
  | [], done, _ => some done
  | c :: cs, done, rest =>
    match rest.find? (fun e => (e.1[c]?).getD 0 != 0) with
    | none => none
    | some p =>
      let k := gfInv ((p.1[c]?).getD 0)
      let q : Equation := (scaleBytes k p.1, scaleBytes k p.2)
      eliminate cs (done.map (Equation.clear c q) ++ [q]) ((rest.erase p).map (Equation.clear c q))

/-- The equation that member `i`'s unit of row `t` gives. -/
def Group.equation (g : Group) (t i : Nat) (bytes : List Nat) : Equation :=
  let j := subMod i t g.n
  if j < g.m then ((List.range g.k).map (fun a => coef a j), bytes)
  else ((List.range g.k).map (fun a => if a = g.position i t then 1 else 0), bytes)

/-- The data units of row `t`, from K members' units. -/
def Group.solve (g : Group) (t : Nat) (shares : List (Nat × List Nat)) : Option (List (List Nat)) :=
  if shares.length = g.k then
    (eliminate (List.range g.k) [] (shares.map (fun e => g.equation t e.1 e.2))).map (fun l => l.map (·.2))
  else none

/-- Parity `j` of a row's data units. -/
def parityOf (j n : Nat) (l : List (List Nat)) : List Nat :=
  (l.zipIdx).foldl (fun acc e => xorBytes acc (scaleBytes (coef e.2 j) e.1)) (List.replicate n 0)

/-- The unit of member `i` in row `t`, from the row's data units of `n` bytes. -/
def Group.unitOf (g : Group) (t i n : Nat) (l : List (List Nat)) : List Nat :=
  let j := subMod i t g.n
  if j < g.m then parityOf j n l else (l[g.position i t]?).getD []

/-- The members whose units a reconstruction of member `i`'s unit of row `t` reads: K live ones that can be read, lowest index
first; for a parity unit those that hold data first (R416, R445). -/
def Group.sources (g : Group) (t i : Nat) (bad : List Nat) : List Nat :=
  let l := g.livers.filter (fun j => j ≠ i ∧ !bad.contains j)
  let data (k : Nat) : Bool := decide (g.m ≤ subMod k t g.n)
  (if subMod i t g.n < g.m then l.filter data ++ l.filter (fun k => !data k) else l).take g.k

/-! ## Reading a row (R416, R445) -/

/-- The address of a line of member `j`'s unit of a row, in the window of the member (R443). -/
def Group.rowAddr (g : Group) (slot j q t line : Nat) : Nat :=
  if subMod j t g.n < g.m then 0x3F0 * 2 ^ 40 + slot * 2 ^ 36 + g.parityUnit j q t * 2 ^ 16 + line * 256
  else 0x3E0 * 2 ^ 40 + slot * 2 ^ 40 + g.dataUnit j q t * 2 ^ 16 + line * 256

/-- A row as a job reads it: its block, its number in the block, the member whose unit is made, and the lines of the unit. -/
structure RowPlan where
  q : Nat
  t : Nat
  i : Nat
  lines : List Nat
deriving DecidableEq, Repr

/-- A job reads the lines of K members' units, its own where they lie and the others' through their windows; a member of its own
whose line cannot be read counts as unreadable (R416, R445). The job is none where fewer than K units can be read. -/
def State.readRow (s : State) (slot : Nat) (line : Option Nat) (p : RowPlan) (bad : List Nat) : Option State :=
  let g := s.group slot
  let who := match line with
    | some l => 1096 + l * 256 / 2 ^ 36
    | none => 1096 + g.recb / 2 ^ 36
  let mineBad := p.lines.any (fun l => (s.windowRead (g.rowAddr slot g.midx p.q p.t l) 256).1 != 0)
  let bad := bad ++ (List.range g.n).filter (fun j => if j = g.midx then mineBad else !s.reachable (g.acc j))
  let src := g.sources p.t p.i bad
  if src.length < g.k then none
  else
    let want := src.flatMap (fun j => p.lines.map (fun l => (j, l)))
    let reads := want.zipIdx.map (fun e =>
      let r : RowRead := { member := e.1.1, line := e.1.2, tag := s.serial + e.2 }
      if e.1.1 = g.midx then
        { r with data := some (toBytes 256 (s.windowRead (g.rowAddr slot g.midx p.q p.t e.1.2) 256).2) }
      else r)
    let job : RowJob := { grp := slot, line := line, reads := reads, bad := bad }
    let t : State := { s with
      serial := s.serial + reads.length
      cairn := { s.cairn with jobs := s.cairn.jobs.filter (fun j => !(j.grp == slot && j.line == line)) ++ [job] } }
    some ((reads.filter (fun r => r.data.isNone)).foldl (fun t r => t.transmit (g.acc r.member)
      { src := s.devid, who := who, tag := r.tag, cls := 0, op := 0, addr := g.rowAddr slot r.member p.q p.t r.line, len := 256
        aop := 0, fmt := 0, data := 0, cmp := 0, poison := false, dxp := true }) t)

/-- The job of a line's repair, or of a group's rebuild. -/
def State.jobOf (s : State) (slot : Nat) (line : Option Nat) : Option RowJob :=
  s.cairn.jobs.find? (fun j => j.grp == slot && j.line == line)

/-- A job has ended. -/
def State.endJob (s : State) (slot : Nat) (line : Option Nat) : State :=
  { s with cairn := { s.cairn with jobs := s.cairn.jobs.filter (fun j => !(j.grp == slot && j.line == line)) } }

/-- Every read of a job has been answered. -/
def RowJob.complete (j : RowJob) : Bool := !j.reads.isEmpty && j.reads.all (fun r => r.data.isSome)

/-- A job has nothing to do but to wait for answers. -/
def RowJob.waits (j : RowJob) : Bool := !j.reads.isEmpty && j.reads.any (fun r => r.data.isNone)

/-- What the K units of a row give for a line of the unit that is made. -/
def Group.lineOf (g : Group) (p : RowPlan) (j : RowJob) (line : Nat) : Option (List Byte) :=
  (g.solve p.t ((j.reads.filter (fun r => r.line = line)).map (fun r => (r.member, natsOf (r.data.getD []))))).map (fun l =>
    bytesOf (g.unitOf p.t p.i 256 l))

/-! ## Rebuild (R445) -/

/-- The position of a lost member's unit in the builders' order. -/
def Group.place (g : Group) (unit : Nat) (parity : Bool) : Nat := if parity then g.psize + unit else unit

/-- The lost member whose entry the reserve has taken. -/
def Group.rebuilding (g : Group) : Option Nat :=
  (List.range g.n).find? (fun i => !g.live i && bitAt g.lost i && Table.find g.lostAcc i != some (g.acc i))

/-- The unit that a builder makes next for the lost member: data units first (R445). -/
def Group.buildPlan (g : Group) (i at_ : Nat) : RowPlan :=
  let r := if at_ < g.psize then g.rowOfData i at_ else g.rowOfParity i (at_ - g.psize)
  { q := r.1, t := r.2, i := i, lines := List.range 256 }

/-- The address of a unit of the lost member in the reserve's windows (R443). -/
def Group.buildAddr (g : Group) (slot at_ : Nat) : Nat :=
  if at_ < g.psize then 0x3E0 * 2 ^ 40 + slot * 2 ^ 40 + at_ * 2 ^ 16
  else 0x3F0 * 2 ^ 40 + slot * 2 ^ 36 + (at_ - g.psize) * 2 ^ 16

/-- Write the lines of a rebuilt unit to the reserve's window (R325, R445). -/
def State.sendLines (s : State) (dest who addr : Nat) (l : List (List Byte)) : State :=
  let t := { s with serial := s.serial + l.length }
  l.zipIdx.foldl (fun t e => t.transmit dest
    { src := s.devid, who := who, tag := s.serial + e.2, cls := 0, op := 1, addr := addr + e.2 * 256, len := 256
      aop := 0, fmt := 0, data := ofBytes e.1, cmp := 0, poison := false, dxp := true }) t

/-- The member and the unit that this builder works on: of the row's live members it is the lowest (R445). -/
def Group.builds (g : Group) : Option (Nat × Nat) :=
  match g.rebuild, g.rebuilding with
  | some at_, some i => if g.st = 2 ∧ g.leads ∧ at_ < g.psize + g.punits then some (i, at_) else none
  | _, _ => none

/-- The next step of a rebuild: the reads of a row, or, once they are answered, the unit and its writes (R445). -/
def State.buildStep (s : State) (grp i at_ : Nat) : Option State :=
  let g := s.group grp
  let p := g.buildPlan i at_
  match s.jobOf grp none with
  | none => s.readRow grp none p []
  | some j =>
    if j.complete then
      (p.lines.mapM (g.lineOf p j)).map (fun l =>
        ((s.endJob grp none).sendLines (g.acc i) g.sender (g.buildAddr grp at_) l).onGroup grp (fun x =>
          { x with rebuild := some (at_ + 1) }))
    else if j.waits then none
    else s.readRow grp none p j.bad

/-- The unit that stands at a place of the order in which a member's are made (R445). -/
def Group.unitAt (g : Group) (at_ : Nat) : Nat × Bool := if at_ < g.psize then (at_, false) else (at_ - g.psize, true)

/-- REBUILD_UNIT, R445: a builder reads a row's units through the windows, solves for the lost member's unit and writes it to the
reserve. -/
def execRebuildUnit (grp unit : Nat) (parity : Bool) (member : Nat) (s : State) : Host.Outcome State Fault Refusal :=
  match (s.group grp).builds with
  | none => .next s
  | some (i, at_) => happens ((s.group grp).unitAt at_ == (unit, parity) && member == i) s ((s.buildStep grp i at_).getD s)

/-! ## Repair of a line (R416) -/

/-- The line cannot be repaired and is handled as unprotected (R416). -/
def State.giveUpLine (s : State) (line : Nat) : State :=
  { s with sys := { s.sys with lostLines := if s.sys.lostLines.contains line then s.sys.lostLines
                                            else line :: s.sys.lostLines } }

/-- A failing data line that is dirty in a pitch: the tracked pitch aborts with cause 6, and so does the open commit if the line is
dirty there, by this member's vote. A line of the tracked pitch alone is restored with it; one of the open commit at the outcome:
an abort restores it, and after a commit it is repaired as a clean line (R346, R416). -/
def State.repairDirty (s : State) (r : Region) (line : Nat) : State :=
  let image := if r.st = .joining then List.replicate 256 0 else s.committed line
  match (s.group r.grp).commit with
  | none => (s.abortTracked r.grp 6).restoreLine line image
  | some c =>
    if c.lines.contains line then
      let s := s.onGroup r.grp (fun x => { x with commit := some { c with failed := 6 } })
      (if c.voted then s.sendVote r.grp c.pitch false 6 else s).abortTracked r.grp 6
    else (s.abortTracked r.grp 6).restoreLine line image

/-- The plan of a data line's repair. -/
def State.dataPlan (s : State) (r : Region) (line : Nat) : RowPlan :=
  let g := s.group r.grp
  let x := g.rowOfData g.midx (r.offset line / 2 ^ 16)
  { q := x.1, t := x.2, i := g.midx, lines := [r.offset line / 256 % 256] }

/-- The enabled group whose parity area holds a line. -/
def State.parityGroup (s : State) (line : Nat) : Option Nat :=
  (List.range 16).find? (fun i =>
    let g := s.group i
    g.enabled && decide (g.parb ≤ line * 256) && decide (line * 256 < g.parb + g.punits * 2 ^ 16))

/-- The plan of a parity line's repair. -/
def State.parityPlan (s : State) (slot line : Nat) : RowPlan :=
  let g := s.group slot
  let o := line * 256 - g.parb
  let x := g.rowOfParity g.midx (o / 2 ^ 16)
  { q := x.1, t := x.2, i := g.midx, lines := [o / 256 % 256] }

/-- The next step of a repair from the row: the reads, or, once they are answered, the line's value home; a line whose row has
fewer than K readable units is handled as unprotected (R416). -/
def State.repairStep (s : State) (slot line : Nat) (p : RowPlan) (counts : Bool) : Option State :=
  let g := s.group slot
  let start (bad : List Nat) : State := (s.readRow slot (some line) p bad).getD ((s.endJob slot (some line)).giveUpLine line)
  match s.jobOf slot (some line) with
  | none => some (start [])
  | some j =>
    if j.complete then
      some (match g.lineOf p j (p.lines.headD 0) with
        | none => (s.endJob slot (some line)).giveUpLine line
        | some l =>
          let t := (s.endJob slot (some line)).restoreLine line l
          if counts then t.onErr (line * 256 / 2 ^ 36) (fun u => { u with rep := min (u.rep + 1) 255 }) else t)
    else if j.waits then none
    else some (start j.bad)

/-- The line waits for the outcome of an open commit that its repair aborts. -/
def State.outcomePends (s : State) (r : Region) (line : Nat) : Bool :=
  (s.group r.grp).commit.any (fun c => c.lines.contains line && c.failed == 6)

/-- The next step of a poisoned line's repair by its cairn engine, which waits for a stack in critical self-refresh (R416,
R420). -/
def State.lineStep (s : State) (line : Nat) : Option State :=
  if !s.linePoisoned line || s.sys.lostLines.contains line || s.sleeping (line * 256) then none
  else
    match s.regionOf line with
    | some r =>
      let g := s.group r.grp
      if s.outcomePends r line then none
      else if g.dirty.contains line || g.commit.any (fun c => c.lines.contains line) || r.st == .joining then
        some (s.repairDirty r line)
      else s.repairStep r.grp line (s.dataPlan r line) true
    | none => (s.parityGroup line).bind (fun slot => s.repairStep slot line (s.parityPlan slot line) false)

/-- LINE_REPAIR, R416: of a line of a stack. -/
def execLineRepair (stack line : Nat) (s : State) : Host.Outcome State Fault Refusal :=
  .next ((s.lineStep (stack * 2 ^ 28 + line)).getD s)

end Sys2Proof.Machine
end

