-- ==== Sys2Proof/Machine/Owner.lean ====
section
/-! DEFINITION. The owner's side of the fabric: the ingress serves, tickets or refuses a request, its walks end, and its
replay notices go out (R98, R121, R138, R139, R269, R325, R330, R331, R408, R409, R415, R428, R454). -/

namespace Sys2Proof.Machine

/-! ## Answers -/

/-- Answer a request with a fault ticket (R330). -/
def State.respondTicket (s : State) (r : FabReq) (tnum : Nat) : State :=
  if r.src = s.devid then s.ticketTo r.who r.tag tnum
  else s.depart (ingressDie r) (.reply r.src r.port r.who r.tag 1 tnum)

/-! ## The stall table, and replay notices (R139, R330, R409, R428, R454) -/

/-- The entry of a request's pair: accelerator, requester, class. -/
def Stall.isFor (e : Stall) (r : FabReq) : Bool := e.src == r.src && e.who == r.who && e.cls == r.cls

/-- The stall entry of a request's pair. -/
def State.stallOf (s : State) (r : FabReq) : Option Stall := s.fab.stalls.find? (fun e => e.isFor r)

/-- Change the stall entry of a request's pair. -/
def State.onStall (s : State) (r : FabReq) (f : Stall → Stall) : State :=
  { s with fab := { s.fab with stalls := s.fab.stalls.map (fun e => if e.isFor r then f e else e) } }

/-- The pair of a request by number. -/
def pairNo (r : FabReq) : Nat := (r.src * 2048 + r.who) * 16 + r.cls

/-- The notice of a stalled pair: it covers every ticket of the pair (R330). -/
def Stall.message (e : Stall) (devid : Nat) : Msg :=
  let engine := decide (1024 ≤ e.who)
  { kind := 3, rk := if engine then 1 else 0, src := devid, core := if engine then e.who - 1024 else e.who / 4,
    sel := (if engine then 0 else e.who % 4) + e.cls * 16, tnum := (e.open_.getLast?.map (·.1)).getD 0, val := 0, gid := 0,
    cause := 0, pitch := 0 }

/-- The base camp core of the ingress' die sends the notice of a pair, on the path of R327. -/
def State.sendNotice (s : State) (e : Stall) : State :=
  if e.src = s.devid then s.notice (e.message s.devid) else s.sendMsg e.src (1088 + e.die) 0 (e.message s.devid)

/-- A notice of the pair has been posted on a cycle. -/
def Stall.told (e : Stall) (now : Nat) : Stall := { e with posted := true, heard := false, noticeAt := now, resentAt := now }

/-- A request of a stalled pair gets the pair's next ticket. Where it cannot perform by `itself`, the replays of older tickets will
follow it. Once a notice of the pair has been posted, a further one goes with the ticket (R139, R330, R454; log entry 117). -/
def State.ticket (s : State) (r : FabReq) (itself : Bool) : State :=
  let n := Table.get s.fab.ticketNos 0 (pairNo r)
  let now := s.cyc.toNat
  let s := s.onStall r (fun e => { e with
    open_ := e.open_.filter (fun t => t.2 ≠ r.tag) ++ [(n, r.tag)], heardAt := now
    again := if itself then some n else e.again, owed := e.owed || itself })
  let s := ({ s with fab := { s.fab with
    ticketNos := Table.set s.fab.ticketNos (pairNo r) ((n + 1) % 2 ^ 16) } } : State).respondTicket r n
  match (s.stallOf r).filter (fun e => e.posted) with
  | some e => (s.onStall r (fun e => e.told now)).sendNotice e
  | none => s

/-- A request that cannot perform gets a ticket and stalls its pair; a foreign peer's, or one for which a full stall
table has no entry, gets the standard error completion (R139, R331, R409). -/
def State.stall (s : State) (r : FabReq) (why : Nat) : State :=
  let page := r.addr / 2 ^ 16
  let place := ((s.fab.spaceRoot.map (fun root => (root, page))).bind s.walkPlace).getD 0
  let mark (e : Stall) : Stall := { e with why := why, page := page, place := place, write := r.op ≠ 0, look := false }
  if !r.dxp then s.respond r 2 0
  else if (s.stallOf r).isSome then (s.onStall r mark).ticket r true
  else if 16384 ≤ s.fab.stalls.length then (s.countStat 0 16 16).respond r 2 0
  else
    let e : Stall := mark { src := r.src, who := r.who, cls := r.cls, die := ingressDie r, why := why, page := page }
    ({ s with fab := { s.fab with stalls := s.fab.stalls ++ [e] } } : State).ticket r true

/-- The request is a replay of one of the pair's tickets. -/
def Stall.isReplay (e : Stall) (r : FabReq) : Bool := e.open_.any (fun t => t.2 == r.tag)

/-- A request of a stalled pair is a replay that may perform: its ticket does not come before that of the pair's latest request that
could not perform by itself (R139; log entry 117). -/
def Stall.admits (e : Stall) (r : FabReq) : Bool :=
  e.open_.any (fun t => t.2 == r.tag && e.again.all (fun a => ticketLe a t.1))

/-- A replay of a pair has performed; after the last one the stall lifts. -/
def State.replayed (s : State) (r : FabReq) : State :=
  let s := s.onStall r (fun e => { e with open_ := e.open_.filter (fun t => t.2 ≠ r.tag) })
  { s with fab := { s.fab with stalls := s.fab.stalls.filter (fun e => !(e.isFor r && e.open_.isEmpty)) } }

/-! ## Performing (R122, R138, R269, R415, R428) -/

/-- The sectors of a request. -/
def reqSectors (r : FabReq) (pa : Nat) : List Nat :=
  (List.range ((pa % 64 + r.len + 63) / 64)).map (fun i => pa / 64 + i)

/-- The request waits: for a stack to wake, for a link to its home, or for the repair of a line that it reads (R16, R416,
R420). -/
def State.mustWait (s : State) (r : FabReq) (pa : Nat) : Bool :=
  s.homeWaits (ingressDie r) pa || (r.op != 1 && (reqSectors r pa).any s.repairable)

/-- The bytes that a write stores at a location, by its mask (R325). -/
def reqCells (r : FabReq) (pa : Nat) : List (Nat × Byte) :=
  (((locsFrom pa r.len).zip (toBytes r.len r.data)).zipIdx.filter (fun e => bitAt r.mask e.2)).map (·.1)

/-- Perform a request at its location and answer it; one to staging memory or device registers is refused (R269). An access of
the ingress has the ev field 0 (R118; log entry 137). -/
def State.performAt (s : State) (r : FabReq) (pa mt : Nat) : State :=
  let cached := if mt = 0 ∧ isHbm pa then reqSectors r pa else []
  if mt = 2 ∨ !(isHbm pa || isTier pa) then s.respond r 2 0
  else if r.op = 2 then
    if s.sys.poison.contains (pa / 64) then s.respond r 3 0
    else
      let old := s.num pa r.len
      let s := s.cleanL2 (pa / 64)
      let s := if r.aop = 9 ∧ old ≠ r.cmp then s
        else ((s.captureFor [pa]).setNum pa r.len (atomicNew r.aop (8 * r.len) old r.data r.cmp)).recount
      s.respond r 0 old
  else if r.op = 1 then
    let s := s.writeHome (reqCells r pa) cached
    let s : State := if r.poison then { s with sys := { s.sys with poison := (reqSectors r pa ++ s.sys.poison).dedup } } else s
    s.respond r 0 0
  else if (reqSectors r pa).any s.sys.poison.contains then s.respond r 3 0
  else (cached.foldl (fun s sec => s.useL2 sec 0) s).respond r 0 (s.num pa r.len)

/-- A request whose translation is known: it performs, waits with what it has found, or is ticketed (R139, R408). -/
def State.afterXlat (s : State) (r : FabReq) (x : Xlat) : State :=
  match x with
  | .ok pa mt =>
    if s.mustWait r pa || s.fab.waiting.any (fun w => samePair r w.1) then
      { s with fab := { s.fab with waiting := s.fab.waiting ++ [(r, pa, mt)] } }
    else (s.performAt r pa mt).replayed r
  | .moving => s.stall r 1
  | _ => s.stall r 2

/-- The first translated request that waits no longer, the earlier ones of its pair having performed, with its position (R138). -/
def State.waitOver (s : State) : Option ((FabReq × Nat × Nat) × Nat) :=
  s.fab.waiting.zipIdx.find? (fun e =>
    !s.mustWait e.1.1 e.1.2.1 && !(s.fab.waiting.take e.2).any (fun w => samePair e.1.1 w.1))

/-- It performs. -/
def State.waitEnds (s : State) (e : (FabReq × Nat × Nat) × Nat) : State :=
  (({ s with fab := { s.fab with waiting := listDrop s.fab.waiting e.2 } } : State).performAt e.1.1 e.1.2.1 e.1.2.2).replayed e.1.1

/-! ## The ingress (R98, R138, R139, R331, R408) -/

/-- A request of the pair waits in the ingress walk buffer, so later ones wait behind it (R138, R408). -/
def State.pairWalks (s : State) (r : FabReq) : Bool := s.fab.walks.any (samePair r)

/-- A request that its stall lets through is translated: by the TLB of its ingress' die, or in the die's walk buffer. With the buffer
full it gets a ticket; behind a request of its pair in the buffer it waits in the ingress (R138, R331, R408; log entry 117). -/
def State.tryExport (s : State) (root : Nat) (r : FabReq) : State :=
  match s.tlbFor (ingressDie r) root r.addr, s.pairWalks r with
  | some e, false => s.afterXlat r (s.readPte (e.pteOf r.addr) r.addr (r.op != 0) false)
  | _, behind =>
    if !r.dxp then s.respond r 2 0
    else if s.ingressWalks (ingressDie r) < 256 then { s with fab := { s.fab with walks := s.fab.walks ++ [r] } }
    else if behind then s.queueIn r
    else s.stall r 0

/-- A request that must be translated (R138, R139): one of a stalled pair gets a ticket unless it is a replay that may perform. -/
def State.serveExport (s : State) (root : Nat) (r : FabReq) : State :=
  match s.stallOf r with
  | none => s.tryExport root r
  | some e =>
    let s := s.onStall r (fun e => { e with heard := e.heard || e.isReplay r, heardAt := s.cyc.toNat })
    if e.admits r then s.tryExport root r else s.ticket r false

/-- A request to a window above the export space (R342, R435, R443). A record read has the form of R435: its address names no
bytes. -/
def State.serveWindow (s : State) (r : FabReq) : State :=
  match windowOf r.addr, r.op with
  | some (.cairn _ _ _), 0 => s.serveRecord r
  | some (.cairn _ _ _), 1 => s.serveDelta r
  | some _, 0 => s.serveWindowRead r
  | some _, 1 => s.serveRebuildWrite r
  | _, _ => s.respond r 2 0

/-- The fabric ingress takes a request (R98, R138, R430). -/
def State.serveRequest (s : State) (r : FabReq) : State :=
  if aboveExports r.addr then s.serveWindow r
  else if !reqForm r then s.respond r 2 0
  else
    match s.fab.spaceRoot with
    | none => s.respond r 2 0
    | some root => s.serveExport root r

/-- FABRIC_REQUEST_SERVE, R138: a peer's request, or one of the device's own that waits in its ingress; behind an earlier
one of its pair there it waits. -/
def execFabricRequestServe (req : FabReq) (s : State) : Host.Outcome State Fault Refusal :=
  .next (s.enter req (fun s => s.serveRequest req))

/-! ## Walks of the ingress (R102, R408, R420) -/

/-- The later requests of a pair in the walk buffer get tickets behind one whose walk has failed (R139). -/
def State.ticketWalks (s : State) (r : FabReq) : State :=
  (s.fab.walks.filter (samePair r)).foldl (fun s q => s.ticket q false)
    { s with fab := { s.fab with walks := s.fab.walks.filter (fun q => !samePair r q) } }

/-- A walk has failed, or finds a page on the move: its request gets a ticket, and those of its pair behind it theirs. A pair whose
stall could get no entry has none. -/
def State.walkFails (s : State) (r : FabReq) (why : Nat) : State :=
  let s := s.stall r why
  if (s.stallOf r).isSome then s.ticketWalks r else s

/-- The walk of the request at a place of the ingress walk buffer ends (R138, R139, R408). -/
def State.walkEnds (s : State) (i : Nat) (r : FabReq) : State :=
  let s := { s with fab := { s.fab with walks := listDrop s.fab.walks i } }
  match s.fab.spaceRoot with
  | none => s.respond r 2 0
  | some root =>
    match s.walk root r.addr with
    | none => s.walkFails r 2
    | some pte =>
      let s := s.fillTlb (ingressDie r) root r.addr
      match s.readPte pte r.addr (r.op != 0) false with
      | .ok pa mt => s.afterXlat r (.ok pa mt)
      | .moving => s.walkFails r 1
      | _ => s.walkFails r 2

/-- The walk of the request at a place of the buffer can end: no earlier request of its pair is there, it has a walker of its die, and
it reads no table that it has to wait for (R102, R408, R420). -/
def State.walkReady (s : State) (i : Nat) (r : FabReq) : Bool :=
  let die := ingressDie r
  let first := (s.fab.walks.take i).filter (fun q => ingressDie q == die)
  !(s.fab.walks.take i).any (samePair r) && decide (s.walksOn die - s.ingressWalks die + first.length < 1024) &&
  (match s.fab.spaceRoot with
  | some root => !s.walkSleeps die root r.addr
  | none => true)

/-- INGRESS_WALK_COMPLETE, R408: an earlier request of the same pair is served first. -/
def execIngressWalkComplete (idx : Nat) (s : State) : Host.Outcome State Fault Refusal :=
  match s.fab.walks[idx]? with
  | none => .next s
  | some r => happens (s.walkReady idx r) s (s.walkEnds idx r)

/-! ## Replay notices (R139, R330, R408, R428) -/

/-- The firmware walks again for a stalled pair after an invalidation (R408): the walk succeeds or not. -/
def State.looksAgain (s : State) (e : Stall) : Option Bool :=
  match s.fab.spaceRoot with
  | none => none
  | some root =>
    let va := e.page * 2 ^ 16
    if !e.look || s.walkSleeps e.die root va then none
    else
      match (s.walk root va).map (fun pte => s.readPte pte va e.write false) with
      | some (.ok _ _) => some true
      | _ => some false

/-- What a stalled pair waits for has come: room in its die's walk buffer, the end of a move with its invalidation, or a page that
translates (R408). -/
def State.stallReady (s : State) (e : Stall) : Bool :=
  match e.why with
  | 0 => decide (s.ingressWalks e.die < 256)
  | 1 => fld (s.num e.place 8) 60 2 != 1 && !s.entryPends e.place
  | _ => s.looksAgain e == some true

/-- Replace the pair at a place of the stall table. -/
def State.setStall (s : State) (i : Nat) (e : Stall) : State :=
  { s with fab := { s.fab with stalls := listSet s.fab.stalls i e } }

/-- Post the notice of the pair at a place of the stall table. -/
def State.postNotice (s : State) (i : Nat) (e : Stall) : State :=
  (s.setStall i { e.told s.cyc.toNat with owed := false, look := false }).sendNotice e

/-- REPLAY_NOTICE_POST, R408. -/
def execReplayNoticePost (idx : Nat) (s : State) : Host.Outcome State Fault Refusal :=
  match s.fab.stalls[idx]? with
  | none => .next s
  | some e => happens (e.owed && s.stallReady e) s (s.postNotice idx e)

/-- The pair's notice is sent again every 2^22 cycles until a replay of the pair arrives (R428). -/
def Stall.resends (e : Stall) (now : Nat) : Bool := e.posted && !e.heard && decide (e.resentAt + 2 ^ 22 ≤ now)

/-- Send it again: the latest notice stays the one that was posted (log entry 138). -/
def State.resendNotice (s : State) (i : Nat) (e : Stall) : State :=
  (s.setStall i { e with resentAt := s.cyc.toNat }).sendNotice e

/-- NOTICE_RESEND, R428. -/
def execNoticeResend (idx : Nat) (s : State) : Host.Outcome State Fault Refusal :=
  match s.fab.stalls[idx]? with
  | none => .next s
  | some e => happens (e.resends s.cyc.toNat) s (s.resendNotice idx e)

/-- The pair has sent nothing for 2^28 cycles after the latest notice (R428; log entry 138). -/
def Stall.expires (e : Stall) (now : Nat) : Bool := e.posted && decide (max e.noticeAt e.heardAt + 2 ^ 28 ≤ now)

/-- STALL_ENTRY_EXPIRE, R428. -/
def execStallEntryExpire (idx : Nat) (s : State) : Host.Outcome State Fault Refusal :=
  match s.fab.stalls[idx]? with
  | none => .next s
  | some e =>
    happens (e.expires s.cyc.toNat) s { s with fab := { s.fab with stalls := listDrop s.fab.stalls idx } }

end Sys2Proof.Machine
end

