-- ==== Sys2Proof/Machine/Dispatch.lean ====
section
/-! DEFINITION. The meaning of every step: one arm per constructor of Instr. -/

namespace Sys2Proof.Machine

/-- The effect of one instruction or step. -/
def exec (i : Instr) (s : State) : Host.Outcome State Fault Refusal :=
  match i with
  | .nop => Sys2Proof.Machine.execNop s
  | .br f => Sys2Proof.Machine.execBr f s
  | .jmp f => Sys2Proof.Machine.execJmp f s
  | .jmpr f => Sys2Proof.Machine.execJmpr f s
  | .call f => Sys2Proof.Machine.execCall f s
  | .callr f => Sys2Proof.Machine.execCallr f s
  | .ret f => Sys2Proof.Machine.execRet f s
  | .loop f => Sys2Proof.Machine.execLoop f s
  | .bswap f => Sys2Proof.Machine.execBswap f s
  | .join f => Sys2Proof.Machine.execJoin f s
  | .detach => Sys2Proof.Machine.execDetach s
  | .ifence => Sys2Proof.Machine.execIfence s
  | .ypoint => Sys2Proof.Machine.execYpoint s
  | .yield => Sys2Proof.Machine.execYield s
  | .exit => Sys2Proof.Machine.execExit s
  | .hold f => Sys2Proof.Machine.execHold f s
  | .trap f => Sys2Proof.Machine.execTrap f s
  | .rtt => Sys2Proof.Machine.execRtt s
  | .bkpt f => Sys2Proof.Machine.execBkpt f s
  | .svcNull => Sys2Proof.Machine.execSvcNull s
  | .svcEvent => Sys2Proof.Machine.execSvcEvent s
  | .svcAbort => Sys2Proof.Machine.execSvcAbort s
  | .svcReside => Sys2Proof.Machine.execSvcReside s
  | .svcGroupinfo => Sys2Proof.Machine.execSvcGroupinfo s
  | .svcUnassigned f => Sys2Proof.Machine.execSvcUnassigned f s
  | .add f => Sys2Proof.Machine.execAdd f s
  | .addi f => Sys2Proof.Machine.execAddi f s
  | .sub f => Sys2Proof.Machine.execSub f s
  | .mul f => Sys2Proof.Machine.execMul f s
  | .mulh f => Sys2Proof.Machine.execMulh f s
  | .mulhn f => Sys2Proof.Machine.execMulhn f s
  | .div f => Sys2Proof.Machine.execDiv f s
  | .divn f => Sys2Proof.Machine.execDivn f s
  | .rem f => Sys2Proof.Machine.execRem f s
  | .remn f => Sys2Proof.Machine.execRemn f s
  | .and f => Sys2Proof.Machine.execAnd f s
  | .or f => Sys2Proof.Machine.execOr f s
  | .xor f => Sys2Proof.Machine.execXor f s
  | .andn f => Sys2Proof.Machine.execAndn f s
  | .shl f => Sys2Proof.Machine.execShl f s
  | .shr f => Sys2Proof.Machine.execShr f s
  | .sar f => Sys2Proof.Machine.execSar f s
  | .rol f => Sys2Proof.Machine.execRol f s
  | .min f => Sys2Proof.Machine.execMin f s
  | .max f => Sys2Proof.Machine.execMax f s
  | .minn f => Sys2Proof.Machine.execMinn f s
  | .maxn f => Sys2Proof.Machine.execMaxn f s
  | .cmp f => Sys2Proof.Machine.execCmp f s
  | .sel f => Sys2Proof.Machine.execSel f s
  | .mov f => Sys2Proof.Machine.execMov f s
  | .movi f => Sys2Proof.Machine.execMovi f s
  | .movhi f => Sys2Proof.Machine.execMovhi f s
  | .clz f => Sys2Proof.Machine.execClz f s
  | .ctz f => Sys2Proof.Machine.execCtz f s
  | .popc f => Sys2Proof.Machine.execPopc f s
  | .brev f => Sys2Proof.Machine.execBrev f s
  | .bext f => Sys2Proof.Machine.execBext f s
  | .bins f => Sys2Proof.Machine.execBins f s
  | .lea f => Sys2Proof.Machine.execLea f s
  | .adda f => Sys2Proof.Machine.execAdda f s
  | .movaToAddress f => Sys2Proof.Machine.execMovaToAddress f s
  | .movaToScalar f => Sys2Proof.Machine.execMovaToScalar f s
  | .mfs f => Sys2Proof.Machine.execMfs f s
  | .mts f => Sys2Proof.Machine.execMts f s
  | .rdcyc f => Sys2Proof.Machine.execRdcyc f s
  | .vadd f => Sys2Proof.Machine.execVadd f s
  | .vsub f => Sys2Proof.Machine.execVsub f s
  | .vmul f => Sys2Proof.Machine.execVmul f s
  | .vfma f => Sys2Proof.Machine.execVfma f s
  | .vfms f => Sys2Proof.Machine.execVfms f s
  | .vfnma f => Sys2Proof.Machine.execVfnma f s
  | .vmin f => Sys2Proof.Machine.execVmin f s
  | .vmax f => Sys2Proof.Machine.execVmax f s
  | .vabs f => Sys2Proof.Machine.execVabs f s
  | .vneg f => Sys2Proof.Machine.execVneg f s
  | .vclamp f => Sys2Proof.Machine.execVclamp f s
  | .vrcp f => Sys2Proof.Machine.execVrcp f s
  | .vrsq f => Sys2Proof.Machine.execVrsq f s
  | .vsqrt f => Sys2Proof.Machine.execVsqrt f s
  | .vexp2 f => Sys2Proof.Machine.execVexp2 f s
  | .vlog2 f => Sys2Proof.Machine.execVlog2 f s
  | .viadd f => Sys2Proof.Machine.execViadd f s
  | .visub f => Sys2Proof.Machine.execVisub f s
  | .vimul f => Sys2Proof.Machine.execVimul f s
  | .vimad f => Sys2Proof.Machine.execVimad f s
  | .vimin f => Sys2Proof.Machine.execVimin f s
  | .vimax f => Sys2Proof.Machine.execVimax f s
  | .vand f => Sys2Proof.Machine.execVand f s
  | .vor f => Sys2Proof.Machine.execVor f s
  | .vxor f => Sys2Proof.Machine.execVxor f s
  | .vshl f => Sys2Proof.Machine.execVshl f s
  | .vshr f => Sys2Proof.Machine.execVshr f s
  | .vsar f => Sys2Proof.Machine.execVsar f s
  | .vcmp f => Sys2Proof.Machine.execVcmp f s
  | .vsel f => Sys2Proof.Machine.execVsel f s
  | .vmov f => Sys2Proof.Machine.execVmov f s
  | .vmovi f => Sys2Proof.Machine.execVmovi f s
  | .vbcast f => Sys2Proof.Machine.execVbcast f s
  | .vins f => Sys2Proof.Machine.execVins f s
  | .vext f => Sys2Proof.Machine.execVext f s
  | .vperm f => Sys2Proof.Machine.execVperm f s
  | .vslide f => Sys2Proof.Machine.execVslide f s
  | .vzip f => Sys2Proof.Machine.execVzip f s
  | .vunzip f => Sys2Proof.Machine.execVunzip f s
  | .vred f => Sys2Proof.Machine.execVred f s
  | .vscan f => Sys2Proof.Machine.execVscan f s
  | .vcvt f => Sys2Proof.Machine.execVcvt f s
  | .vsrnd f => Sys2Proof.Machine.execVsrnd f s
  | .vblock f => Sys2Proof.Machine.execVblock f s
  | .vunblock f => Sys2Proof.Machine.execVunblock f s
  | .vcompress f => Sys2Proof.Machine.execVcompress f s
  | .vexpand f => Sys2Proof.Machine.execVexpand f s
  | .vpcnt f => Sys2Proof.Machine.execVpcnt f s
  | .pand f => Sys2Proof.Machine.execPand f s
  | .por f => Sys2Proof.Machine.execPor f s
  | .pxor f => Sys2Proof.Machine.execPxor f s
  | .pnot f => Sys2Proof.Machine.execPnot f s
  | .vrand f => Sys2Proof.Machine.execVrand f s
  | .ld f => Sys2Proof.Machine.execLd f s
  | .st f => Sys2Proof.Machine.execSt f s
  | .vld f => Sys2Proof.Machine.execVld f s
  | .vst f => Sys2Proof.Machine.execVst f s
  | .vldt f => Sys2Proof.Machine.execVldt f s
  | .vstt f => Sys2Proof.Machine.execVstt f s
  | .vgath f => Sys2Proof.Machine.execVgath f s
  | .vscat f => Sys2Proof.Machine.execVscat f s
  | .ldf f => Sys2Proof.Machine.execLdf f s
  | .ldfk f => Sys2Proof.Machine.execLdfk f s
  | .ste f => Sys2Proof.Machine.execSte f s
  | .feset f => Sys2Proof.Machine.execFeset f s
  | .feprobe f => Sys2Proof.Machine.execFeprobe f s
  | .atom f => Sys2Proof.Machine.execAtom f s
  | .atomcas f => Sys2Proof.Machine.execAtomcas f s
  | .semadd f => Sys2Proof.Machine.execSemadd f s
  | .semset f => Sys2Proof.Machine.execSemset f s
  | .semwait f => Sys2Proof.Machine.execSemwait f s
  | .semrd f => Sys2Proof.Machine.execSemrd f s
  | .cntwait f => Sys2Proof.Machine.execCntwait f s
  | .fence f => Sys2Proof.Machine.execFence f s
  | .tokacq f => Sys2Proof.Machine.execTokacq f s
  | .tokpass f => Sys2Proof.Machine.execTokpass f s
  | .bufacq f => Sys2Proof.Machine.execBufacq f s
  | .bufrel f => Sys2Proof.Machine.execBufrel f s
  | .discard f => Sys2Proof.Machine.execDiscard f s
  | .wback f => Sys2Proof.Machine.execWback f s
  | .inval f => Sys2Proof.Machine.execInval f s
  | .iinval f => Sys2Proof.Machine.execIinval f s
  | .pref f => Sys2Proof.Machine.execPref f s
  | .rld f => Sys2Proof.Machine.execRld f s
  | .rst f => Sys2Proof.Machine.execRst f s
  | .ratom f => Sys2Proof.Machine.execRatom f s
  | .tickwait f => Sys2Proof.Machine.execTickwait f s
  | .replay f => Sys2Proof.Machine.execReplay f s
  | .sbind f => Sys2Proof.Machine.execSbind f s
  | .sdone f => Sys2Proof.Machine.execSdone f s
  | .haul f => Sys2Proof.Machine.execHaul f s
  | .haulg f => Sys2Proof.Machine.execHaulg f s
  | .hgath f => Sys2Proof.Machine.execHgath f s
  | .hscat f => Sys2Proof.Machine.execHscat f s
  | .hstat f => Sys2Proof.Machine.execHstat f s
  | .protect f => Sys2Proof.Machine.execProtect f s
  | .unprotect f => Sys2Proof.Machine.execUnprotect f s
  | .belay f => Sys2Proof.Machine.execBelay f s
  | .bwait f => Sys2Proof.Machine.execBwait f s
  | .pitchrd f => Sys2Proof.Machine.execPitchrd f s
  | .mlatch f => Sys2Proof.Machine.execMlatch f s
  | .mop f => Sys2Proof.Machine.execMop f s
  | .mops f => Sys2Proof.Machine.execMops f s
  | .mopr f => Sys2Proof.Machine.execMopr f s
  | .mrank1 f => Sys2Proof.Machine.execMrank1 f s
  | .mzero f => Sys2Proof.Machine.execMzero f s
  | .mloss f => Sys2Proof.Machine.execMloss f s
  | .mdrain f => Sys2Proof.Machine.execMdrain f s
  | .mstat f => Sys2Proof.Machine.execMstat f s
  | .oread f => Sys2Proof.Machine.execOread f s
  | .owrite f => Sys2Proof.Machine.execOwrite f s
  | .omom f => Sys2Proof.Machine.execOmom f s
  | .oadam f => Sys2Proof.Machine.execOadam f s
  | .pusht f => Sys2Proof.Machine.execPusht f s
  | .popt f => Sys2Proof.Machine.execPopt f s
  | .tstk f => Sys2Proof.Machine.execTstk f s
  | .holdBundle => Sys2Proof.Machine.execHoldBundle s
  | .emptyBundle => Sys2Proof.Machine.execEmptyBundle s
  | .streamRead rope slot => Sys2Proof.Machine.execStreamRead rope slot s
  | .privateFetchRead strand => Sys2Proof.Machine.execPrivateFetchRead strand s
  | .leadOutcome rope slot => Sys2Proof.Machine.execLeadOutcome rope slot s
  | .joinComplete rope slot => Sys2Proof.Machine.execJoinComplete rope slot s
  | .resultLand strand idx => Sys2Proof.Machine.execResultLand strand idx s
  | .poisonAtBound strand idx => Sys2Proof.Machine.execPoisonAtBound strand idx s
  | .trapEntry strand => Sys2Proof.Machine.execTrapEntry strand s
  | .rollback strand kind loc => Sys2Proof.Machine.execRollback strand kind loc s
  | .reserve slot rope => Sys2Proof.Machine.execReserve slot rope s
  | .commit slot rope => Sys2Proof.Machine.execCommit slot rope s
  | .release slot rope => Sys2Proof.Machine.execRelease slot rope s
  | .ropeLoadDone rope => Sys2Proof.Machine.execRopeLoadDone rope s
  | .gangStart slot => Sys2Proof.Machine.execGangStart slot s
  | .ropePartDone rope => Sys2Proof.Machine.execRopePartDone rope s
  | .placementRetry slot => Sys2Proof.Machine.execPlacementRetry slot s
  | .preemptRequest slot => Sys2Proof.Machine.execPreemptRequest slot s
  | .forcedFreeze slot => Sys2Proof.Machine.execForcedFreeze slot s
  | .gangSave slot => Sys2Proof.Machine.execGangSave slot s
  | .gangResume slot => Sys2Proof.Machine.execGangResume slot s
  | .mxCommandStart core path => Sys2Proof.Machine.execMxCommandStart core path s
  | .mxCommandLand core path => Sys2Proof.Machine.execMxCommandLand core path s
  | .moprRendezvousStart rope slot => Sys2Proof.Machine.execMoprRendezvousStart rope slot s
  | .spillEntry copy => Sys2Proof.Machine.execSpillEntry copy s
  | .fillEntry strand => Sys2Proof.Machine.execFillEntry strand s
  | .streamPortFill strand port => Sys2Proof.Machine.execStreamPortFill strand port s
  | .streamPortDrain strand port => Sys2Proof.Machine.execStreamPortDrain strand port s
  | .haulCommandStart engine => Sys2Proof.Machine.execHaulCommandStart engine s
  | .haulCompletion engine idx => Sys2Proof.Machine.execHaulCompletion engine idx s
  | .engineTicketReplay engine => Sys2Proof.Machine.execEngineTicketReplay engine s
  | .tokenArrival die tok => Sys2Proof.Machine.execTokenArrival die tok s
  | .reloadComplete rope idx => Sys2Proof.Machine.execReloadComplete rope idx s
  | .remoteReply requester tag status data => Sys2Proof.Machine.execRemoteReply requester tag status data s
  | .faultTicket requester tag tnum => Sys2Proof.Machine.execFaultTicket requester tag tnum s
  | .fabricRequestServe req => Sys2Proof.Machine.execFabricRequestServe req s
  | .ingressWalkComplete idx => Sys2Proof.Machine.execIngressWalkComplete idx s
  | .replayNoticePost idx => Sys2Proof.Machine.execReplayNoticePost idx s
  | .replayNotice msg => Sys2Proof.Machine.execReplayNotice msg s
  | .semMessage msg => Sys2Proof.Machine.execSemMessage msg s
  | .noticeResend idx => Sys2Proof.Machine.execNoticeResend idx s
  | .stallEntryExpire idx => Sys2Proof.Machine.execStallEntryExpire idx s
  | .ticketTimeout requester tag => Sys2Proof.Machine.execTicketTimeout requester tag s
  | .requestDeadline requester tag => Sys2Proof.Machine.execRequestDeadline requester tag s
  | .replyEgressDiscard idx => Sys2Proof.Machine.execReplyEgressDiscard idx s
  | .beforeImageCapture line => Sys2Proof.Machine.execBeforeImageCapture line s
  | .belayOpen grp => Sys2Proof.Machine.execBelayOpen grp s
  | .deltaWrite who addr data => Sys2Proof.Machine.execDeltaWrite who addr data s
  | .memberVote grp => Sys2Proof.Machine.execMemberVote grp s
  | .vote msg => Sys2Proof.Machine.execVote msg s
  | .belayCommitMsg msg => Sys2Proof.Machine.execBelayCommitMsg msg s
  | .belayAbortMsg msg => Sys2Proof.Machine.execBelayAbortMsg msg s
  | .belayTimeout grp => Sys2Proof.Machine.execBelayTimeout grp s
  | .query msg => Sys2Proof.Machine.execQuery msg s
  | .decision msg => Sys2Proof.Machine.execDecision msg s
  | .estimatorWindow => Sys2Proof.Machine.execEstimatorWindow s
  | .probePeriod grp => Sys2Proof.Machine.execProbePeriod grp s
  | .recordRead who addr => Sys2Proof.Machine.execRecordRead who addr s
  | .recordReadReply grp member status data => Sys2Proof.Machine.execRecordReadReply grp member status data s
  | .rebuildUnit grp unit parity member => Sys2Proof.Machine.execRebuildUnit grp unit parity member s
  | .rebuildWindowRead who addr => Sys2Proof.Machine.execRebuildWindowRead who addr s
  | .rebuildWrite who addr data => Sys2Proof.Machine.execRebuildWrite who addr data s
  | .rebuildEnd grp pitch live => Sys2Proof.Machine.execRebuildEnd grp pitch live s
  | .lineRepair stack line => Sys2Proof.Machine.execLineRepair stack line s
  | .gctlEnable grp => Sys2Proof.Machine.execGctlEnable grp s
  | .gctlDisable grp => Sys2Proof.Machine.execGctlDisable grp s
  | .groupZeroingDone grp => Sys2Proof.Machine.execGroupZeroingDone grp s
  | .gownWrite grp value => Sys2Proof.Machine.execGownWrite grp value s
  | .kick queue tail => Sys2Proof.Machine.execKick queue tail s
  | .packetAccept slot => Sys2Proof.Machine.execPacketAccept slot s
  | .dependenceMet slot => Sys2Proof.Machine.execDependenceMet slot s
  | .gangComplete slot => Sys2Proof.Machine.execGangComplete slot s
  | .eprioAgeing queue => Sys2Proof.Machine.execEprioAgeing queue s
  | .mappingDecision => Sys2Proof.Machine.execMappingDecision s
  | .watchdogCheck slot => Sys2Proof.Machine.execWatchdogCheck slot s
  | .saveTimeout slot => Sys2Proof.Machine.execSaveTimeout slot s
  | .queueRecordWrite queue off width value => Sys2Proof.Machine.execQueueRecordWrite queue off width value s
  | .qctlErrClear queue => Sys2Proof.Machine.execQctlErrClear queue s
  | .evackWrite value => Sys2Proof.Machine.execEvackWrite value s
  | .eventRingConfigWrite size value => Sys2Proof.Machine.execEventRingConfigWrite size value s
  | .flogsizeWrite value => Sys2Proof.Machine.execFlogsizeWrite value s
  | .egressSwitch gen => Sys2Proof.Machine.execEgressSwitch gen s
  | .egressPairSwitch dest cls => Sys2Proof.Machine.execEgressPairSwitch dest cls s
  | .d2dRouteSwitch link cls => Sys2Proof.Machine.execD2dRouteSwitch link cls s
  | .multicastForward die => Sys2Proof.Machine.execMulticastForward die s
  | .flitReplay station => Sys2Proof.Machine.execFlitReplay station s
  | .stationRetrain station => Sys2Proof.Machine.execStationRetrain station s
  | .retrainComplete station => Sys2Proof.Machine.execRetrainComplete station s
  | .retrainTimeout station => Sys2Proof.Machine.execRetrainTimeout station s
  | .bucketLeak station => Sys2Proof.Machine.execBucketLeak station s
  | .stationRetClear station => Sys2Proof.Machine.execStationRetClear station s
  | .fabricEnableWrite value => Sys2Proof.Machine.execFabricEnableWrite value s
  | .d2dLaneRetrain link group => Sys2Proof.Machine.execD2dLaneRetrain link group s
  | .heartbeatCheck beats => Sys2Proof.Machine.execHeartbeatCheck beats s
  | .powerCompare watts => Sys2Proof.Machine.execPowerCompare watts s
  | .zoneWarn zone temp => Sys2Proof.Machine.execZoneWarn zone temp s
  | .zoneCrit zone temp => Sys2Proof.Machine.execZoneCrit zone temp s
  | .selfRefreshExit stack temp => Sys2Proof.Machine.execSelfRefreshExit stack temp s
  | .bankRefresh stack bank => Sys2Proof.Machine.execBankRefresh stack bank s
  | .scrubIssue stack sight => Sys2Proof.Machine.execScrubIssue stack sight s
  | .pageMigration pte copy => Sys2Proof.Machine.execPageMigration pte copy s
  | .tlbInvalidation space va len => Sys2Proof.Machine.execTlbInvalidation space va len s
  | .pageWalkComplete die space va => Sys2Proof.Machine.execPageWalkComplete die space va s
  | .atsCompletion strand status frame large => Sys2Proof.Machine.execAtsCompletion strand status frame large s
  | .atsRetry strand => Sys2Proof.Machine.execAtsRetry strand s
  | .priResponse strand success => Sys2Proof.Machine.execPriResponse strand success s
  | .priTimeout strand => Sys2Proof.Machine.execPriTimeout strand s
  | .atsInvalidation pasid va len => Sys2Proof.Machine.execAtsInvalidation pasid va len s
  | .bar2Write off data => Sys2Proof.Machine.execBar2Write off data s
  | .bar2Read off len => Sys2Proof.Machine.execBar2Read off len s
  | .pcieCorrectableError kind => Sys2Proof.Machine.execPcieCorrectableError kind s
  | .pciePoisonedTlp off data => Sys2Proof.Machine.execPciePoisonedTlp off data s
  | .pcieCompletionError strand ats => Sys2Proof.Machine.execPcieCompletionError strand ats s
  | .unexpectedCompletion tag => Sys2Proof.Machine.execUnexpectedCompletion tag s
  | .pcieFatalError kind => Sys2Proof.Machine.execPcieFatalError kind s
  | .pcieLinkDown => Sys2Proof.Machine.execPcieLinkDown s
  | .coldReset => Sys2Proof.Machine.execColdReset s
  | .fundamentalReset => Sys2Proof.Machine.execFundamentalReset s
  | .functionLevelReset => Sys2Proof.Machine.execFunctionLevelReset s
  | .bootTrainingDone => Sys2Proof.Machine.execBootTrainingDone s
  | .bootctlGo len => Sys2Proof.Machine.execBootctlGo len s
  | .bootVerify => Sys2Proof.Machine.execBootVerify s
  | .doeDiscovery index => Sys2Proof.Machine.execDoeDiscovery index s
  | .getDigests => Sys2Proof.Machine.execGetDigests s
  | .getCertificate off len => Sys2Proof.Machine.execGetCertificate off len s
  | .challenge nonce => Sys2Proof.Machine.execChallenge nonce s
  | .getMeasurements req => Sys2Proof.Machine.execGetMeasurements req s
  | .keyExchange share => Sys2Proof.Machine.execKeyExchange share s
  | .finish mac => Sys2Proof.Machine.execFinish mac s
  | .ideKm stream key => Sys2Proof.Machine.execIdeKm stream key s
  | .registerWrite off width value => Sys2Proof.Machine.execRegisterWrite off width value s
  | .regionRegistered strand => Sys2Proof.Machine.execRegionRegistered strand s
  | .stagingSplitWrite die slice mib => Sys2Proof.Machine.execStagingSplitWrite die slice mib s
  | .exportSpaceDesignation on root => Sys2Proof.Machine.execExportSpaceDesignation on root s
  | .zoneBelowWarn zone temp => Sys2Proof.Machine.execZoneBelowWarn zone temp s
  | .d2dLaneGroupUp link group => Sys2Proof.Machine.execD2dLaneGroupUp link group s

end Sys2Proof.Machine
end

