-- ==== Sys2Proof/Machine/Progress.lean ====
section
/-! DEFINITION. What the device's units do by themselves when no bundle can issue (log entry 4): each unit takes its next
step as soon as the rules let it. And which units exist (R13 to R15). -/

namespace Sys2Proof.Machine

/-- The state that an outcome goes on in. -/
def goesTo (o : Host.Outcome State Fault Refusal) : Option State :=
  match o with
  | .next t => some t
  | _ => none

/-- The first member of a list that yields a state. -/
def firstStep {α : Type} (l : List α) (f : α → Option State) : Option State := l.findSome? f

/-- A step that is taken when its condition holds. -/
@[inline] def whenever (c : Bool) (t : Unit → State) : Option State := if c then some (t ()) else none

/-! ## Ropes, strands and cores -/

/-- The streams of the listed ropes. -/
def State.allStreams (s : State) : List (Nat × Nat) := s.ropes.flatMap (fun r => [0, 1, 2, 3].map (fun c => (r.1, c)))

/-- Outcomes reach the rope heads, joins complete, rendezvous start (R28, R32, R238). -/
def State.streamUnits (s : State) : Option State :=
  firstStep s.allStreams (fun e =>
    if (s.leadReady e.1 e.2).isSome then some (s.leadStep e.1 e.2)
    else
      match (s.stream e.1 e.2).join with
      | some j => if s.joinReady e.1 e.2 j then some (s.completeJoin e.1 e.2 j)
                  else whenever (s.rendezvousReady e.1 e.2) (fun _ => s.rendezvous e.1 e.2)
      | none => whenever (s.rendezvousReady e.1 e.2) (fun _ => s.rendezvous e.1 e.2))

/-- The streams read, and the private fetch ports grant (R23, R31). A stream that stays stalled takes no step. -/
def State.fetchUnits (s : State) : Option State :=
  (firstStep s.allStreams (fun e =>
    whenever (s.streamReads e.1 e.2 && ((s.stream e.1 e.2).st == .streaming || !s.streamFull e.1 e.2))
      (fun _ => s.streamStep e.1 e.2))).or
  (firstStep s.ropes (fun r => (s.portNext r.1).map s.privateStep))

/-- The first result of a strand that can land. -/
def Strand.nextLanding (x : Strand) (now : Nat) : Option (Nat × InFlight) :=
  (x.inflight.zipIdx.find? (fun e => e.1.canLand now)).map (fun e => (e.2, e.1))

/-- The serving engine's next step for a strand's stream ports (R135, R275). -/
def State.portUnits (s : State) (k : Nat) : Option State :=
  firstStep (s.strand k).ports (fun e =>
    if !s.forkOver k e.2.fork then none
    else
      match s.streamLoc k e.2, e.2.canDrain with
      | none, _ => none
      | some loc, some v => some (s.drainPort k e.1 e.2 v loc)
      | some loc, none => whenever e.2.canFill (fun _ => s.fillPort k e.1 e.2 loc))

/-- What happens to one strand besides its issue: entries, rollbacks, landings and ports. -/
def State.strandUnits (s : State) (k : Nat) : Option State :=
  let x := s.strand k
  if x.trapping.isSome && s.drained k then some (s.finishTrap k)
  else if x.rolling && s.drained k then some (s.finishRollback k)
  else if s.stopEnds k then some (s.freezeStrand k)
  else
    match x.nextLanding s.cycle with
    | some (i, e) => some (s.landAt k i (e.value.getD 0))
    | none => s.portUnits k

/-- The mx paths of a core start and land commands, and its spill engine serves its strands (R228, R230, R247). -/
def State.mxUnits (s : State) (c : Nat) : Option State :=
  ((s.landAbandoned c).or (firstStep (s.core c).mxRun (fun e => whenever (s.mxDone c e.1) (fun _ => s.landMx c e.1 e.2)))).or
  ((firstStep [0, 1, 2, 3] (fun p => (s.mxReady c p).map (fun m => s.onCore c (fun x => x.start p s.cycle m)))).or
    ((s.spillTurn [] c).map (·.2)))

/-- A step that counts only if it changes a rope or what the host is asked. -/
def State.ifRopes (s t : State) : Option State :=
  if t.ropes = s.ropes ∧ t.host.asks = s.host.asks ∧ t.sys.walks = s.sys.walks then none else some t

/-- Reloads of rope heads end, tokens arrive (R265, R268). -/
def State.ropeUnits (s : State) : Option State :=
  (firstStep s.ropes (fun r => firstStep (List.range r.2.reloads.length) (fun i =>
    (goesTo (execReloadComplete r.1 i s)).bind s.ifRopes))).or
    ((s.transit.find? (fun e => s.passes e)).map (fun e => s.tokenArrives e.token))

/-! ## Engines -/

/-- A haul engine starts, advances or replays (R285, R287, R289). -/
def State.engineUnits (s : State) (e : Nat) : Option State :=
  match s.haulReady e with
  | some h => some (s.startHaul e h)
  | none =>
    if !(s.engine e).readyTags.isEmpty then goesTo (execEngineTicketReplay e s)
    else firstStep (List.range (s.engine e).run.length) (fun i =>
      let t := s.advanceHaul e i
      if t.engine e = s.engine e ∧ t.sys.walks = s.sys.walks then none else some t)

/-! ## Fabric -/

/-- The ingress serves the first request that does not wait, in order for each pair (R138). -/
def State.ingressUnits (s : State) : Option State :=
  firstStep s.fab.ingress.zipIdx (fun e =>
    if (s.fab.ingress.take e.2).any (samePair e.1) then none
    else
      let t := ({ s with fab := { s.fab with ingress := s.fab.ingress.erase e.1 } } : State).serveRequest e.1
      if t.fab.ingress.length < s.fab.ingress.length then some t else none)

/-- A store that a stack or a link held performs, and fences that waited for it may end (R16, R129, R420). -/
def State.queueUnits (s : State) : Option State :=
  s.queuedReady.map (fun e => [0, 1, 2, 3].foldl (fun s i => s.endFences (4 * e.2.core + i)) (s.performQueued e.1 e.2))

/-- Page walks end, and invalidations complete (R102, R104). -/
def State.walkUnits (s : State) : Option State :=
  ((s.sys.walks.find? (fun w => s.walkOver w)).map (fun w => s.endWalk w)).or
  (((s.sys.invals.find? (fun v => s.invalOver v)).map (fun v => s.invalEnds v)).or s.atsInvalOver)

/-- A stalled pair is told, told again, looked after or forgotten (R408, R428). -/
def State.stallUnits (s : State) (i : Nat) (e : Stall) : Option State :=
  if e.owed && s.stallReady e then some (s.postNotice i e)
  else if e.why == 2 && s.looksAgain e == some false then some (s.setStall i { e with look := false })
  else if e.expires s.cyc.toNat then goesTo (execStallEntryExpire i s)
  else if e.resends s.cyc.toNat then some (s.resendNotice i e)
  else none

/-- Ingress walks end, translated requests that have waited perform, stalled pairs are looked after (R408, R420, R428). -/
def State.ownerUnits (s : State) : Option State :=
  (firstStep s.fab.walks.zipIdx (fun e => whenever (s.walkReady e.2 e.1) (fun _ => s.walkEnds e.2 e.1))).or
    ((s.waitOver.map s.waitEnds).or (firstStep s.fab.stalls.zipIdx (fun e => s.stallUnits e.2 e.1)))

/-- Tickets of a core's remote accesses that have had no notice (R410). -/
def State.ticketUnits (s : State) (c : Nat) : Option State :=
  firstStep (s.core c).tickets (fun e =>
    let t := e.2
    if t.overdue s.cyc.toNat then goesTo (execTicketTimeout t.strand e.1 s) else none)

/-- Those of an engine's. -/
def State.accessUnits (s : State) (e : Nat) : Option State :=
  firstStep ((s.engine e).run.flatMap (·.pend)) (fun a =>
    if a.overdue s.cyc.toNat then goesTo (execTicketTimeout (1024 + e) a.tag s) else none)

/-- Requests that have left and have no answer by their deadline (R426, R427). -/
def State.requestUnits (s : State) : Option State :=
  firstStep s.fab.out (fun e =>
    if decide (e.at_ + s.deadline ≤ s.cyc.toNat) && !s.isAsked e.tag then goesTo (execRequestDeadline e.who e.tag s)
    else none)

/-- What waits in the egress queues leaves, or is discarded (R326, R430). -/
def State.egressUnits (s : State) : Option State :=
  (s.egressReady.map (fun e => s.egressLeaves e.2 e.1)).or
    (firstStep s.fab.egressQ.zipIdx (fun e => if s.stale e.1 then goesTo (execReplyEgressDiscard e.2 s) else none))

/-- Pairs switch, stations time out and leak, links switch, forward and are lost (R329, R332, R333, R423, R424, R431). -/
def State.linkUnits (s : State) : Option State :=
  ((firstStep s.fab.pairs (fun p => whenever (s.pairReady p.1 p.2) (fun _ => s.pairSwitch p.1 p.2))).or
    (s.egressUnits.or s.laneUnits)).or
    ((firstStep s.fab.stations (fun e =>
      if e.2.overdue s.cyc.toNat && !e.2.ret then goesTo (execRetrainTimeout e.1 s)
      else if !e.2.ret && decide (0 < e.2.bkt) && decide (0 < s.fab.leak) &&
          decide (e.2.leakFrom + s.fab.leak * 2 ^ 20 ≤ s.cyc.toNat) then goesTo (execBucketLeak e.1 s)
      else none)).or
    (((s.fab.routePairs.find? (fun p => !s.routeOpen p.1 p.2)).bind (fun p => goesTo (execD2dRouteSwitch p.1 p.2 s))).or
      (firstStep [0, 1, 2, 3] (fun d => if (s.canForward d).isSome then goesTo (execMulticastForward d s) else none))))

/-! ## Protected state -/

/-- A member whose destination has become unreachable is declared lost (R437). -/
def State.cutMember (s : State) (g : Nat) : Option Nat :=
  let x := s.group g
  x.livers.find? (fun i => i != x.midx && !s.reachable (x.acc i))

/-- A builder's step, and those with which a rebuild target that has everything ends its rebuild, while some live member can be
asked (R445, R446). -/
def State.rebuildUnits (s : State) (g : Nat) : Option State :=
  let x := s.group g
  if x.enabled && x.building && x.whole then
    (if x.endReply.isSome then x.endReply.map (s.endRebuild g)
     else whenever (x.asked.isEmpty && x.livers.any (fun j => j != x.midx && s.reachable (x.acc j))) (fun _ => s.askEnd g))
  else x.builds.bind (fun b => s.buildStep g b.1 b.2)

/-- The cairn engines' and the coordinator's steps for a group (R297, R336, R346, R436). -/
def State.groupUnits (s : State) (g : Nat) : Option State :=
  let x := s.group g
  if x.enabled && (s.cutMember g).isSome then (s.cutMember g).map (s.declareLost g)
  else if !x.zeroing.isEmpty then
    if x.zeroing.any (fun a => s.sleeping a.1) then none else goesTo (execGroupZeroingDone g s)
  else if s.belayReady g then some (s.belayPerforms g)
  else if (s.nextDelta g).isSome then (s.nextDelta g).map (s.sendLater g)
  else if (x.commit.bind Commit.verdict).isSome && x.st != 1 then goesTo (execMemberVote g s)
  else if x.enabled && x.leads && x.st == 0 &&
      x.timer.any (fun t => decide (t + max 1 (fld (x.reg 0x20) 0 32) * 1024 ≤ s.cyc.toNat)) then
    goesTo (execBelayTimeout g s)
  else if x.enabled && !x.building && !x.expelled && decide (x.probeAt + x.period ≤ s.cyc.toNat) then
    goesTo (execProbePeriod g s)
  else ((s.askedLate g).map (s.recordDeadline g)).or (s.rebuildUnits g)

/-- The estimator's window ends, a region's registration ends, and poisoned lines are repaired (R295, R348, R416). -/
def State.cairnUnits (s : State) : Option State :=
  if s.cairn.windowAt + 2 ^ 30 ≤ s.cyc.toNat then goesTo (execEstimatorWindow s)
  else (firstStep s.strands (fun e => if s.registersNext e.1 then goesTo (execRegionRegistered e.1 s) else none)).or
    (firstStep ((s.sys.poison.map (· / 4)).dedup) (fun l => s.lineStep l))

/-! ## Slots -/

/-- A step of a launch counts if it changes its slot, its queue, its ropes or what the host is asked. -/
def State.ifSlot (s : State) (h q : Nat) (t : State) : Option State :=
  if t.slot h = s.slot h ∧ t.queue q = s.queue q ∧ t.host.asks = s.host.asks ∧ t.ropes = s.ropes ∧
      t.sys.walks = s.sys.walks then none else some t

/-- The next step of a gang's placing, loading and start (R45, R307, R316, R317). -/
def State.launchUnits (s : State) (h q : Nat) (g : Gang) : Option State :=
  match g.phase with
  | .waiting => s.ifSlot h q (s.depStep h q g)
  | .placing =>
    let c := s.chosen h g
    if c.phase = .reserving then c.ropes.head?.map (fun r => s.ask h q r c) else none
  | .reserving => (g.ropes.find? (fun r => !g.granted.contains r)).map (fun r => s.ask h q r g)
  | .loading =>
    firstStep g.ropes (fun r =>
      if (s.rope r).res = .held h then goesTo (execCommit h r s)
      else if (s.rope r).ready then none
      else (goesTo (execRopeLoadDone r s)).bind (s.ifSlot h q))
  | .backoff =>
    match g.granted.head? with
    | some r => some (s.giveBack h r g)
    | none => if g.retryAt ≤ s.cyc.toNat then goesTo (execPlacementRetry h s) else none
  | .closing => s.ifSlot h q (s.closeLaunch h g.status g.code)
  | .finished => g.granted.head?.map (fun r => s.giveBack h r g)
  | .starting => whenever (s.starts h g) (fun _ => s.startGang h q g)
  | .resuming => g.saved.map (fun v => s.resumeGang h q g v)
  | _ => none

/-- The next step of a running gang (R45 to R47, R308, R318, R380). -/
def State.runUnits (s : State) (h q : Nat) (g : Gang) : Option State :=
  if g.phase = .running ∨ g.phase = .freezing then
    (firstStep g.ropes (fun r => whenever (s.ropeDone r) (fun _ => s.endRope h r))).or
    (if s.gangDone h g then s.ifSlot h q (s.addDonei h q g)
     else if s.wantsYreq h g then goesTo (execPreemptRequest h s)
     else if s.saveReady h g then s.ifSlot h q (s.saveTo h q g)
     else if s.watchDue q g then some (s.watch h q)
     else if s.saveOverdue q g then goesTo (execSaveTimeout h s)
     else if (s.overdue g).isSome && !s.tells (.freeze h) &&
         (g.phase == .running || g.strands.any (fun k => (s.strand k).atFreeze s.cycle)) then
       goesTo (execForcedFreeze h s)
     else none)
  else none

/-- A slot's next step (R305, R307). -/
def State.slotUnits (s : State) (h : Nat) : Option State :=
  match (s.slot h).queue with
  | none => none
  | some q =>
    ((s.packetReady h).bind (fun q => s.ifSlot h q (s.acceptPacket h q))).or
      ((s.gangAt h).bind (fun g => (s.launchUnits h q g).or (s.runUnits h q g)))

/-! ## Firmware and host -/

/-- The firmware serves strands and queues (R313, R314, R374). -/
def State.firmwareUnits (s : State) : Option State :=
  (firstStep s.strands (fun e =>
    if e.2.fw.isNone then none
    else
      let t := s.serve e.1
      if t.strand e.1 = e.2 ∧ t.core (coreOf e.1) = s.core (coreOf e.1) then none else some t)).or
  ((firstStep s.queues (fun e =>
    if e.2.pend && decide (e.2.eprio < s.eprioNow e.1) then goesTo (execEprioAgeing e.1 s) else none)).or
  (whenever (decide (0 < s.mapDue) && s.firmwareRuns) (fun _ => s.mapQueues)))

/-- Questions to the host that are due again, too old, or kept back by its allocation, requests through BAR2 that waited,
and the boot ROM (R360, R407, R420). -/
def State.hostUnits (s : State) : Option State :=
  (firstStep s.host.asks (fun a =>
    if a.failedAt.any (fun t => decide (t + 2 ^ 16 ≤ s.cyc.toNat)) then goesTo (execAtsRetry a.who s)
    else if a.paged && decide (a.sentAt + 2 ^ 28 ≤ s.cyc.toNat) then goesTo (execPriTimeout a.who s)
    else if a.queued && s.pageRoom then some (s.sendPage a)
    else none)).or
  (s.barNext.or (if s.plat.bootSt = 2 then some s.verifyImage else none))

/-- The next step of a unit that can take one. -/
def State.unitStep (s : State) : Option State :=
  [State.streamUnits, State.fetchUnits, fun s => firstStep s.strands (fun e => s.strandUnits e.1),
    fun s => firstStep s.cores (fun e => s.mxUnits e.1), State.ropeUnits, State.queueUnits, State.walkUnits,
    fun s => firstStep s.engines (fun e => (s.engineUnits e.1).or (s.accessUnits e.1)), State.ingressUnits,
    State.ownerUnits, fun s => firstStep s.cores (fun e => s.ticketUnits e.1), State.requestUnits, State.linkUnits,
    fun s => firstStep s.groups (fun e => s.groupUnits e.1), State.cairnUnits,
    fun s => firstStep s.slots (fun e => s.slotUnits e.1), State.firmwareUnits, State.hostUnits].findSome? (fun f => f s)

end Sys2Proof.Machine

namespace Sys2Proof

/-- The units that a step names exist (R13 to R15): an instruction of a slot is no step of a unit. -/
def Instr.unitsExist (i : Instr) : Bool :=
  match i with
  | .holdBundle => false
  | .emptyBundle => false
  | .streamRead r c => decide (r < 32) && decide (c < 4)
  | .leadOutcome r c => decide (r < 32) && decide (c < 4)
  | .joinComplete r c => decide (r < 32) && decide (c < 4)
  | .moprRendezvousStart r c => decide (r < 32) && decide (c < 4)
  | .privateFetchRead k => decide (k < 1024)
  | .resultLand k _ => decide (k < 1024)
  | .poisonAtBound k _ => decide (k < 1024)
  | .trapEntry k => decide (k < 1024)
  | .rollback k _ _ => decide (k < 1024)
  | .spillEntry c => decide (c.strand < 1024)
  | .fillEntry k => decide (k < 1024)
  | .streamPortFill k _ => decide (k < 1024)
  | .streamPortDrain k _ => decide (k < 1024)
  | .regionRegistered k => decide (k < 1024)
  | .reserve h r => decide (h < 64) && decide (r < 32)
  | .commit h r => decide (h < 64) && decide (r < 32)
  | .release h r => decide (h < 64) && decide (r < 32)
  | .ropeLoadDone r => decide (r < 32)
  | .ropePartDone r => decide (r < 32)
  | .reloadComplete r _ => decide (r < 32)
  | .gangStart h => decide (h < 64)
  | .placementRetry h => decide (h < 64)
  | .preemptRequest h => decide (h < 64)
  | .forcedFreeze h => decide (h < 64)
  | .gangSave h => decide (h < 64)
  | .gangResume h => decide (h < 64)
  | .packetAccept h => decide (h < 64)
  | .dependenceMet h => decide (h < 64)
  | .gangComplete h => decide (h < 64)
  | .watchdogCheck h => decide (h < 64)
  | .saveTimeout h => decide (h < 64)
  | .mxCommandStart c p => decide (c < 256) && decide (p < 4)
  | .mxCommandLand c p => decide (c < 256) && decide (p < 4)
  | .haulCommandStart e => decide (e < 64)
  | .haulCompletion e _ => decide (e < 64)
  | .engineTicketReplay e => decide (e < 64)
  | .tokenArrival d t => decide (d < 4) && decide (t < 1024)
  | .belayOpen g => decide (g < 16)
  | .memberVote g => decide (g < 16)
  | .belayTimeout g => decide (g < 16)
  | .probePeriod g => decide (g < 16)
  | .groupZeroingDone g => decide (g < 16)
  | .gctlEnable g => decide (g < 16)
  | .gctlDisable g => decide (g < 16)
  | .gownWrite g _ => decide (g < 16)
  | .recordReadReply g _ _ _ => decide (g < 16)
  | .lineRepair k l => decide (k < 8) && decide (l < 2 ^ 28)
  | .rebuildUnit g _ _ _ => decide (g < 16)
  | .rebuildEnd g _ _ => decide (g < 16)
  | .kick q _ => decide (q < 4096)
  | .eprioAgeing q => decide (q < 4096)
  | .queueRecordWrite q o _ _ => decide (q < 4096) && decide (o < 256)
  | .qctlErrClear q => decide (q < 4096)
  | .multicastForward d => decide (d < 4)
  | .flitReplay n => decide (n < 24)
  | .stationRetrain n => decide (n < 24)
  | .retrainComplete n => decide (n < 24)
  | .retrainTimeout n => decide (n < 24)
  | .bucketLeak n => decide (n < 24)
  | .stationRetClear n => decide (n < 24)
  | .d2dRouteSwitch l c => decide (l < 6) && decide (c < 16)
  | .d2dLaneRetrain l _ => decide (l < 6)
  | .d2dLaneGroupUp l _ => decide (l < 6)
  | .zoneWarn z _ => decide (z < 12)
  | .zoneCrit z _ => decide (z < 12)
  | .zoneBelowWarn z _ => decide (z < 12)
  | .selfRefreshExit n _ => decide (n < 8)
  | .bankRefresh n _ => decide (n < 8)
  | .scrubIssue n _ => decide (n < 8)
  | .pageWalkComplete d _ _ => decide (d < 4)
  | .stagingSplitWrite d n _ => decide (d < 4) && decide (n < 16)
  | .bar2Write o _ => decide (o < 2 ^ 41)
  | .bar2Read o _ => decide (o < 2 ^ 41)
  | i => i.slotKind.isNone

/-- A step of the host's, the platform's or a reset's, which a stopped device still takes (R383). -/
def Instr.fromHost (i : Instr) : Bool :=
  match i with
  | .coldReset => true
  | .fundamentalReset => true
  | .functionLevelReset => true
  | .pcieLinkDown => true
  | .registerWrite _ _ _ => true
  | .queueRecordWrite _ _ _ _ => true
  | .qctlErrClear _ => true
  | .kick _ _ => true
  | .evackWrite _ => true
  | .eventRingConfigWrite _ _ => true
  | .flogsizeWrite _ => true
  | .bar2Write _ _ => true
  | .bar2Read _ _ => true
  | .pcieCorrectableError _ => true
  | .pciePoisonedTlp _ _ => true
  | .unexpectedCompletion _ => true
  | .pcieFatalError _ => true
  | .zoneBelowWarn _ _ => true
  | _ => false

end Sys2Proof
end

