-- ==== Sys2Proof/Machine/Issue.lean ====
section
/-! DEFINITION. The issue of bundles: choosing a strand (R25, R26), running a bundle's slots (R147, R372, R387), what
follows a bundle (R29, R40, R175, R183), waits that are met (R252, R262), and what the device does by itself in a cycle
(log entry 4). -/

namespace Sys2Proof.Machine

/-! ## Choosing a strand (R25, R26) -/

/-- The strand is in no entry, rollback, service or page request that keeps it from issuing. -/
def Strand.live (x : Strand) : Bool :=
  (x.st == .attached || x.st == .detached || x.st == .waiting) &&
  x.fw.isNone && x.trapping.isNone && !x.rolling && x.pri.isNone && !x.freezing

/-- The bundle at the head of strand `k`'s queue has come from the rope head (R23, R31), DLY and HOLD let it issue on this
cycle, and no forced freeze stops the strand in front of a YPOINT (R47). `lastIssue` is one more than the cycle of the last
issue. -/
def State.due (s : State) (k : Nat) : Bool :=
  let x := s.strand k
  match x.queue with
  | [] => false
  | f :: _ => decide (f.at_ ≤ s.cycle) && decide (x.ready ≤ s.cycle) && decide (x.lastIssue + f.what.dly ≤ s.cycle) &&
    !((s.rope (ropeOf k)).stopped && f.what.isYpoint)

/-- Strand `k` can try to issue its next bundle on this cycle. -/
def State.offers (s : State) (k : Nat) : Bool := (s.strand k).live && s.due k

/-- The strand that a core would issue now: the selected one while its turn lasts, and otherwise the first in order after it
that has not been tried on this cycle. -/
def State.candidate (s : State) (c : Nat) : Option Nat :=
  let x := s.core c
  let own := 4 * c + x.sel
  if x.gave || (s.strand own).st == .idle then
    ([1, 2, 3, 4].map (fun i => 4 * c + (x.sel + i) % 4)).find? (fun k =>
      (s.strand k).tried != some s.cycle && s.offers k)
  else if s.offers own then some own else none

/-- The selected strand of a core has no next bundle to issue, or has just trapped or been rolled back: its turn ends on
this cycle (R26). -/
def State.turnEnds (s : State) (c : Nat) : Bool :=
  let x := s.strand (4 * c + (s.core c).sel)
  !(s.core c).gave && ((s.core c).ends || (!x.live && x.st != .idle))

/-- The strand's next bundle holds a SEMWAIT whose wait has not been met: it is evaluated after the semaphore operations of
the cycle (R58). -/
def Strand.waitsSem (x : Strand) : Bool :=
  x.met.isNone && (match x.queue with
    | f :: _ => (match f.what.mem with
      | some (.semwait _) => true
      | _ => false)
    | [] => false)

/-- The cores that have a strand listed, in increasing order. -/
def State.liveCores (s : State) : List Nat := (s.strands.map (fun e => e.1 / 4)).dedup

/-- What a core does on a cycle: its strand issues, its turn ends, or its strand waits for the cycle's semaphore
operations. -/
inductive Turn where
  | issues (k : Nat)
  | ends
  | defers
deriving DecidableEq, Repr

/-- What a core does now, if it is its time. -/
def State.turnOf (s : State) (c : Nat) : Option Turn :=
  if s.turnEnds c then some .ends
  else (s.candidate c).map (fun k => if (s.strand k).waitsSem && !s.arrived then .defers else .issues k)

/-- The next core of this cycle that does something: first every core in increasing order, and after the semaphore
operations those whose strand has waited for them. -/
def State.pick (s : State) : Option (Nat × Turn) :=
  s.liveCores.findSome? (fun c =>
    if c < s.turn || (s.arrived && !s.deferred.contains c) then none else (s.turnOf c).map (fun t => (c, t)))

/-! ## Issuing a bundle (R147, R372, R387) -/

/-- A wait is satisfied: the strand is as it was before it (R49). -/
def Strand.unwait (x : Strand) : Strand :=
  { x with st := if x.st = .waiting then (if x.wasAttached then .attached else .detached) else x.st
           wasAttached := false, wait := none }

/-- Begin the issue of a delivered bundle: the strand leaves its wait, and everything is read as it stands now. -/
def State.begin (s : State) (k : Nat) (f : Fetched) : State :=
  let h := match f.what with
    | .bits w => some (headerOf w)
    | _ => none
  let s := s.onStrand k (fun x => x.unwait.reenter s.cycle (h.any (fun h => h.x != x.lastX)))
  let x := s.strand k
  { s with
    freeCount := s.freeCount + 1
    issue := { strand := k, pc := f.pc, bank := f.bank, succ := f.succ, x := (h.map (·.x)).getD x.lastX,
               mark := (h.map (·.mark)).getD false, pre := x } }

/-- The bundle traps before it issues. For a bundle behind the last index word, TBA takes the program counter 0x10000, for
which R63 has no place and R168 no rule (log entry 104). -/
def State.trapHere (s : State) (fs : List SlotFault) : State :=
  s.takeTrap s.issue.strand (s.issue.bank * 2 ^ 16 + s.issue.pc) fs

/-- Do one thing after another. -/
def andThen (o : Host.Outcome State Fault Refusal) (f : State → Host.Outcome State Fault Refusal) :
    Host.Outcome State Fault Refusal :=
  match o with
  | .next s => f s
  | .fault r => .fault r
  | .refused r => .refused r

/-- The slots that decode, with their numbers. -/
def goodSlots : List (Nat × Nat × Except Cause Instr) → List (Nat × Instr)
  | [] => []
  | (n, _, .ok i) :: t => (n, i) :: goodSlots t
  | _ :: t => goodSlots t

/-- The faults of the slots that do not decode. -/
def badSlots : List (Nat × Nat × Except Cause Instr) → List SlotFault
  | [] => []
  | (n, b, .error c) :: t => { slot := n, cause := c, info := b } :: badSlots t
  | _ :: t => badSlots t

/-- Two instructions name one destination (R147, R398). -/
def clash (i j : Instr) : Bool :=
  i.conflicts.any (fun d => j.conflicts.contains d) ||
  (i.tileDest.isSome && i.tileDest == j.tileDest) || (i.latchDest.isSome && i.latchDest == j.latchDest)

/-- The slots that name an instruction, whether or not its encoding has a fault, with their bits. -/
def namedSlots (l : List (Nat × Nat × Except Cause Instr)) : List (Nat × Nat × Instr) :=
  l.filterMap (fun e => (decodeIn (slotPlace e.1).1 e.2.1).map (fun i => (e.1, e.2.1, i)))

/-- The conflict faults of a bundle: both slots are marked, each with its bits (R147, R227, R374). -/
def clashFaults (slots : List (Nat × Nat × Except Cause Instr)) : List SlotFault :=
  let is := namedSlots slots
  is.filterMap (fun e =>
    if is.any (fun g => g.1 != e.1 && clash e.2.2 g.2.2) then
      some { slot := e.1, cause := .destinationConflict, info := e.2.1 }
    else none)

/-- One fault for each slot: the cause with the lowest code (R372), in slot order. -/
def lowestFaults (fs : List SlotFault) : List SlotFault :=
  [0, 1, 2, 3, 4, 5].filterMap (fun n => (fs.filter (fun f => f.slot = n)).foldl (fun (b : Option SlotFault) f =>
    match b with
    | none => some f
    | some g => if f.cause.code < g.cause.code then some f else some g) none)

/-- Run every slot of a list in one phase. -/
def runPhase (p : Stage3) : List (Nat × Instr) → State → Host.Outcome State Fault Refusal
  | [], s => .next s
  | (n, i) :: t, s => andThen (exec i (s.onIssue (fun x => { x with phase := p, slot := n }))) (runPhase p t)

/-- What the probes of a bundle's slots lead to: a trap, a block, an access that fails, or the act and the commit. -/
def actBundle (is : List (Nat × Instr)) (fs : List SlotFault) (s : State) : Host.Outcome State Fault Refusal :=
  let all := lowestFaults (fs ++ s.issue.faults)
  if !all.isEmpty then .next (s.trapHere all)
  else
    match s.issue.waits.head?.or (s.bundleWait (is.map (·.2))), s.issue.misses.head? with
    | some w, _ => .next (s.block w)
    | none, some m => .next (s.missed m)
    | none, none => andThen (runPhase .act is (s.openBundle (is.map (·.2)))) (fun t => .next t.commit)

/-- Run a bundle of several slots, or one whose slot does not decode. -/
def runMany (slots : List (Nat × Nat × Except Cause Instr)) (s : State) : Host.Outcome State Fault Refusal :=
  let is := goodSlots slots
  andThen (runPhase .probe is s) (actBundle is (badSlots slots ++ clashFaults slots))

/-- Run the bundle whose issue has begun. -/
def runBundle (f : Fetched) (s : State) : Host.Outcome State Fault Refusal :=
  match s.issue.pre.mxBad, f.what with
  | some info, _ =>
    .next ((s.onMe (fun x => { x with mxBad := none })).trapHere [{ slot := 6, cause := .softError, info := info }])
  | none, .hold => exec .holdBundle s
  | none, .trap c info => .next (s.trapHere [{ slot := 6, cause := c, info := info }])
  | none, .bits w =>
    if (headerOf w).rest ≠ 0 then
      .next (s.trapHere [{ slot := 6, cause := .reservedEncoding, info := fld w 0 32 }])
    else
      match bundleSlots w with
      | [] => exec .emptyBundle s
      | [(n, _, .ok i)] => exec i (s.onIssue (fun x => { x with phase := .lone, slot := n }))
      | l => runMany l s

/-! ## After the bundle (R175, R183, R40, R29) -/

/-- The strand's next program counter and loop registers once its bundle has committed: a transfer or a handler's
sequence decides, and otherwise the loop ends do (R183). A bundle that has trapped has matched them as it committed, and
the strand goes on at its vector. -/
def Strand.moveOn (x : Strand) (i : Issue) : Strand :=
  if i.transfer || i.after.isSome then x
  else if i.pre.handler ≠ .none then { x with pc := i.succ }
  else
    let r := x.closeLoops i.pc i.bank i.succ
    { r.1 with pc := r.2 }

/-- The issue of a committed bundle ends: the strand moves on, its queue and its restart point with it. -/
def State.finish (s : State) : State :=
  let i := s.issue
  if i.committed then
    let n := s.detachedOf (ropeOf i.strand)
    let s := s.onMe (fun x =>
      { x.moveOn i with
        queue := x.queue.drop 1, lastX := i.x, lastIssue := s.cycle + 1, tried := none, since := none, moved := none
        port := if x.queue.head?.any (·.what.pauses) then none else x.port
        readAt := max (x.nextRead i.pre n s.cycle) (if x.queue.head?.any (·.what.pauses) then s.cycle + 1 else 0) })
    let s := match s.queueOf i.strand with
      | none => s
      | some q => s.onQueue q (fun c => { c with prog := (c.prog + 1) % 2 ^ 64 })
    let s := if i.sealed_ && i.after.isNone then
        (s.releaseGate i.strand).onMe (fun x => x.restartAt x.pc x.bank i.x)
      else s
    s.meetExpected i.strand
  else s

/-- After an attempt of strand `k`: a bundle that has issued takes the slot for its strand. A search goes on past a
strand that is blocked; any other attempt that does not issue ends the strand's turn, and no strand issues on this
cycle. A bundle that traps as it commits ends its strand's turn on the next cycle (R26). -/
def State.endTurn (s : State) (k : Nat) (searching : Bool) : State :=
  let c := coreOf k
  if s.issue.committed then
    { s.onCore c (fun x => { x with sel := ctxOf k, gave := false, ends := x.ends || s.issue.after.isSome }) with turn := c + 1 }
  else if searching && (s.strand k).st == .waiting then s
  else { s.onCore c (fun x => { x with sel := ctxOf k, gave := true, ends := false }) with turn := c + 1 }

/-- Issue the bundle at the head of strand `k`'s queue. -/
def issueStrand (k : Nat) (s : State) : Host.Outcome State Fault Refusal :=
  match (s.strand k).queue with
  | [] => .next s
  | f :: _ =>
    andThen (runBundle f (s.begin k f)) (fun t => .next (t.finish.endTurn k (s.core (coreOf k)).gave))

/-! ## Waits that are met (R49, R252) -/

/-- The access of an instruction whose wait is met by itself, with what it brings (R258, R262, R263, R265, R266, R272). -/
def waitAccess : Instr → Option (State → Nat × State)
  | .ldf f => some (ldfAccess f)
  | .ldfk f => some (ldfkAccess f)
  | .ste f => some (steAccess f)
  | .semwait f => some (semwaitAccess f)
  | .cntwait _ => some (fun s => (0, s))
  | .tokacq _ => some (fun s => (0, s))
  | .bufacq f => some (bufacqAccess f)
  | .tickwait _ => some (fun s => (s.tickWord, s))
  | _ => none

/-- What the probes of a list of slots note in a state; what cannot be probed notes a fault. -/
def State.probed (s : State) (is : List (Nat × Instr)) : Issue :=
  match runPhase .probe is s with
  | .next t => t.issue
  | _ => { faults := [{ slot := 6, cause := .reservedEncoding, info := 0 }] }

/-- What the bundle of a waiting strand would still block on. -/
def State.blocks (s : State) (k : Nat) (f : Fetched) : Option Wait :=
  let t := s.begin k f
  match f.what with
  | .trap _ _ => none
  | .hold => t.bundleWait []
  | .bits w =>
    let slots := bundleSlots w
    let is := goodSlots slots
    let i := t.probed is
    if (headerOf w).rest ≠ 0 ∨ !(badSlots slots ++ clashFaults slots ++ i.faults).isEmpty then none
    else i.waits.head?.or (t.bundleWait (is.map (·.2)))

/-- The access of a waiting strand's mem slot performs if its wait is met and nothing of its bundle faults, after the gate
has released; the bundle issues later (R40, R252). -/
def State.meet (s : State) (k : Nat) (f : Fetched) : State :=
  match (s.strand k).met, f.what with
  | none, .bits w =>
    let slots := bundleSlots w
    let is := goodSlots slots
    match is.findSome? (fun e => (waitAccess e.2).map (fun a => (e, a))) with
    | none => s
    | some (e, access) =>
      let t := s.begin k f
      let faults := badSlots slots ++ clashFaults slots ++ (t.probed is).faults
      let mine := t.probed [e]
      if faults.isEmpty && mine.waits.isEmpty && mine.misses.isEmpty && !t.held e.2.accessMask e.2.storeMask && !t.gateWaits [e.2] then
        let s := (s.releaseGate k).onStrand k (fun x => x.restartAt f.pc f.bank x.lastX)
        let (v, u) := access (s.begin k f)
        ({ u with issue := s.issue, freeCount := s.freeCount } : State).setStrand k { s.strand k with met := some v }
      else s
  | _, _ => s

/-- A waiting strand whose block has cleared leaves its wait (R49); its bundle issues when the selector gives it the
slot. -/
def State.wakeStrand (s : State) (k : Nat) : State :=
  let x := s.strand k
  match x.queue with
  | f :: _ =>
    if x.st == .waiting && x.live then
      let s := s.meet k f
      match s.blocks k f with
      | none => s.onStrand k Strand.unwait
      | some w =>
        let s := s.onStrand k (fun x => { x with
          wait := some w, since := x.since.or (if w.arrives then some s.cycle else none), moved := x.moved.orElse (fun _ => w.movedAt s.cycle) })
        match w with
        | .walking root page => s.walkFor k root page
        | _ => s
    else s
  | [] => s

/-! ## Time (R7, R365) -/

/-- The bounds of the strand's commands do not count against the tiles now: from cycle F of a forced freeze they go into its
replay buffer, and after a resume they count from cycle G (R47, R48, R239). -/
def Strand.held (x : Strand) : Bool := x.resumed || (x.st == .frozen && x.frozenAt.isSome)

/-- CYC advances by a cycle of the arithmetic clock: 2,500 / FREQ counts (R7, R21, R365). -/
def State.countCyc (s : State) : State :=
  let f := max 1 s.plat.freq
  { s with cyc := s.cyc + BitVec.ofNat 64 ((s.cycRest + 2500) / f), cycRest := (s.cycRest + 2500) % f }

/-- A cycle passes: CYC counts, every strand's results settle, and waits that are met end (R34, R37, R252, R259). -/
def State.tick (s : State) : State :=
  let s : State := { s.countCyc with
    cycle := s.cycle + 1, turn := 0, granted := [], deferred := [], arrived := false, raised := [] }
  let s := s.strands.foldl (fun s e => s.settle e.1) s
  let s : State := { s with cores := s.cores.map (fun e => (e.1, e.2.settleTiles (fun k => (s.strand k).held) s.cycle)) }
  s.strands.foldl (fun s e => s.wakeStrand e.1) s

/-- What a core does on its time. -/
def takeTurn (c : Nat) (t : Turn) (s : State) : Host.Outcome State Fault Refusal :=
  match t with
  | .issues k => issueStrand k s
  | .ends => .next { s.onCore c (fun x => { x with gave := true, ends := false }) with turn := c + 1 }
  | .defers => .next { s with turn := c + 1, deferred := c :: s.deferred }

/-- What the device does by itself: a core has its turn, else a unit takes its next step, else the semaphore operations of
the cycle take effect and the cores that wait for them have their turns, else a cycle passes. Once it has been stopped,
only time passes (R383). -/
def proceed (s : State) : Host.Outcome State Fault Refusal :=
  if s.plat.stopped then .next s.tick else
  match s.pick with
  | some (c, t) => takeTurn c t s
  | none =>
    match s.unitStep with
    | some t => .next t
    | none =>
      if s.arrived || (s.deferred.isEmpty && s.semOps.isEmpty) then .next s.tick else .next s.semArrivals

end Sys2Proof.Machine
end

