-- ==== Sys2Proof/Machine/Step.lean ====
section
/-! DEFINITION. One step of the device: the agenda's next entry, or a core's next bundle, or a unit's own step, or the
passing of a cycle (R25, R26; log entry 4), and the placing of one instruction where the next step fetches it. -/

namespace Sys2Proof.Machine

/-- The units that an agenda entry names exist (R13 to R15, R324). -/
def Agendum.exists (a : Agendum) : Bool :=
  match a with
  | .event i => i.unitsExist
  | .cycles _ => true
  | .firmware k => decide (k < 1024)

/-- One step: the agenda's next entry, or else what the device does by itself (log entry 4). A stopped device takes only
what comes from outside it (R383). -/
def step (s : State) : Host.Outcome State Fault Refusal :=
  match s.agenda with
  | [] => proceed s
  | .cycles n :: rest =>
    if n = 0 then .next { s with agenda := rest }
    else
      andThen (proceed { s with agenda := [] }) (fun t =>
        .next { t with agenda := t.agenda ++ Agendum.cycles (if t.cycle = s.cycle then n else n - 1) :: rest })
  | a :: rest =>
    if a.exists then
      match a with
      | .event i => if s.plat.stopped && !i.fromHost then .next { s with agenda := rest } else exec i { s with agenda := rest }
      | .firmware k => .next (if s.plat.stopped then { s with agenda := rest } else ({ s with agenda := rest } : State).serve k)
      | .cycles _ => .next s
    else .fault .noSuchUnit

/-! ## Placing an instruction -/

/-- A strand that runs by itself from program counter 0 of bank 0, for which the port has read a bundle. -/
def freshRunner (f : Fetched) (x : Strand) : Strand :=
  { x with st := .detached, wasAttached := false, wait := none, pc := 0, bank := 0, ready := 0, lastIssue := 0,
           tried := none, queue := [f], port := none, readAt := 0, fw := none, trapping := none, rolling := false,
           pri := none, mxBad := none, freezing := false, met := none,
           expect := [], outcome := none, reloadWait := [], belay := none, registering := none, replayHold := false }

/-- The copy with an index word 0 at program counter 0 that names entry 0, and that entry's 48 bytes; or with the given
index word alone. -/
def placeWord (copy : Table Byte) (nbits w : Nat) : Table Byte :=
  let put (t : Table Byte) (off n v : Nat) : Table Byte :=
    ((locsFrom off n).zip (toBytes n v)).foldl (fun t e => Table.set t e.1 e.2) t
  if nbits ≤ 16 then put copy (wordOff 0) 2 w else put (put copy (wordOff 0) 2 0) 0 48 w

/-- The state with an instruction where the next step fetches it: it stands in the copy of rope 0, and the private port has
read it for strand 0, which runs by itself and whose time to issue it is (log entry 5). -/
def State.withFetchWord (s : State) (nbits w : Nat) : State :=
  let s := s.onRope 0 (fun r => { r with copy := placeWord r.copy nbits w, bad := [] })
  let s := (s.onStrand 0 (freshRunner (s.fetch 0 0 0 s.cycle))).onCore 0 (fun c =>
    { c with sel := 0, gave := false, ends := false })
  { s with agenda := [], turn := 0, arrived := true, deferred := [0] }

end Sys2Proof.Machine
end

