-- ==== Sys2Proof/Safety.lean ====
section
/-! DEFINITION. The terms in which claims about the machine are stated: when an instruction alone in its bundle executes
normally, what its result reaching a register means, what it leaves unchanged, and invariants of the step. -/

namespace Sys2Proof

open Machine

/-! ## When an instruction executes normally (R26, R34, R372, R387, R388) -/

/-- The sources of an instruction beyond `Instr.reads`: the index scalars of a tensor access (R106), and the A operand
that a MOPR reads only at positions 0 and 4 (R237). -/
def Instr.moreSources (i : Instr) (s : State) : List Dest :=
  match i with
  | .vldt f => tensorScalars f s
  | .vstt f => tensorScalars f s
  | .mopr f => if s.feedsRope then [.a f.aa, .a (f.aa + 1)] else []
  | _ => []

/-- What the value stage and the wait stage of an instruction find (R26, R388); most instructions check nothing there. -/
def Instr.valueHurdle (i : Instr) (s : State) : Option Hurdle :=
  match i with
  | .jmpr f => badTarget (s.ra f.tgt)
  | .callr f => badTarget (s.ra f.tgt)
  | .ret f => badTarget (s.ra f.tgt)
  | .loop f => loopHurdle f s
  | .join f => joinHurdle f s
  | .exit => exitHurdle s
  | .rtt => rttHurdle s
  | .mts f => mtsHurdle f s
  | .ld f => ldHurdle f s
  | .st f => stHurdle f s
  | .vld f => vldHurdle f s
  | .vst f => vstHurdle f s
  | .vldt f => tensorHurdle f false s
  | .vstt f => s.storeHurdle f.at_ (tensorHurdle f true s)
  | .vgath f => vgathHurdle f s
  | .vscat f => vscatHurdle f s
  | .ldf f => unlessMet (tagHurdle f true) s
  | .ldfk f => unlessMet (tagHurdle f true) s
  | .ste f => unlessMet (tagHurdle f false) s
  | .feset f => plainTagHurdle f s
  | .feprobe f => plainTagHurdle f s
  | .atom f => atomHurdle f s
  | .atomcas f => atomHurdle f s
  | .semadd f => arrivalHurdle f s
  | .semset f => arrivalHurdle f s
  | .semwait f => unlessMet (semwaitHurdle f) s
  | .cntwait f => unlessMet (cntwaitHurdle f) s
  | .fence f => fenceHurdle f s
  | .tokacq f => unlessMet (tokacqHurdle f) s
  | .tokpass f => tokpassHurdle f s
  | .bufacq f => unlessMet (bufacqHurdle f) s
  | .bufrel f => bufrelHurdle f s
  | .discard f => cacheHurdle f s
  | .wback f => cacheHurdle f s
  | .inval f => cacheHurdle f s
  | .iinval f => rangeHurdle f s
  | .pref f => rangeHurdle f s
  | .rld f => rldHurdle f s
  | .rst f => rstHurdle f s
  | .ratom f => ratomHurdle f s
  | .tickwait _ => unlessMet tickwaitHurdle s
  | .sbind f => sbindHurdle f s
  | .sdone f => sdoneHurdle f s
  | .haul f => haulHurdle 0 f s
  | .haulg f => haulHurdle 1 f s
  | .hgath f => haulHurdle 2 f s
  | .hscat f => haulHurdle 3 f s
  | .protect f => protectHurdle f s
  | .unprotect f => unprotectHurdle f s
  | .belay f => belayHurdle f s
  | .bwait f => bwaitHurdle f s
  | .mlatch f => mlatchHurdle f s
  | .mop f => s.arrayHurdle (.mop f) f 32 (f.rows + 1) true false
  | .mops f => s.arrayHurdle (.mops f) f 16 (f.rows + 1) true false
  | .mopr f => moprHurdle f s
  | .mrank1 f => s.floatTileHurdle (.mrank1 f) f.acc 0
  | .mzero f => mzeroHurdle f s
  | .mloss f => s.floatTileHurdle (.mloss f) f.acc 1
  | .mdrain f => mdrainHurdle f s
  | .mstat f => mstatHurdle f s
  | .oread f => s.segHurdle (.oread f) f
  | .owrite f => s.segHurdle (.owrite f) f
  | .omom f => s.optHurdle (.omom f) f false
  | .oadam f => s.optHurdle (.oadam f) f true
  | .pusht f => pushtHurdle f s
  | .popt f => poptHurdle f s
  | .tstk f => tstkHurdle f s
  | _ => none

/-- What stands in the way of an instruction: a trap cause, a wait, or an access that cannot perform (R372, R26). -/
def Instr.hurdle (i : Instr) (s : State) : Option Hurdle := s.slotHurdle i (i.moreSources s) (i.valueHurdle s)

/-- The instruction is one of a slot's (R142), not a step of another party. -/
def Instr.isSlot (i : Instr) : Bool := i.slotKind.isSome

end Sys2Proof

namespace Sys2Proof.Machine

/-- No slot of the bundle has acted that ends the strand, traps as the bundle commits, or writes a special register. -/
abbrev Issue.Plain (i : Issue) : Prop := i.after = none ∧ i.special = none ∧ i.exits = false

/-- The instruction is alone in its bundle, whose issue has begun, so the strand stands as it did before the bundle, and
nothing stands in its way (R26, R34, R372, R387): no cause of a trap, no interlock, no wait. -/
def State.ready (s : State) (i : Instr) : Prop :=
  s.issue.phase = .lone ∧ s.issue.Plain ∧ s.issue.pre = s.me ∧ i.hurdle s = none ∧
    s.bundleWait [i] = none

/-- The state in which a lone instruction acts: a marked or irrevocable bundle has become the restart point, after the
restart gate has performed what it held (R39 to R41). -/
def State.opened (s : State) (i : Instr) : State := s.openBundle [i]

/-! ## Results (R34, R52, R195) -/

/-- A result `v` reaches destination `d` of the issuing strand with a fixed latency: a fixed register takes nothing
(R52); a latency of one is in the register before the next bundle; a longer one is in flight and lands at its end. `o` is
the state in which the instruction acts, `t` the state after it. -/
def HasResult (o t : State) (d : Dest) (v lat : Nat) : Prop :=
  if d.fixed then ∀ e, t.me.get e = o.me.get e
  else if lat ≤ 1 then t.me.get d = v % 2 ^ destWidth d
  else ∃ e ∈ t.me.inflight, e.dest = d ∧ e.value = some v ∧ e.due = o.cycle + lat ∧ e.lands = some (o.cycle + lat) ∧
    e.dead = false

/-- A vector result `v` of fixed latency reaches the register or the port that field `x` names (R146, R148): for a port, a
place is reserved at the end of its queue, and the result that fills it is in flight. -/
def DeliversVec (o t : State) (x v lat : Nat) : Prop :=
  if x < 384 then HasResult o t (.v x) v lat
  else ∃ id, (∃ p ∈ t.places o.issue.strand x true, p.id = id ∧ p.val = none) ∧
    HasResult o t (.push x id) v (max lat 2)

/-- The flags that FLAGS gains as the bundle commits are `fl`, beside those of mx commands that have landed (R62, R230). -/
def FlagsGain (o t : State) (fl : Nat) : Prop :=
  t.me.flags = o.me.flags ||| ((o.issue.flags ||| fl) ||| o.issue.pre.mxFlags)

/-- A result of variable latency is in flight to a destination, with its value where that is known at issue (R34). -/
def Pending (o t : State) (d : Dest) (v : Option Nat) (lat : Nat) : Prop :=
  if d.fixed then ∀ e, t.me.get e = o.me.get e
  else ∃ e ∈ t.me.inflight, e.dest = d ∧ e.value = v ∧ e.due = o.cycle + latBound lat ∧ e.dead = false

/-- Executed in a state in which it is ready, the instruction answers a next state in which its bundle has committed and
its fixed-latency result has been delivered. -/
def Gives (s : State) (i : Instr) (d : Dest) (v lat : Nat) : Prop :=
  ∃ t, exec i s = .next t ∧ t.issue.committed = true ∧ HasResult (s.opened i) t d v lat

/-- Executed in a state in which it is ready, the instruction answers a next state in which its bundle has committed, and
`p` holds of the state in which it acted and of that next state. -/
def Runs (s : State) (i : Instr) (p : State → State → Prop) : Prop :=
  ∃ t, exec i s = .next t ∧ t.issue.committed = true ∧ p (s.opened i) t

/-- The same for a result of variable latency. -/
def Owes (s : State) (i : Instr) (d : Dest) (v : Option Nat) (lat : Nat) : Prop :=
  ∃ t, exec i s = .next t ∧ t.issue.committed = true ∧ Pending (s.opened i) t d v lat

/-! ## Frames -/

/-- Every register but those of `ds` holds what it held. -/
def RegsKept (o t : State) (ds : List Dest) : Prop := ∀ e, e ∉ ds → t.me.get e = o.me.get e

/-- Every byte of memory outside `l` reads as it did. -/
def MemoryKept (o t : State) (l : List Nat) : Prop := ∀ a, a ∉ l → t.byte a = o.byte a

/-- The special registers of the issuing strand that no flag, loop or trap rule writes hold what they held (R61 to R66):
the trap registers, LSCALE, SRSEED, YREQ, PDL, the stack registers, the image bases. -/
def SpecialsKept (o t : State) : Prop :=
  t.me.tvec = o.me.tvec ∧ t.me.rvec = o.me.rvec ∧ t.me.tba = o.me.tba ∧ t.me.tfm = o.me.tfm ∧
  t.me.tcause = o.me.tcause ∧ t.me.tinfo = o.me.tinfo ∧ t.me.lscale = o.me.lscale ∧ t.me.srseed = o.me.srseed ∧
  t.me.yreq = o.me.yreq ∧ t.me.pdl = o.me.pdl ∧ t.me.stkbase = o.me.stkbase ∧ t.me.stklim = o.me.stklim ∧
  t.me.stkspill = o.me.stkspill ∧ t.me.stkmark = o.me.stkmark ∧ t.me.img = o.me.img ∧ t.me.handler = o.me.handler

/-- The loop registers, LIX among them, hold what they held (R182, R183). -/
def LoopsKept (o t : State) : Prop := t.me.loops = o.me.loops ∧ t.me.lix = o.me.lix

/-- Only flags of `mask` may have been raised, beside those of mx commands that have landed meanwhile (R62, R230). -/
def FlagsWithin (o t : State) (mask : Nat) : Prop :=
  ∃ m, t.me.flags = o.me.flags ||| ((o.issue.flags ||| m) ||| o.issue.pre.mxFlags) ∧ m &&& mask = m

/-- A vector result of variable latency is in flight to the register or the port that field `x` names. -/
def PendingVec (o t : State) (x : Nat) (v : Option Nat) (lat : Nat) : Prop :=
  if x < 384 then Pending o t (.v x) v lat
  else ∃ id, (∃ p ∈ t.places o.issue.strand x true, p.id = id ∧ p.val = none) ∧ Pending o t (.push x id) v lat

/-- What the cores hold beside their queues and caches: tiles, latches, semaphores, rings and write tokens (R56 to R60,
R116). -/
def CoresKept (o t : State) : Prop :=
  t.tokens = o.tokens ∧ ∀ c, (t.core c).tiles = (o.core c).tiles ∧ (t.core c).latches = (o.core c).latches ∧
    (t.core c).sems = (o.core c).sems ∧ (t.core c).rings = (o.core c).rings

/-- Every other strand, and every rope, slot, queue, group and scratchpad tag, holds what it held. -/
def OthersKept (o t : State) : Prop :=
  (∀ k, k ≠ o.issue.strand → t.strand k = o.strand k) ∧ t.ropes = o.ropes ∧ t.slots = o.slots ∧
  t.queues = o.queues ∧ t.groups = o.groups ∧ t.full = o.full

/-- Nothing changes but destinations `ds`, flags of `mask`, and what the commit of any bundle changes. -/
structure OnlyResult (o t : State) (ds : List Dest) (mask : Nat) : Prop where
  regs : RegsKept o t ds
  memory : MemoryKept o t []
  specials : SpecialsKept o t
  loops : LoopsKept o t
  flags : FlagsWithin o t mask
  cores : CoresKept o t
  others : OthersKept o t

/-- No register of the strand but those of `ds`, no byte of memory, and no flag, tile, latch, semaphore or ring changes;
other state may. -/
structure Still (o t : State) (ds : List Dest) : Prop where
  regs : RegsKept o t ds
  memory : MemoryKept o t []
  flags : FlagsWithin o t 0
  cores : CoresKept o t

/-! ## What a write that performs tells those that wait (R252, R263, R307) -/

/-- The strand differs at most in the note that a write has met its wait for a mark counter. -/
def Strand.Noted (x y : Strand) : Prop := ∃ m, y = { x with met := m }

/-- The slot differs at most in the note that a write has met its launch's dependence. -/
def Slot.Noted (x y : Slot) : Prop := ∃ m : Bool → Bool, y = { x with gang := x.gang.map (fun g => { g with depMet := m g.depMet }) }

/-! ## Runs and invariants -/

/-- The step answers a next state. -/
def State.goesOn (s : State) : Prop := ∃ t, step s = .next t

/-- Every step keeps a property of states. -/
def Kept (Inv : State → Prop) : Prop := ∀ s t, Inv s → step s = .next t → Inv t

/-- States that a run from `s` passes through. -/
inductive Reaches (s : State) : State → Prop where
  | here : Reaches s s
  | step {t u : State} : Reaches s t → Machine.step t = .next u → Reaches s u

end Sys2Proof.Machine
end

