-- ==== Sys2Proof/WellFormed.lean ====
section
/-! DEFINITION. Well-formed instructions: every field fits its width in the encoding (R152, R155, R157, R161, R162,
R165), and the fields name something (R389). -/

namespace Sys2Proof

/-- An `n`-bit field. -/
def fits (n v : Nat) : Bool := decide (v < 2 ^ n)

/-- A signed `n`-bit field. -/
def fitsSigned (n : Nat) (v : Int) : Bool := decide (-(2 ^ (n - 1) : Int) ≤ v ∧ v < (2 ^ (n - 1) : Int))

/-- The attribute block fits. -/
def Attr.fits (x : Attr) : Bool :=
  Sys2Proof.fits 4 x.cls && Sys2Proof.fits 2 x.ord && Sys2Proof.fits 3 x.sc && Sys2Proof.fits 3 x.nm && Sys2Proof.fits 3 x.ev && Sys2Proof.fits 10 x.lat

/-- Format CT fits. -/
def CT.fits (x : CT) : Bool :=
  Sys2Proof.fits 15 x.word

/-- Format CL fits. -/
def CL.fits (x : CL) : Bool :=
  Sys2Proof.fits 15 x.word && Sys2Proof.fits 5 x.lk

/-- Format CB fits. -/
def CB.fits (x : CB) : Bool :=
  Sys2Proof.fits 15 x.word && Sys2Proof.fits 3 x.cc && Sys2Proof.fits 6 x.ss

/-- Format CR fits. -/
def CR.fits (x : CR) : Bool :=
  Sys2Proof.fits 5 x.tgt && Sys2Proof.fits 5 x.lk

/-- Format CP fits. -/
def CP.fits (x : CP) : Bool :=
  Sys2Proof.fits 15 x.last && Sys2Proof.fits 3 x.lv && Sys2Proof.fits 6 x.ss

/-- Format CJ fits. -/
def CJ.fits (x : CJ) : Bool :=
  Sys2Proof.fits 8 x.mask

/-- Format CI fits. -/
def CI.fits (x : CI) : Bool :=
  Sys2Proof.fits 16 x.imm

/-- Format AR fits. -/
def AR.fits (x : AR) : Bool :=
  Sys2Proof.fits 6 x.d && Sys2Proof.fits 6 x.a && Sys2Proof.fits 6 x.b && Sys2Proof.fits 4 x.f && Sys2Proof.fits 6 x.c

/-- Format AB fits. -/
def AB.fits (x : AB) : Bool :=
  Sys2Proof.fits 6 x.d && Sys2Proof.fits 6 x.a && Sys2Proof.fits 6 x.pos && Sys2Proof.fits 6 x.len

/-- Format AI fits. -/
def AI.fits (x : AI) : Bool :=
  Sys2Proof.fits 6 x.d && Sys2Proof.fits 6 x.a && Sys2Proof.fitsSigned 28 x.imm

/-- Format AM fits. -/
def AM.fits (x : AM) : Bool :=
  Sys2Proof.fits 6 x.d && Sys2Proof.fits 32 x.imm

/-- Format AS fits. -/
def AS.fits (x : AS) : Bool :=
  Sys2Proof.fits 6 x.s && Sys2Proof.fits 8 x.reg

/-- Format V3 fits. -/
def V3.fits (x : V3) : Bool :=
  Sys2Proof.fits 9 x.d && Sys2Proof.fits 9 x.a && Sys2Proof.fits 9 x.b && Sys2Proof.fits 9 x.c && Sys2Proof.fits 4 x.p && Sys2Proof.fits 5 x.fmt && Sys2Proof.fits 3 x.rm && Sys2Proof.fits 8 x.xf

/-- Format VI fits. -/
def VI.fits (x : VI) : Bool :=
  Sys2Proof.fits 9 x.d && Sys2Proof.fits 4 x.p && Sys2Proof.fits 5 x.fmt && Sys2Proof.fits 32 x.imm

/-- Format VK fits. -/
def VK.fits (x : VK) : Bool :=
  Sys2Proof.fits 9 x.d && Sys2Proof.fits 9 x.a && Sys2Proof.fits 5 x.sfmt && Sys2Proof.fits 5 x.dfmt && Sys2Proof.fits 3 x.rm && Sys2Proof.fits 1 x.pw && Sys2Proof.fits 6 x.sb && Sys2Proof.fits 16 x.n

/-- Format LA fits. -/
def LA.fits (x : LA) : Bool :=
  Sys2Proof.fits 9 x.d && Sys2Proof.fits 5 x.ab && Sys2Proof.fitsSigned 12 x.off && Sys2Proof.fits 5 x.fmt && x.at_.fits

/-- Format LG fits. -/
def LG.fits (x : LG) : Bool :=
  Sys2Proof.fits 9 x.d && Sys2Proof.fits 5 x.ab && Sys2Proof.fits 9 x.ix && Sys2Proof.fits 5 x.fmt && x.at_.fits

/-- Format LT fits. -/
def LT.fits (x : LT) : Bool :=
  Sys2Proof.fits 9 x.d && Sys2Proof.fits 6 x.sx && Sys2Proof.fits 12 x.tid && x.at_.fits

/-- Format LX fits. -/
def LX.fits (x : LX) : Bool :=
  Sys2Proof.fits 6 x.d && Sys2Proof.fits 5 x.ab && Sys2Proof.fits 6 x.sb && Sys2Proof.fits 6 x.k && Sys2Proof.fits 5 x.fmt && x.at_.fits

/-- Format LS fits. -/
def LS.fits (x : LS) : Bool :=
  Sys2Proof.fits 6 x.sem && Sys2Proof.fits 8 x.core && Sys2Proof.fits 10 x.dev && Sys2Proof.fits 1 x.far && Sys2Proof.fits 6 x.sn && x.at_.fits

/-- Format LF fits. -/
def LF.fits (x : LF) : Bool :=
  Sys2Proof.fits 16 x.mask && x.at_.fits

/-- Format LK fits. -/
def LK.fits (x : LK) : Bool :=
  Sys2Proof.fits 10 x.tok && Sys2Proof.fits 8 x.core && Sys2Proof.fits 5 x.ad && Sys2Proof.fits 4 x.ring && x.at_.fits

/-- Format LQ fits. -/
def LQ.fits (x : LQ) : Bool :=
  Sys2Proof.fits 6 x.s && Sys2Proof.fits 5 x.ab && Sys2Proof.fits 5 x.q && Sys2Proof.fits 1 x.dir && x.at_.fits

/-- Format LH fits. -/
def LH.fits (x : LH) : Bool :=
  Sys2Proof.fits 6 x.s && Sys2Proof.fits 5 x.ab && Sys2Proof.fits 4 x.eng && Sys2Proof.fits 3 x.rpt && Sys2Proof.fits 1 x.rv && Sys2Proof.fits 6 x.s2 && x.at_.fits

/-- Format MM fits. -/
def MM.fits (x : MM) : Bool :=
  Sys2Proof.fits 3 x.acc && Sys2Proof.fits 3 x.w && Sys2Proof.fits 5 x.aa && Sys2Proof.fits 4 x.wa && Sys2Proof.fits 4 x.wb && Sys2Proof.fits 8 x.kb && Sys2Proof.fits 7 x.rows && Sys2Proof.fits 7 x.cols && Sys2Proof.fits 10 x.lat && Sys2Proof.fits 5 x.am

/-- Format ML fits. -/
def ML.fits (x : ML) : Bool :=
  Sys2Proof.fits 3 x.w && Sys2Proof.fits 5 x.aa && Sys2Proof.fits 5 x.sc && Sys2Proof.fits 4 x.wb && Sys2Proof.fits 3 x.kb && Sys2Proof.fits 7 x.cols && Sys2Proof.fits 10 x.lat

/-- Format MR fits. -/
def MR.fits (x : MR) : Bool :=
  Sys2Proof.fits 3 x.acc && Sys2Proof.fits 9 x.vx && Sys2Proof.fits 9 x.vy && Sys2Proof.fits 5 x.fmt && Sys2Proof.fits 7 x.rows && Sys2Proof.fits 7 x.cols && Sys2Proof.fits 10 x.lat

/-- Format MZ fits. -/
def MZ.fits (x : MZ) : Bool :=
  Sys2Proof.fits 3 x.acc && Sys2Proof.fits 6 x.s && Sys2Proof.fits 8 x.opt && Sys2Proof.fits 10 x.lat

/-- Format MV fits. -/
def MV.fits (x : MV) : Bool :=
  Sys2Proof.fits 3 x.acc && Sys2Proof.fits 9 x.v && Sys2Proof.fits 6 x.s && Sys2Proof.fits 5 x.fmt && Sys2Proof.fits 10 x.lat

/-- Format MO fits. -/
def MO.fits (x : MO) : Bool :=
  Sys2Proof.fits 3 x.acc && Sys2Proof.fits 5 x.aw && Sys2Proof.fits 5 x.am1 && Sys2Proof.fits 5 x.am2 && Sys2Proof.fits 6 x.sh && Sys2Proof.fits 5 x.wfmt && Sys2Proof.fits 3 x.rm && Sys2Proof.fits 6 x.sb && Sys2Proof.fits 16 x.n

/-- Format MS fits. -/
def MS.fits (x : MS) : Bool :=
  Sys2Proof.fits 5 x.aa && Sys2Proof.fits 6 x.s && Sys2Proof.fits 8 x.opt && Sys2Proof.fits 10 x.lat

/-- Every field of a slot instruction fits its width. -/
def Instr.fits : Instr → Bool
  | .nop => true
  | .br f => f.fits
  | .jmp f => f.fits
  | .jmpr f => f.fits
  | .call f => f.fits
  | .callr f => f.fits
  | .ret f => f.fits
  | .loop f => f.fits
  | .bswap f => f.fits
  | .join f => f.fits
  | .detach => true
  | .ifence => true
  | .ypoint => true
  | .yield => true
  | .exit => true
  | .hold f => f.fits
  | .trap f => f.fits
  | .rtt => true
  | .bkpt f => f.fits
  | .svcNull => true
  | .svcEvent => true
  | .svcAbort => true
  | .svcReside => true
  | .svcGroupinfo => true
  | .svcUnassigned f => f.fits
  | .add f => f.fits
  | .addi f => f.fits
  | .sub f => f.fits
  | .mul f => f.fits
  | .mulh f => f.fits
  | .mulhn f => f.fits
  | .div f => f.fits
  | .divn f => f.fits
  | .rem f => f.fits
  | .remn f => f.fits
  | .and f => f.fits
  | .or f => f.fits
  | .xor f => f.fits
  | .andn f => f.fits
  | .shl f => f.fits
  | .shr f => f.fits
  | .sar f => f.fits
  | .rol f => f.fits
  | .min f => f.fits
  | .max f => f.fits
  | .minn f => f.fits
  | .maxn f => f.fits
  | .cmp f => f.fits
  | .sel f => f.fits
  | .mov f => f.fits
  | .movi f => f.fits
  | .movhi f => f.fits
  | .clz f => f.fits
  | .ctz f => f.fits
  | .popc f => f.fits
  | .brev f => f.fits
  | .bext f => f.fits
  | .bins f => f.fits
  | .lea f => f.fits
  | .adda f => f.fits
  | .movaToAddress f => f.fits
  | .movaToScalar f => f.fits
  | .mfs f => f.fits
  | .mts f => f.fits
  | .rdcyc f => f.fits
  | .vadd f => f.fits
  | .vsub f => f.fits
  | .vmul f => f.fits
  | .vfma f => f.fits
  | .vfms f => f.fits
  | .vfnma f => f.fits
  | .vmin f => f.fits
  | .vmax f => f.fits
  | .vabs f => f.fits
  | .vneg f => f.fits
  | .vclamp f => f.fits
  | .vrcp f => f.fits
  | .vrsq f => f.fits
  | .vsqrt f => f.fits
  | .vexp2 f => f.fits
  | .vlog2 f => f.fits
  | .viadd f => f.fits
  | .visub f => f.fits
  | .vimul f => f.fits
  | .vimad f => f.fits
  | .vimin f => f.fits
  | .vimax f => f.fits
  | .vand f => f.fits
  | .vor f => f.fits
  | .vxor f => f.fits
  | .vshl f => f.fits
  | .vshr f => f.fits
  | .vsar f => f.fits
  | .vcmp f => f.fits
  | .vsel f => f.fits
  | .vmov f => f.fits
  | .vmovi f => f.fits
  | .vbcast f => f.fits
  | .vins f => f.fits
  | .vext f => f.fits
  | .vperm f => f.fits
  | .vslide f => f.fits
  | .vzip f => f.fits
  | .vunzip f => f.fits
  | .vred f => f.fits
  | .vscan f => f.fits
  | .vcvt f => f.fits
  | .vsrnd f => f.fits
  | .vblock f => f.fits
  | .vunblock f => f.fits
  | .vcompress f => f.fits
  | .vexpand f => f.fits
  | .vpcnt f => f.fits
  | .pand f => f.fits
  | .por f => f.fits
  | .pxor f => f.fits
  | .pnot f => f.fits
  | .vrand f => f.fits
  | .ld f => f.fits
  | .st f => f.fits
  | .vld f => f.fits
  | .vst f => f.fits
  | .vldt f => f.fits
  | .vstt f => f.fits
  | .vgath f => f.fits
  | .vscat f => f.fits
  | .ldf f => f.fits
  | .ldfk f => f.fits
  | .ste f => f.fits
  | .feset f => f.fits
  | .feprobe f => f.fits
  | .atom f => f.fits
  | .atomcas f => f.fits
  | .semadd f => f.fits
  | .semset f => f.fits
  | .semwait f => f.fits
  | .semrd f => f.fits
  | .cntwait f => f.fits
  | .fence f => f.fits
  | .tokacq f => f.fits
  | .tokpass f => f.fits
  | .bufacq f => f.fits
  | .bufrel f => f.fits
  | .discard f => f.fits
  | .wback f => f.fits
  | .inval f => f.fits
  | .iinval f => f.fits
  | .pref f => f.fits
  | .rld f => f.fits
  | .rst f => f.fits
  | .ratom f => f.fits
  | .tickwait f => f.fits
  | .replay f => f.fits
  | .sbind f => f.fits
  | .sdone f => f.fits
  | .haul f => f.fits
  | .haulg f => f.fits
  | .hgath f => f.fits
  | .hscat f => f.fits
  | .hstat f => f.fits
  | .protect f => f.fits
  | .unprotect f => f.fits
  | .belay f => f.fits
  | .bwait f => f.fits
  | .pitchrd f => f.fits
  | .mlatch f => f.fits
  | .mop f => f.fits
  | .mops f => f.fits
  | .mopr f => f.fits
  | .mrank1 f => f.fits
  | .mzero f => f.fits
  | .mloss f => f.fits
  | .mdrain f => f.fits
  | .mstat f => f.fits
  | .oread f => f.fits
  | .owrite f => f.fits
  | .omom f => f.fits
  | .oadam f => f.fits
  | .pusht f => f.fits
  | .popt f => f.fits
  | .tstk f => f.fits
  | .holdBundle => true
  | .emptyBundle => true
  | .streamRead _ _ => true
  | .privateFetchRead _ => true
  | .leadOutcome _ _ => true
  | .joinComplete _ _ => true
  | .resultLand _ _ => true
  | .poisonAtBound _ _ => true
  | .trapEntry _ => true
  | .rollback _ _ _ => true
  | .reserve _ _ => true
  | .commit _ _ => true
  | .release _ _ => true
  | .ropeLoadDone _ => true
  | .gangStart _ => true
  | .ropePartDone _ => true
  | .placementRetry _ => true
  | .preemptRequest _ => true
  | .forcedFreeze _ => true
  | .gangSave _ => true
  | .gangResume _ => true
  | .mxCommandStart _ _ => true
  | .mxCommandLand _ _ => true
  | .moprRendezvousStart _ _ => true
  | .spillEntry _ => true
  | .fillEntry _ => true
  | .streamPortFill _ _ => true
  | .streamPortDrain _ _ => true
  | .haulCommandStart _ => true
  | .haulCompletion _ _ => true
  | .engineTicketReplay _ => true
  | .tokenArrival _ _ => true
  | .reloadComplete _ _ => true
  | .remoteReply _ _ _ _ => true
  | .faultTicket _ _ _ => true
  | .fabricRequestServe _ => true
  | .ingressWalkComplete _ => true
  | .replayNoticePost _ => true
  | .replayNotice _ => true
  | .semMessage _ => true
  | .noticeResend _ => true
  | .stallEntryExpire _ => true
  | .ticketTimeout _ _ => true
  | .requestDeadline _ _ => true
  | .replyEgressDiscard _ => true
  | .beforeImageCapture _ => true
  | .belayOpen _ => true
  | .deltaWrite _ _ _ => true
  | .memberVote _ => true
  | .vote _ => true
  | .belayCommitMsg _ => true
  | .belayAbortMsg _ => true
  | .belayTimeout _ => true
  | .query _ => true
  | .decision _ => true
  | .estimatorWindow => true
  | .probePeriod _ => true
  | .recordRead _ _ => true
  | .recordReadReply _ _ _ _ => true
  | .rebuildUnit _ _ _ _ => true
  | .rebuildWindowRead _ _ => true
  | .rebuildWrite _ _ _ => true
  | .rebuildEnd _ _ _ => true
  | .lineRepair _ _ => true
  | .gctlEnable _ => true
  | .gctlDisable _ => true
  | .groupZeroingDone _ => true
  | .gownWrite _ _ => true
  | .kick _ _ => true
  | .packetAccept _ => true
  | .dependenceMet _ => true
  | .gangComplete _ => true
  | .eprioAgeing _ => true
  | .mappingDecision => true
  | .watchdogCheck _ => true
  | .saveTimeout _ => true
  | .queueRecordWrite _ _ _ _ => true
  | .qctlErrClear _ => true
  | .evackWrite _ => true
  | .eventRingConfigWrite _ _ => true
  | .flogsizeWrite _ => true
  | .egressSwitch _ => true
  | .egressPairSwitch _ _ => true
  | .d2dRouteSwitch _ _ => true
  | .multicastForward _ => true
  | .flitReplay _ => true
  | .stationRetrain _ => true
  | .retrainComplete _ => true
  | .retrainTimeout _ => true
  | .bucketLeak _ => true
  | .stationRetClear _ => true
  | .fabricEnableWrite _ => true
  | .d2dLaneRetrain _ _ => true
  | .heartbeatCheck _ => true
  | .powerCompare _ => true
  | .zoneWarn _ _ => true
  | .zoneCrit _ _ => true
  | .selfRefreshExit _ _ => true
  | .bankRefresh _ _ => true
  | .scrubIssue _ _ => true
  | .pageMigration _ _ => true
  | .tlbInvalidation _ _ _ => true
  | .pageWalkComplete _ _ _ => true
  | .atsCompletion _ _ _ _ => true
  | .atsRetry _ => true
  | .priResponse _ _ => true
  | .priTimeout _ => true
  | .atsInvalidation _ _ _ => true
  | .bar2Write _ _ => true
  | .bar2Read _ _ => true
  | .pcieCorrectableError _ => true
  | .pciePoisonedTlp _ _ => true
  | .pcieCompletionError _ _ => true
  | .unexpectedCompletion _ => true
  | .pcieFatalError _ => true
  | .pcieLinkDown => true
  | .coldReset => true
  | .fundamentalReset => true
  | .functionLevelReset => true
  | .bootTrainingDone => true
  | .bootctlGo _ => true
  | .bootVerify => true
  | .doeDiscovery _ => true
  | .getDigests => true
  | .getCertificate _ _ => true
  | .challenge _ => true
  | .getMeasurements _ => true
  | .keyExchange _ => true
  | .finish _ => true
  | .ideKm _ _ => true
  | .registerWrite _ _ _ => true
  | .regionRegistered _ => true
  | .stagingSplitWrite _ _ _ => true
  | .exportSpaceDesignation _ _ => true
  | .zoneBelowWarn _ _ => true
  | .d2dLaneGroupUp _ _ => true

/-- A well-formed instruction: its fields fit and each names something the instruction admits. -/
def Instr.wf (i : Instr) : Bool := i.fits && i.encCause == none

end Sys2Proof
end

