-- ==== Sys2Proof/Certificates/Slice0/Obligations.lean ====
section
/-! DEFINITION. The statements for the provers: one definition for each, with the terms that the rules give for results. -/

open Sys2Proof Sys2Proof.Machine

namespace Sys2Proof.Machine

/-! ## Terms -/

/-- The pattern of a scalar operand. -/
def State.bits (s : State) (n : Nat) : Word := BitVec.ofNat 64 (s.rs n)

/-- The pattern of an address operand. -/
def State.abits (s : State) (n : Nat) : Word := BitVec.ofNat 64 (s.ra n)

/-- The low `n` bits of a word set. -/
def lowMask (n : Nat) : Word := BitVec.ofNat 64 (2 ^ n - 1)

/-- CMP's conditions (R156, R196). -/
def holdsCmp (cc : Nat) (a b : Word) : Bool :=
  match cc with
  | 0 => a == b
  | 1 => a != b
  | 2 => a.slt b
  | 3 => b.sle a
  | 4 => a.ult b
  | _ => b.ule a

/-- The table of R196, with R198 and R199: destination, result and latency. -/
def aluTable (i : Instr) (s : State) : Option (Dest × Word × Nat) :=
  match i with
  | .add f => some (.s f.d, s.bits f.a + s.bits f.b, 1)
  | .addi f => some (.s f.d, s.bits f.a + BitVec.ofInt 64 f.imm, 1)
  | .sub f => some (.s f.d, s.bits f.a - s.bits f.b, 1)
  | .mul f => some (.s f.d, s.bits f.a * s.bits f.b, 3)
  | .mulh f => some (.s f.d, (((s.bits f.a).signExtend 128 * (s.bits f.b).signExtend 128) >>> 64).setWidth 64, 3)
  | .mulhn f => some (.s f.d, (((s.bits f.a).setWidth 128 * (s.bits f.b).setWidth 128) >>> 64).setWidth 64, 3)
  | .and f => some (.s f.d, s.bits f.a &&& s.bits f.b, 1)
  | .or f => some (.s f.d, s.bits f.a ||| s.bits f.b, 1)
  | .xor f => some (.s f.d, s.bits f.a ^^^ s.bits f.b, 1)
  | .andn f => some (.s f.d, s.bits f.a &&& ~~~s.bits f.b, 1)
  | .shl f => some (.s f.d, s.bits f.a <<< (s.rs f.b % 64), 1)
  | .shr f => some (.s f.d, s.bits f.a >>> (s.rs f.b % 64), 1)
  | .sar f => some (.s f.d, (s.bits f.a).sshiftRight (s.rs f.b % 64), 1)
  | .rol f => some (.s f.d, (s.bits f.a).rotateLeft (s.rs f.b % 64), 1)
  | .min f => some (.s f.d, if (s.bits f.b).slt (s.bits f.a) then s.bits f.b else s.bits f.a, 1)
  | .max f => some (.s f.d, if (s.bits f.a).slt (s.bits f.b) then s.bits f.b else s.bits f.a, 1)
  | .minn f => some (.s f.d, if (s.bits f.b).ult (s.bits f.a) then s.bits f.b else s.bits f.a, 1)
  | .maxn f => some (.s f.d, if (s.bits f.a).ult (s.bits f.b) then s.bits f.b else s.bits f.a, 1)
  | .cmp f => some (.s f.d, if holdsCmp f.f (s.bits f.a) (s.bits f.b) then 1 else 0, 1)
  | .sel f => some (.s f.d, if s.bits f.c = 0 then s.bits f.b else s.bits f.a, 1)
  | .mov f => some (.s f.d, s.bits f.a, 1)
  | .movi f => some (.s f.d, (BitVec.ofNat 32 f.imm).signExtend 64, 1)
  | .movhi f => some (.s f.d, (BitVec.ofNat 32 f.imm) ++ (s.bits f.d).setWidth 32, 1)
  | .clz f => some (.s f.d, BitVec.ofNat 64 (if s.bits f.a = 0 then 64 else 63 - Nat.log2 (s.rs f.a)), 1)
  | .ctz f => some (.s f.d, BitVec.ofNat 64 (((List.range 64).find? (fun j => (s.bits f.a).getLsbD j)).getD 64), 1)
  | .popc f => some (.s f.d, BitVec.ofNat 64 ((List.range 64).filter (fun j => (s.bits f.a).getLsbD j)).length, 1)
  | .brev f => some (.s f.d, (s.bits f.a).reverse, 1)
  | .bext f => some (.s f.d, ((s.bits f.a) >>> f.pos) &&& lowMask (f.len + 1), 1)
  | .bins f => some (.s f.d, (s.bits f.d &&& ~~~(lowMask (f.len + 1) <<< f.pos)) |||
      ((s.bits f.a &&& lowMask (f.len + 1)) <<< f.pos), 1)
  | .lea f => some (.a f.d, s.abits f.a + (s.bits f.b <<< f.f), 1)
  | .adda f => some (.a f.d, s.abits f.a + s.bits f.b, 1)
  | .movaToAddress f => some (.a f.d, s.bits f.a, 1)
  | .movaToScalar f => some (.s f.d, s.abits f.a, 1)
  | .rdcyc f => some (.s f.d, s.cyc, 1)
  | _ => none

/-- R197's quotient and remainder of two patterns. -/
def divTable (signed : Bool) (a b : Word) : Word × Word :=
  if b = 0 then (-1, a)
  else if signed then (a.sdiv b, a.srem b)
  else (a.udiv b, a.umod b)

/-- DIV, DIVN, REM and REMN. -/
def divResult (i : Instr) (s : State) : Option (Dest × Word) :=
  match i with
  | .div f => some (.s f.d, (divTable true (s.bits f.a) (s.bits f.b)).1)
  | .divn f => some (.s f.d, (divTable false (s.bits f.a) (s.bits f.b)).1)
  | .rem f => some (.s f.d, (divTable true (s.bits f.a) (s.bits f.b)).2)
  | .remn f => some (.s f.d, (divTable false (s.bits f.a) (s.bits f.b)).2)
  | _ => none

/-! ## Frames of instructions that reach memory -/

/-- A location lies in an undo area of some group slot, where a write to a protected line may leave its before-image, or in the
header of an undo entry, which closes when its line is given up (R335, R339, R340). -/
def State.inUndoArea (o : State) (a : Nat) : Prop :=
  (∃ g stack, ((o.group g).area (undoReg stack)).1 ≤ a ∧
    a < ((o.group g).area (undoReg stack)).1 + ((o.group g).area (undoReg stack)).2) ∨
  ∃ u ∈ o.cairn.undo, (o.group u.grp).headerAt u.reg u.place ≤ a ∧ a < (o.group u.grp).headerAt u.reg u.place + 8

/-- Memory below the host's, outside the locations `l`, the Dirty L1 sectors of the issuing core and the undo areas, reads as
it did: an ordering, or a line that L1 replaces, writes those sectors to their homes, after their before-images (R112, R117,
R123, R339). -/
def HomesKept (o t : State) (l : List Nat) : Prop :=
  ∀ a, a < 2 ^ 64 → a ∉ l → a / 64 ∉ (o.core o.myCore).l1Dirty → ¬ o.inUndoArea a → t.byte a = o.byte a

/-- Only destinations `ds` of the strand and flags of `mask` may change among its registers and flags; its special and loop
registers stay, and tiles, latches and queues; the other strands stay, but for the note that a write has met a wait of theirs
for a mark counter (R263). -/
structure Quiet (o t : State) (ds : List Dest := []) (mask : Nat := 0) : Prop where
  regs : RegsKept o t ds
  specials : SpecialsKept o t
  loops : LoopsKept o t
  flags : FlagsWithin o t mask
  tiles : ∀ c, (t.core c).tiles = (o.core c).tiles ∧ (t.core c).latches = (o.core c).latches
  strands : ∀ k, k ≠ o.issue.strand → (o.strand k).Noted (t.strand k)
  queues : t.queues = o.queues

/-- And no semaphore, ring, token, tag of a word or rope changes, and no slot, but for the note that a write has met its
launch's dependence (R307). -/
structure Calm (o t : State) (ds : List Dest := []) (mask : Nat := 0) : Prop extends Quiet o t ds mask where
  sems : ∀ c, (t.core c).sems = (o.core c).sems ∧ (t.core c).rings = (o.core c).rings
  tokens : t.tokens = o.tokens ∧ t.transit = o.transit
  tags : t.full = o.full
  ropes : t.ropes = o.ropes
  slots : ∀ h, (o.slot h).Noted (t.slot h)

end Sys2Proof.Machine

/-! ## Encoding -/

/-- R142, R145, R151 to R165: a well-formed slot instruction of any opcode space decodes from its own encoding, with every
field at every value that the encoding admits. -/
def Obligations.EncodedSlotsDecode : Prop :=
  ∀ (i : Instr) (k : SlotKind), i.slotKind = some k → i.wf = true → decodeSlot k i.encode = .ok i

/-- R142 to R144: alone in its bundle it decodes from the 384 bits of that bundle, and no header field is disturbed. -/
def Obligations.EncodedBundlesDecode : Prop :=
  ∀ i : Instr, i.isSlot = true → i.wf = true →
    decodeBundle (bundleOf i) = some i ∧ bundleOf i < 2 ^ 384 ∧ (headerOf (bundleOf i)).rest = 0 ∧
      (headerOf (bundleOf i)).dly = 0 ∧ (headerOf (bundleOf i)).x = false ∧ (headerOf (bundleOf i)).mark = false

/-- R151, R389, R390: what the decoder answers is an instruction of the slot's opcode space whose encoding is the very word
that was read, so no reserved bit is ignored and no two words read as one instruction. -/
def Obligations.DecodedSlotsAreTheWord : Prop :=
  ∀ (k : SlotKind) (w : Nat) (i : Instr), decodeSlot k w = .ok i →
    i.slotKind = some k ∧ i.encode = w ∧ i.encCause = none

/-- Slot words that the spec writes out read as the instructions that it gives for them: BR.nz s4 and LOOP (R177, R182),
ADDI, VFMA and VLD (the bundle worked to the bit in spec/07), BEXT (R198), VCVT (R219), ATOM (R260), HAUL, MOP and MZERO;
an unassigned opcode, the hold bundle's index word and an empty bundle read as such (R144, R151, R169). -/
def Obligations.SpecWordsDecode : Prop :=
  decodeSlot .ctl 0x000010804001 = .ok (.br { word := 0x40, cc := 1, ss := 4 }) ∧
  decodeSlot .ctl 0x000024808307 = .ok (.loop { last := 0x83, lv := 1, ss := 9 }) ∧
  decodeSlot .alu 0x000004014501 = .ok (.addi { d := 5, a := 5, imm := 64 }) ∧
  decodeSlot .alu 0x00001CC1C31F = .ok (.bext { d := 3, a := 7, pos := 12, len := 7 }) ∧
  decodeSlot .vec 0x0000006830160A03 =
    .ok (.vfma { d := 10, a := 11, b := 12, c := 13, p := 0, fmt := 0, rm := 0, xf := 0 }) ∧
  decodeSlot .vec 0x0013074200522860 =
    .ok (.vcvt { d := 40, a := 41, sfmt := 0, dfmt := 4, rm := 4, pw := 0, sb := 7, n := 19 }) ∧
  decodeSlot .mem 0x09C0018010061402 =
    .ok (.vld { d := 20, ab := 3, off := 0x40, fmt := 0,
                at_ := { cls := 3, ord := 0, sc := 0, nm := 0, ev := 0, lat := 39 } }) ∧
  decodeSlot .mem 0x58C0B12C01CA0320 =
    .ok (.atom { d := 3, ab := 5, sb := 7, k := 0, fmt := 11,
                 at_ := { cls := 2, ord := 2, sc := 5, nm := 0, ev := 0, lat := 0x163 } }) ∧
  decodeSlot .mem 0x0000A10004998C70 =
    .ok (.haul { s := 12, ab := 6, eng := 3, rpt := 1, rv := 1, s2 := 0,
                 at_ := { cls := 2, ord := 0, sc := 5, nm := 0, ev := 0, lat := 0 } }) ∧
  decodeSlot .mx 0x05197FFBF9B99001 =
    .ok (.mop { acc := 0, w := 2, aa := 6, wa := 7, wb := 3, kb := 127, rows := 127, cols := 95, lat := 0x28C, am := 0 }) ∧
  decodeSlot .mx 0x20205 = .ok (.mzero { acc := 2, s := 0, opt := 1, lat := 0 }) ∧
  decodeSlot .ctl 0x0000000000FF = .error .unassignedOpcode ∧
  decodeTableWord 16 0xFFFE = some .holdBundle ∧
  decodeTableWord 384 0 = some .emptyBundle

/-! ## Reset -/

namespace Sys2Proof.Machine

/-- What the maps of the device registers give for reset, by offset in BAR0 (R321, R324, R328, R335, R343, R348, R362, R365,
R418, R424, R426, R436). -/
def resetRegisters : List (Nat × Nat) :=
  [(0x20010, 0), (0x20018, 0), (0x2000408, 0), (0x2100000, 0), (0x2100008, 16384),
   (0x2100010, 8 * 2 ^ 32 + 16384), (0x2100100, 2 ^ 63), (0x21001B8, 2 ^ 63), (0x2210000, 32),
   (0x2210008, 16384 * 2 ^ 32 + 16 * 2 ^ 16 + 4), (0x2210018, 2097152), (0x2300008, 0), (0x2300100, 2000),
   (0x2300108, 2500 * 2 ^ 16), (0x2300408, 4096 * 2 ^ 32 + 16 * 2 ^ 24)]

end Sys2Proof.Machine

/-- At reset the device registers hold the values of their maps, no strand runs, no queue is mapped, no group is enabled,
every station is down, CYC is 0 (R49, R321 to R436), and memory is in its canonical form. That a scalar is 0 is the model's
choice (log entry 1). -/
def Obligations.ResetLeaves : Prop :=
  (∀ e ∈ resetRegisters, State.reset.regRead e.1 = e.2) ∧
  State.reset.cyc = 0 ∧ State.reset.liveCores = [] ∧ (∀ q, State.reset.mapped q = false) ∧
  (∀ g, (State.reset.group g).enabled = false) ∧ (∀ k, (State.reset.strand k).st = .idle) ∧
  (∀ i, (State.reset.station i).down = true ∧ (State.reset.station i).ret = false) ∧
  (∀ k n, (State.reset.strand k).get (.s n) = 0) ∧ Memory.wf State.reset.mem = true

/-! ## Memory -/

/-- Every step of every party keeps memory in its canonical form, so that equal memories are equal data. -/
def Obligations.MemoryCanonicalKept : Prop := Kept (fun s => Memory.wf s.mem = true)

/-- R4: a number written to memory reads back, byte by byte in little-endian order, and every other byte is as it was. -/
def Obligations.NumbersReadBack : Prop :=
  ∀ (s : State) (l n v : Nat),
    (s.setNum l n v).num l n = v % 256 ^ n ∧
    (∀ j, j < n → (s.setNum l n v).byte (l + j) = BitVec.ofNat 8 (v / 256 ^ j)) ∧
    (∀ a, (a < l ∨ l + n ≤ a) → (s.setNum l n v).byte a = s.byte a)

/-! ## The step -/

/-- R147, R172, R173: the step answers a next state, or the fault that the agenda names a unit that the device does not
have; it refuses nothing. -/
def Obligations.StepGoesOn : Prop :=
  ∀ s : State, s.goesOn ∨
    ((∃ a rest, s.agenda = a :: rest ∧ a.exists = false) ∧ step s = .fault .noSuchUnit)

/-- R25, R142, R147: with an empty agenda, a strand that is picked and whose delivered bundle holds one valid slot with a
well-formed instruction runs that instruction, in the state in which its issue has begun; then the strand moves on and its
core's turn is settled. -/
def Obligations.StepRunsTheDecodedSlot : Prop :=
  ∀ (s : State) (c k n b w : Nat) (i : Instr) (f : Fetched) (q : List Fetched),
    s.agenda = [] → s.plat.stopped = false → s.pick = some (c, .issues k) → (s.strand k).queue = f :: q →
    (s.strand k).mxBad = none → f.what = .bits w → (headerOf w).rest = 0 → bundleSlots w = [(n, b, .ok i)] →
    (s.begin k f).issue.pre = (s.begin k f).me ∧ (s.begin k f).issue.Plain ∧
    (s.begin k f).issue.flags = 0 ∧ (s.begin k f).issue.strand = k ∧ (s.begin k f).issue.succ = f.succ ∧
    step s = andThen (exec i ((s.begin k f).onIssue (fun x => { x with phase := .lone, slot := n })))
      (fun u => .next (u.finish.endTurn k (s.core (coreOf k)).gave))

/-- R147, R372, R387: a bundle of several well-formed slots with no destination conflict is judged slot by slot, and when no
slot has a fault, a wait or a failing access, every slot acts in bundle order on operands as they stood before the bundle,
and the bundle commits once. -/
def Obligations.StepRunsEverySlot : Prop :=
  ∀ (s u : State) (c k w : Nat) (is : List (Nat × Instr)) (f : Fetched) (q : List Fetched),
    s.agenda = [] → s.plat.stopped = false → s.pick = some (c, .issues k) → (s.strand k).queue = f :: q →
    (s.strand k).mxBad = none → f.what = .bits w → (headerOf w).rest = 0 → 2 ≤ is.length →
    bundleSlots w = is.map (fun e => (e.1, slotBits w e.1, .ok e.2)) → clashFaults (bundleSlots w) = [] →
    runPhase .probe is (s.begin k f) = .next u →
    u.issue.faults = [] → u.issue.waits = [] → u.issue.misses = [] → u.bundleWait (is.map (·.2)) = none →
    step s = andThen (runPhase .act is (u.openBundle (is.map (·.2)))) (fun v =>
      .next (v.commit.finish.endTurn k (s.core (coreOf k)).gave))

/-- R15, R383: an event on the agenda runs as its instruction unless the device has been stopped and the event does not come
from outside; an entry that names a unit that does not exist is the one fault; time passes cycle by cycle, and CYC keeps
2.5 GHz at the clock that FREQ gives (R7, R365). -/
def Obligations.StepRunsTheAgenda : Prop :=
  (∀ (s : State) (i : Instr) (rest : List Agendum), s.agenda = .event i :: rest → i.unitsExist = true →
    (s.plat.stopped = false ∨ i.fromHost = true) → step s = exec i { s with agenda := rest }) ∧
  (∀ (s : State) (i : Instr) (rest : List Agendum), s.agenda = .event i :: rest → i.unitsExist = false →
    step s = .fault .noSuchUnit) ∧
  (∀ (s : State), s.agenda = [] → s.plat.stopped = true → (∀ k, (s.strand k).st ≠ .waiting) → 1 ≤ s.plat.freq →
    ∃ t, step s = .next t ∧ t.cycle = s.cycle + 1 ∧ t.mem = s.mem ∧
      t.cyc = s.cyc + BitVec.ofNat 64 ((s.cycRest + 2500) / s.plat.freq) ∧ t.cycRest = (s.cycRest + 2500) % s.plat.freq)

/-- R167, R168: what the index word at a program counter delivers from a rope head's copy that holds no bad mark. -/
def Obligations.IndexWordsDeliver : Prop :=
  ∀ (s : State) (r bank pc : Nat), (s.rope r).bad = [] →
    let w := s.indexWord r bank pc
    (2 ^ 16 ≤ pc → s.deliver r bank pc = .trap .fetchOverrun 0) ∧
    (pc < 2 ^ 16 →
      (w < 0x1000 → s.deliver r bank pc = .bits (s.copyNum r bank (48 * w) 48) ∧ s.succOf r bank pc = pc + 2) ∧
      (0x1000 ≤ w → w < 0xFFFE → s.deliver r bank pc = .trap .unassignedIndexWord w) ∧
      (w = 0xFFFE → s.deliver r bank pc = .hold ∧ s.succOf r bank pc = pc + 2) ∧
      (w = 0xFFFF → s.succOf r bank pc = pc + 50 ∧
        (pc + 50 ≤ 2 ^ 16 → s.deliver r bank pc = .bits (s.copyNum r bank (0x30000 + pc + 2) 48)) ∧
        (2 ^ 16 < pc + 50 → s.deliver r bank pc = .trap .fetchOverrun 0)))

/-- R25, R144, R169: a hold bundle and an empty bundle with nothing to wait for issue and commit, and change no register,
byte, special register, loop, tile, semaphore, or other strand. -/
def Obligations.EmptyBundlesIssue : Prop :=
  ∀ s : State, s.issue.Plain → s.bundleWait [] = none →
    (∃ t, exec .holdBundle s = .next t ∧ t.issue.committed = true ∧ OnlyResult (s.openBundle []) t [] 0) ∧
    (∃ t, exec .emptyBundle s = .next t ∧ t.issue.committed = true ∧ OnlyResult (s.openBundle []) t [] 0)

/-! ## Waits, traps and rollback -/

/-- R26: an instruction alone in its bundle that finds a wait, or whose bundle must wait, changes no register, flag, byte of
memory, special register or loop register, does not commit, and its strand waits. -/
def Obligations.BlockedSlotsWait : Prop :=
  ∀ (i : Instr) (s : State) (w : Wait), i.isSlot = true → s.issue.phase = .lone → w ≠ .ticketTable →
    (i.hurdle s = some (.wait w) ∨ (i.hurdle s = none ∧ s.bundleWait [i] = some w)) →
    ∃ t, exec i s = .next t ∧ t.issue.committed = s.issue.committed ∧ t.me.st = .waiting ∧ t.me.wait = some w ∧
      RegsKept s t [] ∧ t.me.flags = s.me.flags ∧ t.mem = s.mem ∧ SpecialsKept s t ∧ LoopsKept s t ∧
      ∀ k, k ≠ s.issue.strand → t.strand k = s.strand k

/-- R371, R372: an instruction alone in its bundle whose checks find a fault takes a trap at its own program counter with
that cause and TINFO. -/
def Obligations.FaultingSlotsTrap : Prop :=
  ∀ (i : Instr) (s : State) (c : Cause) (info : Nat), i.isSlot = true → s.issue.phase = .lone →
    i.hurdle s = some (.fault c info) →
    exec i s = .next (s.takeTrap s.issue.strand (s.issue.bank * 2 ^ 16 + s.issue.pc)
      [{ slot := s.issue.slot, cause := c, info := info }])

/-- R64, R143, R151, R372, R390: a bundle with a reserved header traps with that cause alone and no slot's bit; one whose
only valid slot is illegal traps with the slot's cause, its bit and its bits. -/
def Obligations.IllegalBundlesTrap : Prop :=
  (∀ (f : Fetched) (s : State) (w : Nat), s.issue.pre.mxBad = none → f.what = .bits w → (headerOf w).rest ≠ 0 →
    runBundle f s = .next (s.trapHere [{ slot := 6, cause := .reservedEncoding, info := w % 2 ^ 32 }])) ∧
  (∀ (f : Fetched) (s : State) (w n b : Nat) (c : Cause), s.issue.pre.mxBad = none → f.what = .bits w →
    (headerOf w).rest = 0 → bundleSlots w = [(n, b, .error c)] → s.issue.faults = [] →
    runBundle f s = .next (s.trapHere [{ slot := n, cause := c, info := b }]))

namespace Sys2Proof.Machine

/-- The causes that an instruction's operands give it, beyond its encoding (R61, R177 to R182, R186, R194, R374, R393, R395): an
indirect target outside 17 bits or odd; a privileged special register outside supervisor state; a stack register while the
stack holds an entry; LOOP, JOIN and RTT out of place, and LOOP on a level that the kernel's loop table gives to its cores or
dies (kinds C and D, R43). -/
def operandFault (i : Instr) (s : State) : Option (Cause × Nat) :=
  let odd (v : Nat) : Option (Cause × Nat) := if v / 2 ^ 17 ≠ 0 ∨ v % 2 = 1 then some (.badTarget, v) else none
  match i with
  | .jmpr f => odd (s.ra f.tgt)
  | .callr f => odd (s.ra f.tgt)
  | .ret f => odd (s.ra f.tgt)
  | .loop f =>
    if 2 ^ 32 ≤ s.rs f.ss ∨ f.last ≤ s.issue.pc / 2 ∨ 2 ≤ (((s.gangOf s.issue.strand).desc.loop[f.lv]?).map (·.1)).getD 0 ∨
        s.issue.pre.handler ≠ .none then some (.badLoop, s.rs f.ss) else none
  | .join _ => if s.issue.pre.handler ≠ .none then some (.badUse, i.encode) else none
  | .rtt => if s.issue.pre.handler = .none then some (.badUse, i.encode) else odd s.issue.pre.tba
  | .mts f =>
    if (f.reg = 0x10 ∨ f.reg = 0x28 ∨ f.reg = 0x29) ∧ s.issue.pre.handler ≠ .sup then some (.privilege, f.reg)
    else if (f.reg = 0x20 ∨ f.reg = 0x21 ∨ f.reg = 0x23) ∧ s.issue.pre.sizes ≠ [] then some (.badUse, i.encode)
    else none
  | _ => none

end Sys2Proof.Machine

/-- R61, R69, R179, R182, R186, R194, R374, R395: an instruction whose encoding, ports and sources are in order finds the fault of
its operands: an indirect target outside 17 bits or odd, a privileged special register outside supervisor state, a stack
register while the stack holds an entry, LOOP, JOIN and RTT out of place, and LOOP on a level that the loop table gives as C
or D. -/
def Obligations.OperandFaultsAreFound : Prop :=
  ∀ (i : Instr) (s : State) (c : Cause) (info : Nat), operandFault i s = some (c, info) →
    s.slotHurdle i (i.moreSources s) none = none → i.hurdle s = some (.fault c info)

/-- R38, R271, R372, R374, R387, R388: a slot whose first poisoned source is `d` traps with late result or ticket pending, as the
poison is, and TINFO names the register: whatever its other checks would find, where they read a poisoned register, and where
they do not, once its ports and checks give no cause and, in interlocked mode, nothing that it names is pending; one whose
encoding is illegal finds that cause first. -/
def Obligations.PoisonedSourcesAreFound : Prop :=
  (∀ (i : Instr) (s : State) (more : List Dest) (v : Option Hurdle) (pre post : List Dest) (d : Dest) (c : Cause),
    i.encCause = none → i.reads ++ more = pre ++ d :: post → (∀ e ∈ pre, s.issue.pre.poison e = none) →
    s.issue.pre.poison d = some c →
    ((∃ e ∈ i.checks ++ more, s.issue.pre.poison e ≠ none) →
      s.slotHurdle i more v = some (.fault c d.code)) ∧
    (s.portFault false s.issue.pops i.pops = false → s.portFault true s.issue.pushes i.pushes = false →
      (∀ h, v = some h → h.isFault = false) →
      (s.issue.x = true ∨ ∀ e ∈ i.reads ++ more ++ i.writes, s.issue.pre.pending e = false) →
      s.slotHurdle i more v = some (.fault c d.code))) ∧
  (∀ (i : Instr) (s : State) (more : List Dest) (v : Option Hurdle) (c : Cause), i.encCause = some c →
    s.slotHurdle i more v = some (.fault c i.encode)) ∧
  (∀ (x : Strand) (d : Dest) (c : Cause), x.poison d = some c → c.code = 0x20 ∨ c.code = 0x21)

namespace Sys2Proof.Machine

/-- Nothing that a strand has in flight keeps its trap from completing: every result waits for a fault ticket, or has its value
and lands now, and no mx command of its is queued or running. -/
def State.atRest (s : State) (k : Nat) : Prop :=
  (∀ e ∈ (s.strand k).inflight, e.ticketed = true ∨ (e.value.isSome = true ∧
    (e.landed = true ∨ e.source ≠ .fixed ∨ ∀ c, e.lands = some c → c ≤ s.cycle))) ∧ (s.core (coreOf k)).hasMx k = false

end Sys2Proof.Machine

/-- R64, R192, R371, R372: TAKING A TRAP. The strand leaves its stream, its results land, its gate is released and its
shadows go; TBA, TFM, TCAUSE and TINFO are written; with a replay routine and poison causes alone it goes on at RVEC in
state replay, and otherwise at TVEC in supervisor state; its loop registers stay. -/
def Obligations.TrapEntry : Prop :=
  ∀ (s : State) (k tba : Nat) (fs : List SlotFault), (s.strand k).handler = .none → (s.strand k).doomed = false →
    s.atRest k →
    let x := s.strand k
    let y := (s.takeTrap k tba fs).strand k
    let poison := fs.all (fun f => decide (0x20 ≤ f.cause.code))
    let vector := if poison = true ∧ x.rvec ≠ 0 then x.rvec else x.tvec
    y.tba = tba ∧ y.pc = vector % 2 ^ 16 ∧ y.bank = vector / 2 ^ 16 % 2 ∧ y.st = .detached ∧
    y.handler = (if poison = true ∧ x.rvec ≠ 0 then .replay else .sup) ∧
    (poison = false ∨ x.rvec = 0 → y.fw = some .serveTrap) ∧
    y.gate = [] ∧ y.shadows = [] ∧ y.queue = [] ∧ y.loops = x.loops ∧ y.lix = x.lix ∧ y.flags = x.flags ∧
    (∀ e ∈ y.inflight, e.ticketed = true) ∧
    ((fs.map (·.slot)).Nodup → (∀ f ∈ fs, f.slot < 6) →
      (∀ f ∈ fs, fld y.tcause (8 * f.slot) 8 = f.cause.code ∧ bitAt y.tfm f.slot = true) ∧
      (∀ n, n < 6 → n ∉ fs.map (·.slot) → fld y.tcause (8 * n) 8 = 0 ∧ bitAt y.tfm n = false)) ∧
    (∀ c info, fs = [{ slot := 6, cause := c, info := info }] → y.tfm = 0 ∧ y.tcause = c.code ∧ y.tinfo = info) ∧
    (∀ f, (if poison = true then fs else fs.filter (fun f => decide (f.cause.code < 0x20))).head? = some f →
      y.tinfo = f.info)

/-- R373, R382: a trap taken in a handler state enters no handler: the strand stops, keeps its trap registers, and the firmware is
to kill its context with code 0x42 and the new trap's record, whose detail is the old TBA. One whose context is already to
be killed takes no trap at all (R382). -/
def Obligations.DoubleFault : Prop :=
  ∀ (s : State) (k tba : Nat) (fs : List SlotFault),
    ((s.strand k).doomed = true → s.takeTrap k tba fs = s) ∧
    ((s.strand k).handler ≠ .none → (s.strand k).doomed = false →
    let x := s.strand k
    let y := (s.takeTrap k tba fs).strand k
    y.st = .trapped ∧ y.handler = x.handler ∧ y.tba = x.tba ∧ y.tfm = x.tfm ∧ y.tcause = x.tcause ∧
    y.tinfo = x.tinfo ∧
    y.fw = some (.kill 2 0x42 tba (trapRec x tba fs).tfm (trapRec x tba fs).tcause (trapRec x tba fs).tinfo x.tba))

namespace Sys2Proof.Machine

/-- The causes of R193's three instructions, with their TINFO; BKPT traps only where its context's breakpoints are
enabled. -/
def programTrapOf (i : Instr) (s : State) : Option (Nat × Nat) :=
  match i with
  | .trap f => some (0x14, f.imm)
  | .bkpt f => if s.breakpoints s.issue.strand = true then some (0x15, f.imm) else none
  | .svcNull => some (0x16, 0)
  | .svcEvent => some (0x16, 1)
  | .svcAbort => some (0x16, 2)
  | .svcReside => some (0x16, 3)
  | .svcGroupinfo => some (0x16, 4)
  | .svcUnassigned f => some (0x16, f.imm)
  | _ => none

end Sys2Proof.Machine

/-- R183, R193: TRAP, BKPT and SVC commit their bundle, whose loop ends are matched, and then trap to TVEC, with TBA the bundle's
return value, TFM naming the ctl slot, the cause in byte 0 and the immediate in TINFO; with breakpoints disabled BKPT commits
as a NOP. -/
def Obligations.ProgramTraps : Prop :=
  (∀ (i : Instr) (s : State) (c imm : Nat), programTrapOf i s = some (c, imm) → s.ready i → s.me.handler = .none →
    s.me.doomed = false → s.atRest s.issue.strand →
    ∃ t, exec i s = .next t ∧ t.issue.committed = true ∧ t.me.st = .detached ∧ t.me.handler = .sup ∧
      t.me.tba = s.issue.bank * 2 ^ 16 + s.issue.succ % 2 ^ 16 ∧ t.me.tfm = 1 ∧ t.me.tcause = c ∧ t.me.tinfo = imm ∧
      t.me.pc = s.me.tvec % 2 ^ 16 ∧ t.me.bank = s.me.tvec / 2 ^ 16 % 2 ∧
      t.me.loops = (s.me.closeLoops s.issue.pc s.issue.bank s.issue.succ).1.loops) ∧
  (∀ (f : CI) (s : State), s.breakpoints s.issue.strand = false → s.ready (.bkpt f) →
    Runs s (.bkpt f) (fun o t => OnlyResult o t [] 0))

/-- R194: RTT in a handler state goes on at TBA as it stood before the bundle, with no handler state, and changes no
register, byte or flag. -/
def Obligations.ReturnFromTrap : Prop :=
  ∀ s : State, s.ready .rtt →
    Runs s .rtt (fun o t => t.me.handler = .none ∧ t.me.pc = o.issue.pre.tba % 2 ^ 16 ∧
      t.me.bank = o.issue.pre.tba / 2 ^ 16 % 2 ∧ t.issue.transfer = true ∧ t.me.st = o.me.st ∧ t.me.tba = o.me.tba ∧
      t.me.tcause = o.me.tcause ∧ t.me.tinfo = o.me.tinfo ∧ t.me.tfm = o.me.tfm ∧ Still o t [])

/-- R42: ROLLING BACK. The strand restores what its shadow slots hold, drops the stores that its gate holds, and goes on,
by itself, at its restart point. -/
def Obligations.RollbackRestores : Prop :=
  ∀ (s : State) (k : Nat), (s.strand k).rolling = true → s.drained k = true → (s.strand k).inflight = [] →
    (s.strand k).pri = none →
    (∀ h ∈ (s.strand k).shadows, ∃ r old, h = .reg r old) → ((s.strand k).shadows.map (fun h =>
      match h with
      | .reg r _ => r
      | .loop n _ _ => .tile n)).Nodup →
    ∃ t, exec (.rollback k 32 0) s = .next t ∧ t.mem = s.mem ∧
      (t.strand k).pc = (s.strand k).restartPc ∧ (t.strand k).bank = (s.strand k).restartBank ∧
      (t.strand k).st = .detached ∧ (t.strand k).gate = [] ∧ (t.strand k).shadows = [] ∧
      (∀ r old, .reg r old ∈ (s.strand k).shadows → r.fixed = false → (∀ p n, r ≠ .push p n) →
        (t.strand k).get r = old % 2 ^ destWidth r) ∧
      (∀ r, (∀ old, .reg r old ∉ (s.strand k).shadows) → (t.strand k).get r = (s.strand k).get r)

/-! ## The ctl slot -/

namespace Sys2Proof.Machine

/-- BR's conditions on a signed scalar (R177). -/
def holdsBranch (cc : Nat) (v : Word) : Bool :=
  match cc with
  | 0 => v == 0
  | 1 => v != 0
  | 2 => v.slt 0
  | 3 => (0 : Word).sle v
  | 4 => (0 : Word).slt v
  | _ => v.sle 0

/-- Where the transfers of R177 to R180 go, if they transfer, as bank and program counter; and the link they write. -/
def transferTable (i : Instr) (s : State) : Option (Option (Nat × Nat) × List Nat) :=
  let at_ (v : Nat) : Option (Nat × Nat) := some (v / 2 ^ 16 % 2, v % 2 ^ 16)
  match i with
  | .br f => some (if holdsBranch f.cc (s.bits f.ss) then some (s.issue.bank, 2 * f.word) else none, [])
  | .jmp f => some (some (s.issue.bank, 2 * f.word), [])
  | .jmpr f => some (at_ (s.ra f.tgt), [])
  | .call f => some (some (s.issue.bank, 2 * f.word), [f.lk])
  | .callr f => some (at_ (s.ra f.tgt), [f.lk])
  | .ret f => some (at_ (s.ra f.tgt), [])
  | .bswap f => some (some (1 - s.issue.bank, 2 * f.word), [])
  | _ => none

end Sys2Proof.Machine

/-- R177 to R180: the transfers commit, set the bank selector and the program counter where they transfer, and write the
bundle's return value into the link of a call; nothing else changes. -/
def Obligations.Transfers : Prop :=
  ∀ (i : Instr) (s : State) (go : Option (Nat × Nat)) (links : List Nat), transferTable i s = some (go, links) → s.ready i →
    Runs s i (fun o t =>
      (∀ b p, go = some (b, p) → t.issue.transfer = true ∧ t.me.bank = b ∧ t.me.pc = p) ∧
      (go = none → t.issue.transfer = o.issue.transfer ∧ t.me.bank = o.me.bank ∧ t.me.pc = o.me.pc) ∧
      (∀ l ∈ links, t.me.get (.a l) = (s.issue.bank * 2 ^ 16 + s.issue.succ % 2 ^ 16) % 2 ^ 64) ∧
      OnlyResult o t (links.map Dest.a) 0)

/-- R182: LOOP loads its level's loop register and clears its LIX; a trip count of zero goes on past the bundle at the end
word; the other levels and every register stay. -/
def Obligations.LoopBegins : Prop :=
  ∀ (f : CP) (s : State), s.ready (.loop f) →
    Runs s (.loop f) (fun o t =>
      Table.get t.me.loops {} f.lv =
        { act := decide (0 < s.rs f.ss), bank := s.issue.bank, start := s.issue.succ / 2, last := f.last,
          left := s.rs f.ss } ∧
      Table.get t.me.lix 0 f.lv = 0 ∧
      (∀ n, n ≠ f.lv → Table.get t.me.loops {} n = Table.get o.me.loops {} n ∧
        Table.get t.me.lix 0 n = Table.get o.me.lix 0 n) ∧
      t.me.pc = (if s.rs f.ss = 0 then s.succOf (ropeOf s.issue.strand) s.issue.bank (2 * f.last) else s.issue.succ) ∧
      t.me.bank = s.issue.bank ∧ t.issue.transfer = true ∧ Still o t [])

namespace Sys2Proof.Machine

/-- A loop register matches the end of a bundle. -/
def LoopReg.ends (l : LoopReg) (pc bank : Nat) : Prop := l.act = true ∧ l.last = pc / 2 ∧ l.bank = bank

end Sys2Proof.Machine

/-- R183: at the commit of a bundle that neither transfers control nor belongs to a handler, loop ends are matched from
level 5 down: matching levels on their last trip end; the first with trips left loops back and counts its LIX, and no outer
level is looked at; with none, the successor is next. -/
def Obligations.LoopEnds : Prop :=
  ∀ (x : Strand) (i : Issue), i.transfer = false → i.after = none → i.pre.handler = .none →
    let l := fun n => Table.get x.loops {} n
    let y := x.moveOn i
    (∀ n, n < 6 → (l n).ends i.pc i.bank → 1 < (l n).left →
      (∀ m, n < m → m < 6 → (l m).ends i.pc i.bank → (l m).left ≤ 1) →
      y.pc = 2 * (l n).start ∧ Table.get y.loops {} n = { l n with left := (l n).left - 1 } ∧
      Table.get y.lix 0 n = (Table.get x.lix 0 n + 1) % 2 ^ 32 ∧
      (∀ m, m < n → Table.get y.loops {} m = l m) ∧
      (∀ m, n < m → m < 6 → (l m).ends i.pc i.bank → (Table.get y.loops {} m).act = false)) ∧
    ((∀ n, n < 6 → (l n).ends i.pc i.bank → (l n).left ≤ 1) →
      y.pc = i.succ ∧ y.lix = x.lix ∧
      (∀ n, n < 6 → (l n).ends i.pc i.bank → (Table.get y.loops {} n).act = false) ∧
      (∀ n, n < 6 → ¬ (l n).ends i.pc i.bank → Table.get y.loops {} n = l n))

/-- R185 to R191: NOP does nothing; HOLD puts off the next issue by its count and one; DETACH leaves the stream; IFENCE
waits for the reloads under way; YPOINT stops a strand by itself when YREQ is set, and YIELD stops its strand: it issues
nothing more and freezes once it has drained (R46); EXIT ends it; JOIN waits for the join, at which its strand has arrived.
None changes a register, a byte, a flag or a core's tiles and rings. -/
def Obligations.StrandControls : Prop :=
  (∀ s : State, s.ready .nop → Runs s .nop (fun o t => OnlyResult o t [] 0 ∧ t.me.st = o.me.st ∧ t.me.ready = o.me.ready)) ∧
  (∀ (f : CI) (s : State), s.ready (.hold f) →
    Runs s (.hold f) (fun o t => OnlyResult o t [] 0 ∧ t.me.ready = s.cycle + f.imm + 1)) ∧
  (∀ s : State, s.ready .detach →
    Runs s .detach (fun o t => Still o t [] ∧ t.me.onStream = false ∧
      (s.me.st = .attached → t.me.st = .detached) ∧ (s.me.st = .detached → t.me.st = .detached ∧ t.ropes = o.ropes))) ∧
  (∀ s : State, s.ready .ifence →
    Runs s .ifence (fun o t => OnlyResult o t [] 0 ∧
      t.me.reloadWait = (s.rope (ropeOf s.issue.strand)).pendingReloads)) ∧
  (∀ s : State, s.ready .ypoint →
    Runs s .ypoint (fun o t => OnlyResult o t [] 0 ∧
      (s.me.st = .attached → t.me.outcome = some (.ypoint s.issue.pre.yreq) ∧ t.me.st = .attached) ∧
      (s.me.st = .detached → t.me.st = .detached ∧ t.me.freezing = (s.issue.pre.yreq || s.me.freezing)))) ∧
  (∀ s : State, s.ready .yield →
    Runs s .yield (fun o t => Still o t [] ∧ t.me.st = o.me.st ∧ t.me.freezing = true ∧
      ∀ h g, (s.rope (ropeOf s.issue.strand)).res = .busy h → (o.slot h).gang = some g →
        (t.slot h).gang = some { g with byYield := true })) ∧
  (∀ s : State, s.ready .exit →
    Runs s .exit (fun o t => Still o t [] ∧ t.me.st = .exited ∧ (∀ e ∈ t.me.inflight, e.toPort = true) ∧
      t.me.onStream = false)) ∧
  (∀ (f : CJ) (s : State), s.ready (.join f) →
    Runs s (.join f) (fun o t => Still o t [] ∧ t.me.st = .joining ∧
      ∃ j, (t.stream (ropeOf s.issue.strand) (ctxOf s.issue.strand)).join = some j ∧
        posOf s.issue.strand ∈ j.arrived ∧ posOf s.issue.strand ∈ j.members))

/-! ## The alu slot -/

/-- R196, R198, R199: every alu instruction but the divisions and MFS and MTS gives the table's result. -/
def Obligations.AluTable : Prop :=
  ∀ (i : Instr) (s : State) (d : Dest) (v : Word) (lat : Nat), aluTable i s = some (d, v, lat) → s.ready i →
    Gives s i d v.toNat lat

/-- R197: division rounds toward zero, the remainder takes the dividend's sign, and no division traps: whatever the dividend and
the divisor hold, nothing is found in their values, and a division whose encoding is in order, whose sources are neither
poisoned nor pending, and whose bundle waits for nothing, executes normally. -/
def Obligations.Division : Prop :=
  (∀ (i : Instr) (s : State) (d : Dest) (v : Word), divResult i s = some (d, v) → s.ready i → Gives s i d v.toNat 18) ∧
  ∀ (f : AR) (s : State), ∀ i ∈ [Instr.div f, .divn f, .rem f, .remn f],
    i.valueHurdle s = none ∧
    (i.encCause = none → s.issue.pre.poison (.s f.a) = none → s.issue.pre.poison (.s f.b) = none →
      (s.issue.x = true ∨ ∀ e ∈ [Dest.s f.a, .s f.b, .s f.d], s.issue.pre.pending e = false) →
      i.hurdle s = none ∧
      (s.issue.phase = .lone → s.issue.Plain → s.issue.pre = s.me → s.bundleWait [i] = none → s.ready i))

/-- R198: BEXT and BINS take LEN = field + 1; a POS + LEN above 64 is an illegal operand; BEXT delivers the field with
zeros above it, BINS replaces bits POS + LEN - 1 to POS of D's old value by A's low bits; the rule's example. -/
def Obligations.BitFields : Prop :=
  (∀ f : AB, (Instr.bext f).wf = true ∨ (Instr.bins f).wf = true →
    f.pos ≤ 63 ∧ 1 ≤ f.len + 1 ∧ f.len + 1 ≤ 64 ∧ f.pos + (f.len + 1) ≤ 64) ∧
  (∀ f : AB, 64 < f.pos + (f.len + 1) → (Instr.bext f).encCause = some .illegalOperand ∧
    (Instr.bins f).encCause = some .illegalOperand) ∧
  (∀ (f : AB) (s : State), s.ready (.bext f) → Gives s (.bext f) (.s f.d) (s.rs f.a / 2 ^ f.pos % 2 ^ (f.len + 1)) 1) ∧
  (∀ (f : AB) (s : State), s.ready (.bins f) → ∃ v : Word, Gives s (.bins f) (.s f.d) v.toNat 1 ∧
    ∀ i, i < 64 → v.getLsbD i =
      if f.pos ≤ i ∧ i < f.pos + (f.len + 1) then (s.bits f.a).getLsbD (i - f.pos) else (s.bits f.d).getLsbD i) ∧
  (Instr.bext { d := 3, a := 7, pos := 12, len := 7 }).encode = 0x00001CC1C31F ∧
  (∀ s : State, s.ready (.bext { d := 3, a := 7, pos := 12, len := 7 }) → s.rs 7 = 0xABCDEF →
    Gives s (.bext { d := 3, a := 7, pos := 12, len := 7 }) (.s 3) 0xBC 1)

namespace Sys2Proof.Machine

/-- Destinations and flags of the alu and vector instructions (R52, R65, R195 to R226): float arithmetic may raise flags,
and the others none. -/
def resultTargets (i : Instr) : Option (List Dest × Nat) :=
  let vec (d mask : Nat) : Option (List Dest × Nat) := some (if d < 384 then [.v d] else [], mask)
  match i with
  | .add f | .sub f | .mul f | .mulh f | .mulhn f | .div f | .divn f | .rem f | .remn f | .and f | .or f | .xor f
  | .andn f | .shl f | .shr f | .sar f | .rol f | .min f | .max f | .minn f | .maxn f | .cmp f | .sel f | .mov f
  | .clz f | .ctz f | .popc f | .brev f | .movaToScalar f | .rdcyc f => some ([.s f.d], 0)
  | .addi f => some ([.s f.d], 0)
  | .movi f | .movhi f => some ([.s f.d], 0)
  | .bext f | .bins f => some ([.s f.d], 0)
  | .lea f | .adda f | .movaToAddress f => some ([.a f.d], 0)
  | .mfs f => some ([.s f.s], 0)
  | .vadd f | .vsub f | .vmul f | .vfma f | .vfms f | .vfnma f | .vrcp f | .vrsq f | .vsqrt f | .vexp2 f | .vlog2 f
    => vec f.d 31
  | .vred f | .vscan f => vec f.d (if f.fmt ≤ 2 then 31 else 0)
  | .vmin f | .vmax f | .vabs f | .vneg f | .vclamp f | .viadd f | .visub f | .vimul f | .vimad f | .vimin f | .vimax f
  | .vand f | .vor f | .vxor f | .vshl f | .vshr f | .vsar f | .vsel f | .vmov f | .vbcast f | .vins f | .vperm f
  | .vslide f | .vzip f | .vunzip f | .vexpand f => vec f.d 0
  | .vmovi f => vec f.d 0
  | .vcvt f | .vsrnd f | .vunblock f => vec f.d 31
  | .vrand f => vec f.d 0
  | .vblock f => some ([.v f.d, .v (f.d + 1)], 31)
  | .vcompress f => some ((if f.d < 384 then [.v f.d] else []) ++ [.v f.c], 0)
  | .vcmp f | .pand f | .por f | .pxor f | .pnot f => some ([.p f.d], 0)
  | .vext f | .vpcnt f => some ([.s f.d], 0)
  | _ => none

end Sys2Proof.Machine

/-- R134, R147: an alu or vector instruction commits and changes no other register, no byte of memory, no special register,
loop, tile, latch, semaphore or ring, no other strand, and no flag that the rules do not name for it; one that pops a report
of a haul engine is an acquire, which writes the Dirty L1 sectors of its core to their homes. -/
def Obligations.ResultFrame : Prop :=
  ∀ (i : Instr) (s : State) (ds : List Dest) (mask : Nat), resultTargets i = some (ds, mask) → s.ready i →
    Runs s i (fun o t => ((∀ q ∈ i.pops, q < 440) → OnlyResult o t ds mask) ∧
      ((∃ q ∈ i.pops, 440 ≤ q) → Calm o t ds mask ∧ HomesKept o t [] ∧ (t.core o.myCore).l1 = []))

namespace Sys2Proof.Machine

/-- The special registers that hold a value of the strand's own, its place, its descriptor's or the device's (R61). -/
def specialValue (s : State) (n : Nat) : Option Nat :=
  let k := s.issue.strand
  let x := s.issue.pre
  match n with
  | 0x00 => some s.cyc.toNat
  | 0x01 => some (k % 4)
  | 0x02 => some (k / 4)
  | 0x03 => some (k / 32)
  | 0x04 => some (k / 256)
  | 0x05 => some s.devid
  | 0x10 => some x.tvec
  | 0x11 => some x.rvec
  | 0x12 => some x.tba
  | 0x13 => some x.tfm
  | 0x14 => some x.tcause
  | 0x15 => some x.tinfo
  | 0x16 => some x.flags
  | 0x17 => some ((BitVec.ofNat 8 x.lscale).signExtend 64).toNat
  | 0x18 => some x.srseed.toNat
  | 0x19 => some (if x.yreq then 1 else 0)
  | 0x1A => some x.pdl
  | 0x1C => some s.cairn.pace
  | 0x20 => some x.stkbase
  | 0x21 => some x.stklim
  | 0x22 => some (x.stkbase + x.depth % (x.stklim - x.stkbase))
  | 0x23 => some x.stkspill
  | 0x24 => some x.stkmark
  | n =>
    if 0x08 ≤ n ∧ n ≤ 0x0D then some (Table.get x.lix 0 (n - 8))
    else if 0x60 ≤ n ∧ n ≤ 0x6F then some (Table.get (s.core (k / 4)).rings 0 (n - 0x60)).toNat
    else none

end Sys2Proof.Machine

/-- R61, R62, R66, R200: MFS reads a special register as it stood before its bundle. -/
def Obligations.SpecialsAreRead : Prop :=
  ∀ (f : AS) (s : State) (v : Nat), specialValue s f.reg = some v → s.ready (.mfs f) → Gives s (.mfs f) (.s f.s) v 1

namespace Sys2Proof.Machine

/-- What MTS leaves in a writable register of the strand or its core, by its number and the source's value (R61, R63,
R66, R392); the other numbers, the scope masks apart, are read-only. -/
def specialWritten (n v : Nat) : Option Nat :=
  if 0x10 ≤ n ∧ n ≤ 0x12 then some (v % 2 ^ 17 / 2 * 2)
  else if n = 0x13 then some (v % 2 ^ 6)
  else if n = 0x14 then some (v % 2 ^ 48)
  else if n = 0x17 then some ((BitVec.ofNat 8 v).signExtend 64).toNat
  else if n = 0x15 ∨ n = 0x18 ∨ n = 0x20 ∨ n = 0x21 ∨ n = 0x23 ∨ n = 0x24 then some v
  else if n = 0x28 ∨ n = 0x29 then some (v / 2 ^ 18 % 2 ^ 39 * 2 ^ 18)
  else if 0x60 ≤ n ∧ n ≤ 0x6F then some (v / 256 * 256)
  else none

end Sys2Proof.Machine

/-- R61, R62, R69, R200, R374, R393: MTS executes normally, alone in its bundle, when its encoding is in order, its source is
neither poisoned nor pending, its bundle waits for nothing, and neither privilege nor a stack that holds an entry forbids its
register. It then answers a next state, in which its bundle has committed: the register reads as written, and every other one
as it did; FLAGS takes the low five bits and then the flags that the bundle raises; a write to a read-only register is
dropped, so that it reads as it did. -/
def Obligations.SpecialsAreWritten : Prop :=
  ∀ (f : AS) (s : State), s.issue.phase = .lone → s.issue.Plain → s.issue.pre = s.me →
    (Instr.mts f).encCause = none → s.me.poison (.s f.s) = none →
    (s.issue.x = true ∨ s.me.pending (.s f.s) = false) → s.bundleWait [.mts f] = none →
    (f.reg = 0x10 ∨ f.reg = 0x28 ∨ f.reg = 0x29 → s.me.handler = .sup) →
    (f.reg = 0x20 ∨ f.reg = 0x21 ∨ f.reg = 0x23 → s.me.sizes = []) →
    s.ready (.mts f) ∧
    ∃ t, Sys2Proof.Machine.exec (.mts f) s = .next t ∧ t.issue.committed = true ∧
      let o := s.opened (.mts f)
      RegsKept o t [] ∧ MemoryKept o t [] ∧ LoopsKept o t ∧ OthersKept { o with slots := t.slots } t ∧
      (∀ v, specialWritten f.reg (s.rs f.s) = some v → t.special s.issue.strand t.me f.reg = v) ∧
      (∀ g, 0x40 ≤ f.reg → f.reg ≤ 0x5F → o.gangOfRope (ropeOf s.issue.strand) = some g →
        t.special s.issue.strand t.me f.reg = s.rs f.s) ∧
      (f.reg = 0x16 → t.me.flags = s.rs f.s % 32 ||| (s.issue.flags ||| s.issue.pre.mxFlags)) ∧
      (specialWritten f.reg (s.rs f.s) = none → f.reg ≠ 0x16 → ¬ (0x40 ≤ f.reg ∧ f.reg ≤ 0x5F) →
        t.special s.issue.strand t.me f.reg = o.special s.issue.strand o.me f.reg) ∧
      (∀ n, n ≠ f.reg → n ≠ 0x16 → n ≠ 0x22 → t.special s.issue.strand t.me n = o.special s.issue.strand o.me n) ∧
      (f.reg ≠ 0x16 → FlagsWithin o t 0)

/-! ## The vector slots -/

namespace Sys2Proof.Machine

/-- The bits [w (j + 1) - 1 : w j] of a vector. -/
def lane (w v j : Nat) : Nat := v / 2 ^ (w * j) % 2 ^ w

/-- The integer value of an element of an integer format (R201): i formats are signed. -/
def laneInt (fmt x : Nat) : Int :=
  if fmt ≤ 11 ∧ 2 ^ (fmtWidth fmt - 1) ≤ x then (x : Int) - 2 ^ fmtWidth fmt else x

/-- The element-wise instructions (R206 to R209, R213): format, latency, and the element's result with its flags; the result
is reduced to the element's width. -/
def elementOp (i : Instr) : Option (V3 × Nat × (Nat → Nat → Nat → Nat × Nat)) :=
  let t (f : V3) : FpFmt := fpFmt f.fmt
  let int (f : V3) (g : Nat → Nat → Nat → Int) : Option (V3 × Nat × (Nat → Nat → Nat → Nat × Nat)) :=
    some (f, 3, fun a b c => ((g a b c % 2 ^ fmtWidth f.fmt).toNat, 0))
  match i with
  | .vadd f => some (f, 6, fun a b _ => (t f).add f.rm ((t f).value a) ((t f).value b))
  | .vsub f => some (f, 6, fun a b _ => (t f).sub f.rm ((t f).value a) ((t f).value b))
  | .vmul f => some (f, 6, fun a b _ => (t f).mul f.rm ((t f).value a) ((t f).value b))
  | .vfma f => some (f, 6, fun a b c => (t f).fused f.rm false false ((t f).value a) ((t f).value b) ((t f).value c))
  | .vfms f => some (f, 6, fun a b c => (t f).fused f.rm false true ((t f).value a) ((t f).value b) ((t f).value c))
  | .vfnma f => some (f, 6, fun a b c => (t f).fused f.rm true false ((t f).value a) ((t f).value b) ((t f).value c))
  | .vmin f => some (f, 3, fun a b _ => ((t f).pick false a b, 0))
  | .vmax f => some (f, 3, fun a b _ => ((t f).pick true a b, 0))
  | .vclamp f => some (f, 3, fun a b c => (clampOp f.fmt a b c, 0))
  | .vabs f => some (f, 3, fun a _ _ => (a % 2 ^ (fmtWidth f.fmt - 1), 0))
  | .vneg f => some (f, 3, fun a _ _ => (a + 2 ^ (fmtWidth f.fmt - 1), 0))
  | .vrcp f => some (f, 12, fun a _ _ => (t f).apply .rcp ((t f).value a))
  | .vrsq f => some (f, 12, fun a _ _ => (t f).apply .rsq ((t f).value a))
  | .vsqrt f => some (f, 16, fun a _ _ => (t f).apply .sqrt ((t f).value a))
  | .vexp2 f => some (f, 16, fun a _ _ => (t f).apply .exp2 ((t f).value a))
  | .vlog2 f => some (f, 16, fun a _ _ => (t f).apply .log2 ((t f).value a))
  | .viadd f => int f (fun a b _ => (a : Int) + b)
  | .visub f => int f (fun a b _ => (a : Int) - b)
  | .vimul f => int f (fun a b _ => (a : Int) * b)
  | .vimad f => int f (fun a b c => (a : Int) * b + c)
  | .vimin f => some (f, 3, fun a b _ => (if laneInt f.fmt b < laneInt f.fmt a then b else a, 0))
  | .vimax f => some (f, 3, fun a b _ => (if laneInt f.fmt a < laneInt f.fmt b then b else a, 0))
  | .vand f => some (f, 3, fun a b _ => (a &&& b, 0))
  | .vor f => some (f, 3, fun a b _ => (a ||| b, 0))
  | .vxor f => some (f, 3, fun a b _ => (a ^^^ b, 0))
  | .vshl f => some (f, 3, fun a b _ => (a <<< (b % fmtWidth f.fmt), 0))
  | .vshr f => some (f, 3, fun a b _ => (a >>> (b % fmtWidth f.fmt), 0))
  | .vsar f => int f (fun a b _ =>
      (if 2 ^ (fmtWidth f.fmt - 1) ≤ a then (a : Int) - 2 ^ fmtWidth f.fmt else a) / 2 ^ (b % fmtWidth f.fmt))
  | .vmov f => some (f, 3, fun a _ _ => (a, 0))
  | _ => none

/-- The flags of several elements together. -/
def orAll (l : List Nat) : Nat := l.foldl (fun a e => a ||| e) 0

end Sys2Proof.Machine

/-- R53, R202 to R209, R213: an element-wise instruction gives every element whose governing bit is set its operation's
result on the elements of its operands, and leaves every other one as the destination register holds it, or zero in a
vector for a port; FLAGS gains the flags of the elements that take part. -/
def Obligations.VecElementwise : Prop :=
  ∀ (i : Instr) (s : State) (f : V3) (lat : Nat) (op : Nat → Nat → Nat → Nat × Nat), elementOp i = some (f, lat, op) →
    s.ready i →
    let r := (s.opened i).readAbc f
    let w := fmtWidth f.fmt
    let on (j : Nat) : Bool := bitAt (s.rd (.p f.p)) (w / 8 * j)
    let res (j : Nat) : Nat × Nat := op (lane w r.1 j) (lane w r.2.1 j) (lane w r.2.2.1 j)
    ∃ v, Runs s i (fun o t => DeliversVec o t f.d v lat ∧
        FlagsGain o t (orAll ((List.range (1024 / w)).map (fun j => if on j then (res j).2 else 0)))) ∧
      ∀ j, j < 1024 / w → lane w v j =
        if on j then (res j).1 % 2 ^ w else if f.d < 384 then lane w (s.rd (.v f.d)) j else 0

namespace Sys2Proof.Machine

/-- The instructions that choose elements of whole operands (R211, R214 to R216, R224): whether P protects elements, and
element `j` of the result for a predicate and the operands A and B. -/
def chooseOp (i : Instr) : Option (V3 × Bool × (Nat → Nat → Nat → Nat → Nat)) :=
  let seq (w n a b k : Nat) : Nat := if k < n then lane w a k else lane w b (k - n)
  match i with
  | .vsel f => let w := fmtWidth f.fmt
    some (f, false, fun p a b j => if bitAt p (w / 8 * j) then lane w a j else lane w b j)
  | .vperm f => let w := fmtWidth f.fmt
    some (f, true, fun _ a b j => if lane w b j < 1024 / w then lane w a (lane w b j) else 0)
  | .vslide f => let w := fmtWidth f.fmt
    some (f, true, fun _ a b j => seq w (1024 / w) a b (j + f.xf))
  | .vzip f => let w := fmtWidth f.fmt
    some (f, true, fun _ a b j => lane w (if j % 2 = 0 then a else b) (f.xf % 2 * (1024 / w / 2) + j / 2))
  | .vunzip f => let w := fmtWidth f.fmt
    some (f, true, fun _ a b j => seq w (1024 / w) a b (2 * j + f.xf % 2))
  | .vexpand f => let w := fmtWidth f.fmt
    some (f, false, fun _ a b j =>
      if lane 2 b (2 * (j / 4) + 1) = j % 4 then lane w a (2 * (j / 4) + 1)
      else if lane 2 b (2 * (j / 4)) = j % 4 then lane w a (2 * (j / 4)) else 0)
  | _ => none

end Sys2Proof.Machine

/-- R211, R214 to R216, R224: selection, permutes and VEXPAND give each element as the table says, with P's protection where
they are predicated, in 3 cycles, and raise no flag. -/
def Obligations.VecPermutes : Prop :=
  ∀ (i : Instr) (s : State) (f : V3) (pred : Bool) (op : Nat → Nat → Nat → Nat → Nat), chooseOp i = some (f, pred, op) →
    s.ready i →
    let r := (s.opened i).readAbc f
    let w := fmtWidth f.fmt
    ∃ v, Runs s i (fun o t => DeliversVec o t f.d v 3 ∧ FlagsGain o t 0) ∧
      ∀ j, j < 1024 / w → lane w v j =
        if pred = true ∧ bitAt (s.rd (.p f.p)) (w / 8 * j) = false then
          (if f.d < 384 then lane w (s.rd (.v f.d)) j else 0)
        else op (s.rd (.p f.p)) r.1 r.2.1 j % 2 ^ w

/-- R213: VMOVI and VBCAST give every governed element the immediate or the scalar, VINS replaces one element, VEXT extends
one to 64 bits; each keeps every other element. -/
def Obligations.VecScalars : Prop :=
  (∀ (f : VI) (s : State), s.ready (.vmovi f) →
    let w := fmtWidth f.fmt
    ∃ v, Runs s (.vmovi f) (fun o t => DeliversVec o t f.d v 3 ∧ FlagsGain o t 0) ∧
      ∀ j, j < 1024 / w → lane w v j =
        if bitAt (s.rd (.p f.p)) (w / 8 * j) then
          (if f.fmt = 11 then ((BitVec.ofNat 32 f.imm).signExtend 64).toNat else f.imm % 2 ^ w)
        else if f.d < 384 then lane w (s.rd (.v f.d)) j else 0) ∧
  (∀ (f : V3) (s : State), s.ready (.vbcast f) →
    let w := fmtWidth f.fmt
    ∃ v, Runs s (.vbcast f) (fun o t => DeliversVec o t f.d v 3 ∧ FlagsGain o t 0) ∧
      ∀ j, j < 1024 / w → lane w v j =
        if bitAt (s.rd (.p f.p)) (w / 8 * j) then s.rs f.a % 2 ^ w
        else if f.d < 384 then lane w (s.rd (.v f.d)) j else 0) ∧
  (∀ (f : V3) (s : State), s.ready (.vins f) →
    let w := fmtWidth f.fmt
    ∃ v, Runs s (.vins f) (fun o t => DeliversVec o t f.d v 3 ∧ FlagsGain o t 0) ∧
      ∀ j, j < 1024 / w → lane w v j =
        if j = f.xf then s.rs f.a % 2 ^ w else if f.d < 384 then lane w (s.rd (.v f.d)) j else 0) ∧
  (∀ (f : V3) (s : State), s.ready (.vext f) →
    let w := fmtWidth f.fmt
    let x := lane w ((s.opened (.vext f)).readVec f.a).1 f.xf
    Gives s (.vext f) (.s f.d)
      (if 8 ≤ f.fmt ∧ f.fmt ≤ 11 ∧ 2 ^ (w - 1) ≤ x then x + (2 ^ 64 - 2 ^ w) else x) 3)

namespace Sys2Proof.Machine

/-- PAND, POR, PXOR and PNOT on the patterns of two predicates (R212). -/
def predicateOp (i : Instr) : Option (V3 × (BitVec 128 → BitVec 128 → BitVec 128)) :=
  match i with
  | .pand f => some (f, fun a b => a &&& b)
  | .por f => some (f, fun a b => a ||| b)
  | .pxor f => some (f, fun a b => a ^^^ b)
  | .pnot f => some (f, fun a _ => ~~~a)
  | _ => none

end Sys2Proof.Machine

/-- R210, R212: VCMP sets all bits of each element whose governing bit is set and whose comparison holds and clears every
other bit of its predicate; VPCNT counts governed elements; the predicate operations act on all 128 bits. -/
def Obligations.VecPredicates : Prop :=
  (∀ (f : V3) (s : State), s.ready (.vcmp f) →
    let r := (s.opened (.vcmp f)).readAbc f
    let w := fmtWidth f.fmt
    ∃ v, Runs s (.vcmp f) (fun o t => HasResult o t (.p f.d) v 3) ∧
      ∀ n, n < 128 → bitAt v n = (bitAt (s.rd (.p f.p)) (w / 8 * (n / (w / 8))) &&
        compareElems (f.xf % 16) f.fmt (lane w r.1 (n / (w / 8))) (lane w r.2.1 (n / (w / 8))))) ∧
  (∀ (f : V3) (s : State), s.ready (.vpcnt f) →
    Gives s (.vpcnt f) (.s f.d)
      ((List.range (1024 / fmtWidth f.fmt)).countP (fun j => bitAt (s.rd (.p f.a)) (fmtWidth f.fmt / 8 * j))) 3) ∧
  (∀ (i : Instr) (s : State) (f : V3) (op : BitVec 128 → BitVec 128 → BitVec 128), predicateOp i = some (f, op) →
    s.ready i →
    Gives s i (.p f.d) (op (BitVec.ofNat 128 (s.rd (.p f.a))) (BitVec.ofNat 128 (s.rd (.p f.b)))).toNat 1)

namespace Sys2Proof.Machine

/-- The tree of R92 over 2^n lanes: the two halves' roots combined. -/
def foldTree (fmt op : Nat) : Nat → List Node → Node
  | 0, l => (l.head?).getD (none, 0)
  | n + 1, l => redNode fmt op (foldTree fmt op n (l.take (2 ^ n))) (foldTree fmt op n (l.drop (2 ^ n)))

/-- R93's combination for the lanes below `m`: its blocks of falling powers of two, from the left. -/
def foldBlocks (fmt op : Nat) (l : List Node) (m : Nat) : Nat → Nat → Node → Node
  | 0, _, acc => acc
  | n + 1, start, acc =>
    if bitAt m n then
      foldBlocks fmt op l m n (start + 2 ^ n) (redNode fmt op acc (foldTree fmt op n ((l.drop start).take (2 ^ n))))
    else foldBlocks fmt op l m n start acc

end Sys2Proof.Machine

/-- R92, R93, R217: VRED delivers the root of the tree over the lanes whose governing bit is set, or the identity when there
is none, in element 0, and zero elsewhere; VSCAN delivers every lane's prefix; each raises the flags of its nodes. -/
def Obligations.VecReductions : Prop :=
  (∀ (f : V3) (s : State), s.ready (.vred f) →
    let l := redLanes f.fmt (s.rd (.p f.p)) ((s.opened (.vred f)).readVec f.a).1
    let root := foldTree f.fmt (f.xf % 8) (redDepth f.fmt) l
    Runs s (.vred f) (fun o t => DeliversVec o t f.d (root.1.getD (redIdentity f.fmt (f.xf % 8))) (redLatency f.fmt) ∧
      FlagsGain o t root.2)) ∧
  (∀ (f : V3) (s : State), s.ready (.vscan f) →
    let w := fmtWidth f.fmt
    let l := redLanes f.fmt (s.rd (.p f.p)) ((s.opened (.vscan f)).readVec f.a).1
    let at_ (j : Nat) : Node := foldBlocks f.fmt (f.xf % 8) l (j + 1) (redDepth f.fmt + 1) 0 (none, 0)
    ∃ v, Runs s (.vscan f) (fun o t => DeliversVec o t f.d v (redLatency f.fmt) ∧
        FlagsGain o t (orAll ((List.range (1024 / w)).map (fun j => (at_ j).2)))) ∧
      ∀ j, j < 1024 / w → lane w v j = ((at_ j).1.getD (redIdentity f.fmt (f.xf % 8))) % 2 ^ w)

namespace Sys2Proof.Machine

/-- The random word of element `j` where an instruction rounds stochastically or draws (R79, R218, R226). -/
def drawFor (s : State) (f : VK) (j : Nat) : Nat :=
  draw s.issue.pre.srseed.toNat ((s.rs f.sb % 2 ^ 48 + j) % 2 ^ 48) f.n

end Sys2Proof.Machine

/-- R218 to R222, R226: conversions deliver each element converted and rounded, zero past the elements they have, and the
flags of all elements; VRAND delivers its draws; a block conversion delivers mantissas and scale words. -/
def Obligations.VecConversions : Prop :=
  (∀ (f : VK) (s : State), s.ready (.vcvt f) →
    let a := ((s.opened (.vcvt f)).readVec f.a).1
    let n := min (capacity (fmtWidth f.sfmt)) (capacity (fmtWidth f.dfmt))
    let res (j : Nat) : Nat × Nat := convert f.dfmt f.rm (if f.rm = 4 then drawFor s f j else 0)
      (valueOf f.sfmt (lane (fmtWidth f.sfmt) a j))
    ∃ v, Runs s (.vcvt f) (fun o t => DeliversVec o t f.d v 6 ∧
        FlagsGain o t (orAll ((List.range n).map (fun j => (res j).2)))) ∧
      ∀ j, lane (fmtWidth f.dfmt) v j = if j < n then (res j).1 % 2 ^ fmtWidth f.dfmt else 0) ∧
  (∀ (f : VK) (s : State), s.ready (.vsrnd f) →
    let a := ((s.opened (.vsrnd f)).readVec f.a).1
    let w := fmtWidth f.sfmt
    let res (j : Nat) : Nat × Nat := roundOnto f.sfmt f.dfmt f.rm (if f.rm = 4 then drawFor s f j else 0) (lane w a j)
    ∃ v, Runs s (.vsrnd f) (fun o t => DeliversVec o t f.d v 6 ∧
        FlagsGain o t (orAll ((List.range (1024 / w)).map (fun j => (res j).2)))) ∧
      ∀ j, j < 1024 / w → lane w v j = (res j).1 % 2 ^ w) ∧
  (∀ (f : VK) (s : State), s.ready (.vrand f) →
    ∃ v, Runs s (.vrand f) (fun o t => DeliversVec o t f.d v 8 ∧ FlagsGain o t 0) ∧
      ∀ j, j < 32 → lane 32 v j =
        if f.dfmt = 14 then drawFor s f j % 2 ^ 32
        else (f32.deliver 0 0 (.fin false (drawFor s f j / 2 ^ 8) (-24))).1 % 2 ^ 32) ∧
  (∀ (f : VK) (s : State), s.ready (.vunblock f) →
    let t := fpFmt f.dfmt
    let res (j : Nat) : Nat × Nat :=
      match blockValue (fmtWidth f.sfmt) (lane (fmtWidth f.sfmt) (s.rd (.v f.a)) j)
        (scaleOf (lane 32 (s.rd (.v (f.a + 1))) (j / 32))) with
      | none => (t.canonical, 0)
      | some x => t.deliver f.rm 0 x
    ∃ v, Runs s (.vunblock f) (fun o u => DeliversVec o u f.d v 6 ∧
        FlagsGain o u (orAll ((List.range (1024 / fmtWidth f.dfmt)).map (fun j => (res j).2)))) ∧
      ∀ j, j < 1024 / fmtWidth f.dfmt → lane (fmtWidth f.dfmt) v j = (res j).1 % 2 ^ fmtWidth f.dfmt) ∧
  (∀ (f : VK) (s : State), s.ready (.vblock f) →
    let a := ((s.opened (.vblock f)).readVec f.a).1
    let ws := fmtWidth f.sfmt
    let block (b : Nat) : Nat × List Nat × Nat := toBlock (fmtWidth f.dfmt) f.rm (f.pw == 1)
      (fun j => if f.rm = 4 then drawFor s f (32 * b + j) else 0)
      ((List.range 32).map (fun j => (fpFmt f.sfmt).value (lane ws a (32 * b + j))))
    ∃ m k, Runs s (.vblock f) (fun o t => HasResult o t (.v f.d) m 10 ∧ HasResult o t (.v (f.d + 1)) k 10 ∧
        FlagsGain o t (orAll ((List.range (1024 / ws / 32)).map (fun b => (block b).2.2)))) ∧
      ∀ b, b < 1024 / ws / 32 → lane 32 k b = (block b).1 % 2 ^ 32 ∧
        ∀ j, j < 32 → lane (fmtWidth f.dfmt) m (32 * b + j) = ((block b).2.1.getD j 0) % 2 ^ fmtWidth f.dfmt)

/-- R223: VCOMPRESS keeps, of each group of four elements, the two of largest rank in their order, ties to the lower index,
and writes their indices to the metadata register; nothing beyond is set, and no flag is raised. -/
def Obligations.VecCompress : Prop :=
  ∀ (f : V3) (s : State), s.ready (.vcompress f) →
    let a := ((s.opened (.vcompress f)).readVec f.a).1
    let w := fmtWidth f.fmt
    let n := 1024 / w
    let rank (g j : Nat) : Nat := rankOf f.fmt (lane w a (4 * g + j))
    let beats (g i j : Nat) : Prop := rank g j < rank g i ∨ (rank g i = rank g j ∧ i < j)
    ∃ v m, Runs s (.vcompress f) (fun o t => DeliversVec o t f.d v 4 ∧ HasResult o t (.v f.c) m 4 ∧ FlagsGain o t 0) ∧
      (∀ g, g < n / 4 → ∃ j0 j1, j0 < j1 ∧ j1 < 4 ∧ lane 4 m g = j1 * 4 + j0 ∧
        lane w v (2 * g) = lane w a (4 * g + j0) ∧ lane w v (2 * g + 1) = lane w a (4 * g + j1) ∧
        ∀ k, k < 4 → k ≠ j0 → k ≠ j1 → beats g j0 k ∧ beats g j1 k) ∧
      v < 2 ^ (w * (n / 2)) ∧ m < 2 ^ n

/-! ## The mem slot -/

namespace Sys2Proof.Machine

/-- What a load of pieces `ps` leaves of memory: all of it but what its acquire, or a line that L1 replaces, writes home; with
ev = 7 its own sectors are dropped, and then hold what their controllers do (R118). -/
def LoadKept (o t : State) (at_ : Attr) (ps : List Piece) : Prop :=
  HomesKept o t (if at_.ev = 7 then (l1Sectors ps).flatMap (fun sec => locsFrom (64 * sec) 64) else []) ∧
  (at_.ev ≠ 7 → (o.core o.myCore).l1Dirty = [] → MemoryKept o t [])

/-- The bytes of an access as the issuing strand sees them, from the lowest address (R4). -/
def State.seenBytes (q : State) (a n : Nat) (use : Use) : List Byte :=
  (q.pieces a n false use).map (q.loadByte q.issue.strand)

/-- The last of some cells at a location, or else a value. -/
def lastOf (cells : List (Nat × Byte)) (l : Nat) (b : Byte) : Byte :=
  ((cells.reverse.find? (fun c => c.1 = l)).map (·.2)).getD b

end Sys2Proof.Machine

/-- R4, R39, R117, R254, R255: LD and VLD deliver, by the bound of their latency, the bytes that the strand sees at their
address, in little-endian order: LD extends an i format by its sign and any other with zeros, VLD moves 128 bytes. -/
def Obligations.LoadsDeliver : Prop :=
  (∀ (f : LA) (s : State), s.ready (.ld f) →
    Runs s (.ld f) (fun o t =>
      let n := fmtBytes f.fmt
      let q := o.acquired f.at_
      let v := ofBytes (q.seenBytes (o.effective f.ab f.off) n (useOf n))
      Pending o t (.s f.d) (some (if f.fmt ≤ 11 then ((BitVec.ofNat (8 * n) v).signExtend 64).toNat else v)) f.at_.lat ∧
      Calm o t ∧ LoadKept o t f.at_ (q.pieces (o.effective f.ab f.off) n false (useOf n)))) ∧
  (∀ (f : LA) (s : State), s.ready (.vld f) →
    Runs s (.vld f) (fun o t =>
      let q := o.acquired f.at_
      PendingVec o t f.d (some (ofBytes (q.seenBytes (o.effective f.ab f.off) 128 .data))) f.at_.lat ∧
      Calm o t ∧ LoadKept o t f.at_ (q.pieces (o.effective f.ab f.off) 128 false .data)))

/-- R109, R110, R256, R257: VGATH loads its elements from A plus index times element size, each of the bytes that the strand
sees; VLDT delivers the elements of the tensor that are present and zeros beyond them. -/
def Obligations.GathersDeliver : Prop :=
  (∀ (f : LG) (s : State), s.ready (.vgath f) →
    ∃ v, Runs s (.vgath f) (fun o t => PendingVec o t f.d (some v) f.at_.lat ∧ Calm o t ∧
        LoadKept o t f.at_ ((o.acquired f.at_).gathered f)) ∧
      let o := s.opened (.vgath f)
      let w := fmtWidth f.fmt
      (∀ i, i < min 32 (1024 / w) → o.elementAddr f i =
        (s.ra f.ab + fld (s.rd (.v f.ix)) (32 * i) 32 * (w / 8)) % 2 ^ 64 ∧
        lane w v i = ofBytes ((o.acquired f.at_).seenBytes (o.elementAddr f i) (w / 8) .data)) ∧
      ∀ i, min 32 (1024 / w) ≤ i → lane w v i = 0) ∧
  (∀ (f : LT) (s : State), s.ready (.vldt f) →
    Runs s (.vldt f) (fun o t => Calm o t ∧
      ∀ x, o.tensor f.tid = some x →
        let w := fmtWidth x.fmt
        let q := o.acquired f.at_
        LoadKept o t f.at_ ((o.elems f x).flatMap (fun e => q.elemPieces e w false)) ∧
        ∃ v, PendingVec o t f.d (some v) f.at_.lat ∧
          (∀ e ∈ o.elems f x, lane w v e.i =
            fld (ofBytes ((q.elemPieces e w false).map (q.loadByte o.issue.strand))) (e.bit % 8) w) ∧
          ∀ j, j < 1024 / w → (∀ e ∈ o.elems f x, e.i ≠ j) → lane w v j = 0))

/-- R39, R97, R136, R254 to R257: a store enters the restart gate behind those it holds, with its bytes at the locations of
its address, a multicast window's once for each core of its mask; nothing is written to memory yet, but what a release or the
pop of a report brings to its home. -/
def Obligations.StoresAreHeld : Prop :=
  (∀ (f : LA) (s : State), s.ready (.st f) →
    Runs s (.st f) (fun o t => Calm o t ∧ (f.at_.ord ≠ 2 → MemoryKept o t []) ∧ HomesKept o t [] ∧
      let n := fmtBytes f.fmt
      let a := o.effective f.ab f.off
      ∃ x : Store, t.me.gate = o.me.gate ++ [x] ∧ x.core = coreOf o.issue.strand ∧
        x.cells = ((o.pieces a n true (useOf n)).map (·.loc)).zip (copies a (toBytes n (s.rs f.d))))) ∧
  (∀ (f : LA) (s : State), s.ready (.vst f) →
    Runs s (.vst f) (fun o t => Calm o t ∧ (f.at_.ord ≠ 2 → f.d < 440 → MemoryKept o t []) ∧ HomesKept o t [] ∧
      let a := o.effective f.ab f.off
      ∃ x : Store, t.me.gate = o.me.gate ++ [x] ∧ x.core = coreOf o.issue.strand ∧
        x.cells = ((o.pieces a 128 true .data).map (·.loc)).zip (copies a (toBytes 128 (o.readVec f.d).1)))) ∧
  (∀ (f : LG) (s : State), s.ready (.vscat f) →
    Runs s (.vscat f) (fun o t => Calm o t ∧ (f.at_.ord ≠ 2 → f.d < 440 → MemoryKept o t []) ∧ HomesKept o t [] ∧
      let n := fmtBytes f.fmt
      let is := List.range (min 32 (1024 / fmtWidth f.fmt))
      ∃ x : Store, t.me.gate = o.me.gate ++ [x] ∧ x.core = coreOf o.issue.strand ∧
        x.cells = (is.flatMap (fun i => (o.pieces (o.elementAddr f i) n true .data).map (·.loc))).zip
          (is.flatMap (fun i => copies (o.elementAddr f i)
            (toBytes n (fld (o.readVec f.d).1 (8 * n * i) (8 * n))))))) ∧
  (∀ (f : LT) (s : State), s.ready (.vstt f) →
    Runs s (.vstt f) (fun o t => Calm o t ∧ (f.at_.ord ≠ 2 → f.d < 440 → MemoryKept o t []) ∧ HomesKept o t [] ∧
      ∀ x, o.tensor f.tid = some x →
        let w := fmtWidth x.fmt
        ∃ y : Store, t.me.gate = o.me.gate ++ [y] ∧ y.core = coreOf o.issue.strand ∧
          y.cells = ((o.elems f x).map (fun e => (e, o.elemPieces e w true))).foldl
            (o.mergeElem w (o.readVec f.d).1) [] ∧
          (∀ c ∈ y.cells, ∃ e ∈ o.elems f x, ∃ p ∈ o.elemPieces e w true, p.loc = c.1)))

/-- R39, R67, R112, R116, R123: while a store is held its strand reads its bytes, the youngest store's first; when it performs,
and no stack or link makes it wait (R16, R420), its last byte for each location stands there and every other one is as it was,
but for the before-images and the Dirty sectors that it makes L1 replace; the sectors of a held shared region take theirs in
the core's L1, Dirty, while their homes stay, where the core has an L1. -/
def Obligations.StoresPerform : Prop :=
  (∀ (s : State) (x : Store) (at_ : Attr) (p : Piece), at_.ord ≠ 2 →
    (s.holdStore x at_).loadByte s.issue.strand p = lastOf x.cells p.loc (s.loadByte s.issue.strand p)) ∧
  (∀ (s : State) (x : Store) (l : Nat), l < 2 ^ 64 → ¬ s.inUndoArea l →
    x.held = [] ∨ (s.core x.core).hasL1 = false →
    s.coreQueued x.core = false → (∀ c ∈ x.cells, s.homeWaits (x.core / 64) c.1 = false) →
    (∀ sec ∈ x.cached ++ x.held, ∃ y ∈ (s.core x.core).lines, y.line = sec / 4) ∨ l / 64 ∉ (s.core x.core).l1Dirty →
    (s.perform x).byte l = lastOf x.cells l (s.byte l)) ∧
  (∀ (s : State) (x : Store), (s.core x.core).hasL1 = true → (∀ a ∈ x.held, ∀ b ∈ x.held, a / 4 = b / 4) →
    s.coreQueued x.core = false → (∀ c ∈ x.cells, c.1 / 64 ∉ x.held → s.homeWaits (x.core / 64) c.1 = false) →
    (∀ e ∈ (s.core x.core).l1, ∃ y ∈ (s.core x.core).lines, y.line = e.1 / 4) →
    (∀ l, l < 2 ^ 64 → ¬ s.inUndoArea l → l / 64 ∉ (s.core x.core).l1Dirty →
      (s.perform x).byte l = if l / 64 ∈ x.held then s.byte l else lastOf x.cells l (s.byte l)) ∧
    ∀ sec ∈ x.held, (∀ j, j < 64 → ¬ s.inUndoArea (64 * sec + j)) →
      sec ∈ ((s.perform x).core x.core).l1Dirty ∧
      ∃ v, Table.find ((s.perform x).core x.core).l1 sec = some v ∧
        ∀ j, j < 64 → sectorByte v j = lastOf x.cells (64 * sec + j)
          (sectorByte ((Table.find (s.core x.core).l1 sec).getD (s.homeSector sec)) j))

/-- R68, R252, R258: LDF takes a full word and leaves it empty, LDFK reads it and leaves it full, STE writes an empty word and
leaves it full, all at their issue or when the wait was met; FESET sets a tag, FEPROBE reads one; every other tag and byte
stays. -/
def Obligations.TaggedWords : Prop :=
  ∀ (f : LA) (s : State),
    (s.ready (.ldf f) → Runs s (.ldf f) (fun o t => let l := o.wordLoc f
      Quiet o t ∧ CoresKept o t ∧ MemoryKept o t [] ∧
      (s.me.met = none → Pending o t (.s f.d) (some (o.num l 8)) f.at_.lat ∧ t.tag l = false ∧
        ∀ m, m / 8 ≠ l / 8 → t.tag m = o.tag m) ∧
      ∀ v, s.me.met = some v → Pending o t (.s f.d) (some v) f.at_.lat ∧ Calm o t)) ∧
    (s.ready (.ldfk f) → Runs s (.ldfk f) (fun o t =>
      Pending o t (.s f.d) (some (s.me.met.getD (o.num (o.wordLoc f) 8))) f.at_.lat ∧ Calm o t ∧ MemoryKept o t [])) ∧
    (s.ready (.ste f) → Runs s (.ste f) (fun o t => let l := o.wordLoc f
      Quiet o t ∧ CoresKept o t ∧ MemoryKept o t (locsFrom l 8) ∧
      (s.me.met = none → t.num l 8 = s.rs f.d ∧ t.tag l = true ∧ ∀ m, m / 8 ≠ l / 8 → t.tag m = o.tag m) ∧
      (s.me.met ≠ none → Calm o t ∧ MemoryKept o t []))) ∧
    (s.ready (.feset f) → Runs s (.feset f) (fun o t => let l := o.wordLoc f
      MemoryKept o t [] ∧ Quiet o t ∧ CoresKept o t ∧
      t.tag l = decide (s.rs f.d % 2 = 1) ∧ ∀ m, m / 8 ≠ l / 8 → t.tag m = o.tag m)) ∧
    (s.ready (.feprobe f) → Runs s (.feprobe f) (fun o t =>
      Pending o t (.s f.d) (some (if o.tag (o.wordLoc f) then 1 else 0)) f.at_.lat ∧ Calm o t ∧ MemoryKept o t []))

namespace Sys2Proof.Machine

/-- The operations of R260 on a location of `n` bits. -/
def atomicTable {n : Nat} (op : Nat) (old x cmp : BitVec n) : BitVec n :=
  match op with
  | 0 => old + x
  | 1 => old &&& x
  | 2 => old ||| x
  | 3 => old ^^^ x
  | 4 => if x.slt old then x else old
  | 5 => if old.slt x then x else old
  | 6 => if x.ult old then x else old
  | 7 => if old.ult x then x else old
  | 8 => x
  | _ => if old = cmp then x else old

/-- What an atomic that has no hurdle does: `op` is its operation, `cmp` its compare value. -/
def AtomicDone (f : LX) (op cmp : Nat) (s o t : State) : Prop :=
  let n := fmtBytes f.fmt
  let q := (o.releasing f.at_).acquiring f.at_
  let w := q.walked (s.ra f.ab) n
  Calm o t ∧ ∀ p rest, q.pieces (s.ra f.ab) n true .atomic = p :: rest →
    let h := w.atomicHome o.myCore (p.loc / 64)
    let old := h.num p.loc n
    let new := atomicTable op (BitVec.ofNat (8 * n) old) (BitVec.ofNat (8 * n) (s.rs f.sb)) (BitVec.ofNat (8 * n) cmp)
    Pending o t (.s f.d) (some (if f.fmt ≤ 11 then ((BitVec.ofNat (8 * n) old).signExtend 64).toNat else old)) f.at_.lat ∧
    t.num p.loc n = new.toNat ∧ HomesKept o t (locsFrom p.loc n)

end Sys2Proof.Machine

/-- R260: ATOM and ATOMCAS read a location at its home, replace it by their operation's result, deliver the value before,
and change no other location. -/
def Obligations.Atomics : Prop :=
  ∀ (f : LX) (s : State),
    (s.ready (.atom f) → f.k ≤ 8 → Runs s (.atom f) (fun o t => AtomicDone f f.k 0 s o t)) ∧
    (s.ready (.atomcas f) → Runs s (.atomcas f) (fun o t => AtomicDone f 9 (s.rs f.k) s o t))

namespace Sys2Proof.Machine

/-- What a die sends has left by its station, or waits in that station's queue of its kind behind what the die sent before;
`f` is the fabric beside that (R326, R332, R423). -/
def State.Departs (o t : State) (f : Fabric) (die : Nat) (x : Sent) : Prop :=
  t.fab = if o.canDepart o.fab.egressQ die x = true then { f with sent := f.sent ++ [x] }
    else { f with egressQ := f.egressQ ++ [{ die := die, item := x, at_ := o.cyc.toNat }] }

end Sys2Proof.Machine

/-- R58, R261, R262, R326, R329 to R331, R423: SEMADD adds and saturates, SEMSET sets: a semaphore of its core at once, one of another
core of the device by an operation that takes effect on this cycle in R58's order, and one of another accelerator by a
message in the class of the access, which leaves by its path's station or waits in the station's queue, and is dropped and
counted where there is none to reach; SEMWAIT subtracts once the
lower strands of the core have had their turn, SEMRD reads. -/
def Obligations.Semaphores : Prop :=
  ∀ (f : LS) (s : State),
    let v := s.rs f.sn % 2 ^ 32
    let sems (o t : State) (c n : Nat) : Prop := ∀ d m, d ≠ c ∨ m ≠ n → t.sem d m = o.sem d m
    let only (o t : State) (c n : Nat) : Prop := Quiet o t ∧ HomesKept o t [] ∧ t.tokens = o.tokens ∧ t.full = o.full ∧
      (∀ d, (t.core d).rings = (o.core d).rings) ∧ sems o t c n
    let arrives (o t : State) (kind new : Nat) : Prop :=
      if f.far = 0 ∨ f.dev = s.devid then
        (f.core = s.myCore → only o t (f.core % 256) (f.sem % 64) ∧ t.semOps = o.semOps ∧
          t.sem (f.core % 256) (f.sem % 64) = new) ∧
        (f.core ≠ s.myCore → Calm o t ∧ HomesKept o t [] ∧ t.semOps = o.semOps ++
          [{ core := f.core % 256, sem := f.sem % 64, sets := decide (kind = 2), val := v }])
      else Calm o t ∧ HomesKept o t [] ∧
        (if bitAt (o.egress f.dev) 32 = false ∨ o.effectiveSet f.dev = [] then t.fab = (o.countStat 0 32 16).fab
         else o.pairWaits f.dev f.at_.cls = false → ∃ st, o.stationFor f.dev s.issue.strand f.at_.cls = some st ∧
          o.Departs t o.fab (senderDie s.issue.strand)
            (.message f.dev st { kind := kind, rk := 0, src := s.devid, core := f.core, sel := f.sem, tnum := 0, val := v,
                                 gid := 0, cause := 0, pitch := 0 }))
    (s.ready (.semadd f) → Runs s (.semadd f) (fun o t =>
      arrives o t 1 (min (o.sem (f.core % 256) (f.sem % 64) + v) (2 ^ 32 - 1)))) ∧
    (s.ready (.semset f) → Runs s (.semset f) (fun o t => arrives o t 2 v)) ∧
    (s.ready (.semwait f) → Runs s (.semwait f) (fun o t => only o t o.myCore f.sem ∧
      (s.me.met = none → t.sem o.myCore f.sem + v ≤ o.sem o.myCore f.sem ∧
        ((∀ j, j < ctxOf s.issue.strand → o.semNeed (4 * o.myCore + j) f.sem = none) →
          t.sem o.myCore f.sem + v = o.sem o.myCore f.sem)) ∧
      (s.me.met ≠ none → t.sem o.myCore f.sem = o.sem o.myCore f.sem))) ∧
    (s.ready (.semrd f) → Runs s (.semrd f) (fun o t => Calm o t ∧ HomesKept o t [] ∧
      Pending o t (.s f.sn) (some (o.sem o.myCore f.sem)) f.at_.lat))

namespace Sys2Proof.Machine

/-- The locations that the gates of a core's strands hold bytes for, and those of the sectors of held shared regions that L1
has when such a store makes them Dirty. -/
def State.gatedLocs (o : State) (c : Nat) : List Nat :=
  [0, 1, 2, 3].flatMap (fun i => (o.strand (4 * c + i)).gate.flatMap (fun x => x.cells.map (·.1) ++
    (x.held.filter (fun sec => (Table.find (o.core x.core).l1 sec).isSome)).flatMap (fun sec => locsFrom (64 * sec) 64)))

end Sys2Proof.Machine

/-- R116, R123, R127 to R129, R137, R231, R263 to R265: CNTWAIT, FENCE and TOKACQ acquire by dropping the core's L1 copies,
FENCE and TOKPASS release by bringing its Dirty sectors home and, at pod scope, the Dirty L2 sectors to their controllers; a
fence holds its classes while remote accesses, reloads or mx stores of theirs are open; a passed token leaves the core,
whose strands' stores to held regions perform, and travels. -/
def Obligations.OrderingOperations : Prop :=
  (∀ (f : LQ) (s : State), s.ready (.cntwait f) → Runs s (.cntwait f) (fun o t => Calm o t ∧ HomesKept o t [] ∧
    (f.at_.ord = 0 → MemoryKept o t []) ∧
    ((f.at_.ord = 1 ∨ f.at_.ord = 3) → o.wide o.issue.strand f.at_.sc f.at_.nm = true → (t.core o.myCore).l1 = []))) ∧
  (∀ (f : LF) (s : State), s.ready (.fence f) → Runs s (.fence f) (fun o t => Calm o t ∧ HomesKept o t [] ∧
    let wide := o.wide o.issue.strand f.at_.sc f.at_.nm
    let tags := o.openTags f.mask (f.at_.ord = 1 || (f.at_.ord = 2 && !wide)) ++ o.openReloads f.mask
    let mx := o.openStores f.mask
    (f.mask = 0 → MemoryKept o t [] ∧ t.me.fences = o.me.fences) ∧
    (f.mask ≠ 0 →
      (wide = true → f.at_.ord = 2 ∨ f.at_.ord = 3 → (t.core o.myCore).l1Dirty = []) ∧
      (wide = true → f.at_.ord = 1 ∨ f.at_.ord = 3 → (t.core o.myCore).l1 = []) ∧
      (f.at_.sc = 6 → f.at_.ord = 2 ∨ f.at_.ord = 3 → t.sys.below = []) ∧
      (tags = [] → mx = 0 → t.me.fences = o.me.fences) ∧
      (tags ≠ [] ∨ mx ≠ 0 → ∃ g : Fence, t.me.fences = o.me.fences ++ [g] ∧ g.mask = f.mask ∧ g.tags = tags ∧ g.mx = mx ∧
        g.storesOnly = decide (f.at_.ord = 2) ∧ g.acq = decide (f.at_.ord = 1 ∨ f.at_.ord = 3) ∧
        g.rel = decide (f.at_.ord = 2 ∨ f.at_.ord = 3) ∧ g.level = o.level o.issue.strand f.at_.sc f.at_.nm)))) ∧
  (∀ (f : LK) (s : State), s.ready (.tokacq f) → Runs s (.tokacq f) (fun o t => Calm o t ∧ HomesKept o t [] ∧
    (t.core o.myCore).l1 = [] ∧
    (s.me.met = none → Table.find t.tokens (1024 * dieOf o.issue.strand + f.tok) = some o.myCore))) ∧
  (∀ (f : LK) (s : State), s.ready (.tokpass f) → Runs s (.tokpass f) (fun o t =>
    let i := 1024 * dieOf o.issue.strand + f.tok
    (∀ a, a < 2 ^ 64 → a ∉ o.gatedLocs o.myCore → (∀ c, a / 64 ∉ (o.core c).l1Dirty) → ¬ o.inUndoArea a →
      t.byte a = o.byte a) ∧ RegsKept o t [] ∧ SpecialsKept o t ∧ LoopsKept o t ∧ FlagsWithin o t 0 ∧
    (∀ k, k ≠ o.issue.strand → ∀ d, (t.strand k).get d = (o.strand k).get d) ∧
    (f.core = o.myCore → Calm o t ∧ MemoryKept o t []) ∧
    (f.core ≠ o.myCore → (t.core o.myCore).l1Dirty = [] ∧ Table.find t.tokens i = none ∧
      t.transit = o.transit ++ [{ token := i, dest := f.core, source := o.myCore }] ∧
      ∀ j, j ≠ i → Table.find t.tokens j = Table.find o.tokens j)))

/-- R60, R252, R266: BUFACQ delivers the address of the ring's head buffer, lowers FREE and advances HEAD, at its issue or
when its wait was met; BUFREL raises FREE and advances TAIL; every other field and ring stays. -/
def Obligations.BufferRings : Prop :=
  ∀ (f : LK) (s : State),
    let rest (o t : State) : Prop := Quiet o t ∧ MemoryKept o t [] ∧ (∀ c, (t.core c).sems = (o.core c).sems) ∧
      t.tokens = o.tokens ∧ ∀ n, n ≠ f.ring → t.ring n = o.ring n
    (s.ready (.bufacq f) → Runs s (.bufacq f) (fun o t => let r := o.ring f.ring
      rest o t ∧
      (s.me.met = none → 0 < r.free ∧
        Pending o t (.a f.ad) (some (0x8000000000000000 + (r.base + r.head * r.size) * 256)) f.at_.lat ∧
        t.ring f.ring = { r with free := r.free - 1, head := (r.head + 1) % r.count % 64 }) ∧
      ∀ a, s.me.met = some a → Pending o t (.a f.ad) (some a) f.at_.lat ∧ t.ring f.ring = r)) ∧
    (s.ready (.bufrel f) → Runs s (.bufrel f) (fun o t => let r := o.ring f.ring
      rest o t ∧ r.free < r.count ∧
      t.ring f.ring = { r with free := r.free + 1, tail := (r.tail + 1) % r.count % 64 }))

/-- R111, R112, R117 to R119, R267, R268, R332: what cache and code control leave of the sectors of their range: DISCARD drops
every copy with its changes, WBACK brings Dirty ones home, INVAL drops the L1 copies and the tile-table entries of the cores
of its scope, those of other dies by a multicast, PREF fetches, and IINVAL starts the reloads of its strand's image, in rope
heads of other dies by a multicast. -/
def Obligations.CacheControl : Prop :=
  (∀ (f : LA) (s : State), s.ready (.discard f) → Runs s (.discard f) (fun o t =>
    let parts := o.rangeParts f
    Calm o t ∧ ∀ sec, if within parts sec = true then
        Table.find (t.core o.myCore).l1 sec = none ∧ Table.find t.sys.below sec = none ∧
        ((∀ j, j < 64 → ¬ o.inUndoArea (64 * sec + j)) →
          t.homeSector sec = (Table.find o.sys.below sec).getD (o.homeSector sec))
      else Table.find (t.core o.myCore).l1 sec = Table.find (o.core o.myCore).l1 sec ∧
        ((∀ j, j < 64 → ¬ o.inUndoArea (64 * sec + j)) → t.homeSector sec = o.homeSector sec))) ∧
  (∀ (f : LA) (s : State), s.ready (.wback f) → Runs s (.wback f) (fun o t =>
    let parts := o.rangeParts f
    let wide := o.wide o.issue.strand f.at_.sc f.at_.nm
    Calm o t ∧ HomesKept o t [] ∧ (wide = false → MemoryKept o t []) ∧
    ∀ sec v, sec < 2 ^ 58 → wide = true → overlaps parts sec = true → Table.find (o.core o.myCore).l1 sec = some v →
      sec ∉ (t.core o.myCore).l1Dirty ∧ (f.at_.sc = 6 → Table.find t.sys.below sec = none) ∧
      ((∀ j, j < 64 → ¬ o.inUndoArea (64 * sec + j)) →
        t.homeSector sec = if sec ∈ (o.core o.myCore).l1Dirty then v else o.homeSector sec))) ∧
  (∀ (f : LA) (s : State), s.ready (.inval f) → Runs s (.inval f) (fun o t =>
    let parts := o.rangeParts f
    let lo := (o.range f).1
    let len := (o.range f).2
    let k := o.issue.strand
    let cores := (List.range 256).filter (fun c => o.inScope k f.at_.sc f.at_.nm c)
    Calm o t ∧
    (∀ a, a < 2 ^ 64 → ¬ o.inUndoArea a → (∀ c, a / 64 ∉ (o.core c).l1Dirty) → t.byte a = o.byte a) ∧
    (∀ c ∈ cores, c / 64 = dieOf k → (∀ sec, overlaps parts sec = true → Table.find (t.core c).l1 sec = none) ∧
      ∀ e ∈ (t.core c).tileTable, e.1 + 8 ≤ lo ∨ lo + len ≤ e.1) ∧
    ((∃ c ∈ cores, c / 64 ≠ dieOf k) → ∃ m, t.fab.mcast = o.fab.mcast ++ [m] ∧ m.src = dieOf k ∧
      m.what = .caches o.serial k f.at_.cls parts lo len (cores.filter (fun c => c / 64 ≠ dieOf k))) ∧
    ((∀ c ∈ cores, c / 64 = dieOf k) → t.fab.mcast = o.fab.mcast))) ∧
  (∀ (f : LA) (s : State), s.ready (.pref f) → Runs s (.pref f) (fun o t =>
    Calm o t ∧ HomesKept o t [] ∧ ((o.core o.myCore).l1Dirty = [] → MemoryKept o t []) ∧
    (f.d = 0 → o.wide o.issue.strand f.at_.sc f.at_.nm = false → (o.core o.myCore).hasL1 = true →
      ∀ p ∈ o.pageParts o.issue.strand (o.range f).1 (o.range f).2, ∀ x, o.partSpan o.issue.strand p = .ok x →
        x.cached = true → ∀ sec ∈ sectorsOf (x.loc, x.len), sec ∉ o.sys.poison →
          (∀ j, j < 64 → ¬ o.inUndoArea (64 * sec + j)) →
          Table.find (t.core o.myCore).l1 sec =
            some ((Table.find (o.core o.myCore).l1 sec).getD (o.homeSector sec))))) ∧
  (∀ (f : LA) (s : State), s.ready (.iinval f) → Runs s (.iinval f) (fun o t =>
    let k := o.issue.strand
    let lo := (o.range f).1
    let len := (o.range f).2
    let ropes := o.iinvalRopes k f.at_.sc f.at_.nm
    Quiet o t ∧ CoresKept o t ∧ HomesKept o t [] ∧
    (∀ r, r ∉ ropes → t.rope r = o.rope r) ∧
    ∀ b, b < 2 →
      let img := Table.get s.me.img 0 b
      let mine (l : Reload) : Prop := l.num = o.serial ∧ l.strand = k ∧ l.cls = f.at_.cls ∧ l.bank = b ∧
        l.lo = max lo img - img ∧ l.len = min (lo + len) (img + 2 ^ 18) - max lo img ∧
        l.after = o.podFork { f.at_ with sc := 6 }
      max lo img < min (lo + len) (img + 2 ^ 18) →
      (∀ r ∈ ropes, r / 8 = dieOf k → ∃ l ∈ (t.rope r).reloads, mine l) ∧
      ((∃ r ∈ ropes, r / 8 ≠ dieOf k) → ∃ m ls, t.fab.mcast = o.fab.mcast ++ [m] ∧ m.src = dieOf k ∧
        m.what = .reloads o.serial k f.at_.cls (ropes.filter (fun r => r / 8 ≠ dieOf k)) ls ∧ ∃ l ∈ ls, mine l)))

namespace Sys2Proof.Machine

/-- A remote access of `n` bytes has taken an entry of the ticket table. Where no earlier access in another class has to be
answered before it (R124), its request has left on the issuing strand's path, to the ingress of the device's own die for its
own DEVID; or, with no station left to its accelerator, it has failed, and the firmware is to kill its context. Where one has,
and holds a ticket, it holds its place behind that one, as if with a ticket of its own, and has not been sent (R269, R270,
R327, R425, R426). That the second kind waits so is the model's choice (log entry 133). -/
def RemoteSent (o t : State) (i : Instr) (addr n data cmp cls : Nat) : Prop :=
  let owner := fld addr 50 10
  let k := o.issue.strand
  let shares (e : Ticket) : Prop := e.owner = owner ∧ (fabricParts e.addr).2 < (fabricParts addr).2 + n ∧
    (fabricParts addr).2 < (fabricParts e.addr).2 + e.bytes
  let before (e : Ticket) : Prop := e.strand = k ∧
    ((e.cls ≠ cls ∧ shares e) ∨ (e.cls = cls ∧ e.owner = owner ∧ e.behind.isSome = true))
  let entered (e : Ticket) : Prop := Table.find (t.core o.myCore).tickets o.serial = some e ∧ e.strand = k ∧ e.i = i ∧
    e.addr = addr ∧ e.data = data ∧ e.cmp = cmp ∧ e.cls = cls ∧ e.owner = owner ∧ e.ready = false
  ((∀ e ∈ (o.core o.myCore).tickets, ¬ before e.2) → o.reachable owner = true →
    ∃ e, entered e ∧ e.ticketed = false ∧ e.behind = none ∧
      let r := e.request o.devid o.serial
      let out : Fabric := { o.fab with out := o.fab.out ++ [⟨owner, cls, k, o.serial, o.cyc.toNat⟩] }
      r.src = o.devid ∧ r.who = k ∧ r.tag = o.serial ∧ r.cls = cls ∧
      (owner = o.devid → t.fab = { out with ingress := o.fab.ingress ++ [{ r with port := 24 + senderDie k }] }) ∧
      (owner ≠ o.devid → o.pairWaits owner cls = false →
        ∃ st, o.stationFor owner k cls = some st ∧ o.Departs t out (senderDie k) (.request owner st r))) ∧
  ((∀ e ∈ (o.core o.myCore).tickets, ¬ before e.2) → o.reachable owner = false →
    Table.find (t.core o.myCore).tickets o.serial = none ∧ t.fab = (o.countStat 0 0 16).fab ∧
    t.me.fw = o.me.fw.or (some (.kill 1 0x18 0 0 0x18 (remoteInfo 2 addr) 0))) ∧
  ((∃ e ∈ (o.core o.myCore).tickets, before e.2) →
    ∃ e, entered e ∧ e.ticketed = true ∧ t.fab = o.fab ∧
      ∃ g b, (g, b) ∈ (o.core o.myCore).tickets ∧ before b ∧ e.behind = some g)

end Sys2Proof.Machine

/-- R124, R269 to R273: RLD, RST and RATOM take an entry and send their request, and the loads' results wait for the reply;
TICKWAIT delivers the counts of entries in flight, ticketed and ready; REPLAY re-issues every ready entry. -/
def Obligations.RemoteAccesses : Prop :=
  (∀ (f : LA) (s : State), s.ready (.rld f) → Runs s (.rld f) (fun o t => Calm o t ∧ HomesKept o t [] ∧
    RemoteSent o t (.rld f) (o.effective f.ab f.off) (if f.fmt = 0 then 128 else fmtBytes f.fmt) 0 0 f.at_.cls ∧
    (if f.fmt = 0 then PendingVec o t f.d none f.at_.lat else Pending o t (.s f.d) none f.at_.lat))) ∧
  (∀ (f : LA) (s : State), s.ready (.rst f) → Runs s (.rst f) (fun o t => Calm o t ∧ HomesKept o t [] ∧
    RemoteSent o t (.rst f) (o.effective f.ab f.off) (if f.fmt = 0 then 128 else fmtBytes f.fmt)
      (if f.fmt = 0 then (o.readVec f.d).1 else s.rs f.d % 256 ^ fmtBytes f.fmt) 0 f.at_.cls)) ∧
  (∀ (f : LX) (s : State), s.ready (.ratom f) → Runs s (.ratom f) (fun o t => Calm o t ∧ HomesKept o t [] ∧
    RemoteSent o t (.ratom f) (s.ra f.ab) (fmtBytes f.fmt) (s.rs f.sb % 256 ^ fmtBytes f.fmt)
      (if f.k = 9 then s.rs (f.sb + 1) % 256 ^ fmtBytes f.fmt else 0) f.at_.cls ∧
    Pending o t (.s f.d) none f.at_.lat)) ∧
  (∀ (f : LQ) (s : State), s.ready (.tickwait f) → Runs s (.tickwait f) (fun o t => Calm o t ∧ HomesKept o t [] ∧
    let mine := ((o.core o.myCore).tickets.map (·.2)).filter (fun e => e.strand == o.issue.strand)
    let ready := mine.countP (fun e => e.ticketed && e.ready)
    Pending o t (.s f.s) (some (s.me.met.getD (mine.countP (fun e => !e.ticketed) * 2 ^ 32 +
      mine.countP (fun e => e.ticketed) * 2 ^ 16 + ready))) f.at_.lat ∧
    (0 < ready → (t.core o.myCore).l1 = []))) ∧
  (∀ (f : LQ) (s : State), s.ready (.replay f) → Runs s (.replay f) (fun o t => MemoryKept o t [] ∧ CoresKept o t ∧
      (((o.core o.myCore).tickets.map (·.1)).Nodup → Calm o t) ∧
      ∀ g e, Table.find (o.core o.myCore).tickets g = some e → e.strand = o.issue.strand → e.ticketed = true →
        e.ready = true → o.reachable e.owner = true →
        Table.find (t.core o.myCore).tickets g =
          some { e with ticketed := false, ready := false, replaying := true, told := none }))

/-- R133, R135, R274 to R276, R279, R280, R285, R294: SBIND binds a port to the stream of its descriptor, SDONE unbinds it;
the haul commands bring the core's Dirty sectors home and enter their engine's buffer behind every command that is due no
later, with the block that they name, and reserve the place of a report; HSTAT delivers the engine's counts. -/
def Obligations.StreamsAndHauls : Prop :=
  (∀ (f : LQ) (s : State), s.ready (.sbind f) → Runs s (.sbind f) (fun o t => Calm o t ∧ HomesKept o t [] ∧
    (f.at_.sc ≠ 6 → MemoryKept o t []) ∧
    let d := o.streamDesc (s.ra f.ab)
    (∃ p, Table.find t.me.ports f.q = some p ∧ p.write = decide (f.dir = 1) ∧ p.base = d.base ∧ p.eng = d.eng ∧
      p.counts = d.counts.take (d.ndm + 1) ∧ p.strides = d.strides.take (d.ndm + 1) ∧ p.moved = 0 ∧ p.used = 0 ∧
      p.buf = [] ∧ p.at_ = f.at_ ∧ p.fork = o.podFork f.at_) ∧
    ∀ q, q ≠ f.q → Table.find t.me.ports q = Table.find o.me.ports q)) ∧
  (∀ (f : LQ) (s : State), s.ready (.sdone f) → Runs s (.sdone f) (fun o t => Calm o t ∧ HomesKept o t [] ∧
    Table.find t.me.ports f.q = none ∧ ∀ q, q ≠ f.q → Table.find t.me.ports q = Table.find o.me.ports q)) ∧
  (∀ (f : LH) (s : State) (i : Instr) (kind : Nat), (i, kind) ∈
      [(Instr.haul f, 0), (Instr.haulg f, 1), (Instr.hgath f, 2), (Instr.hscat f, 3)] → s.ready i →
    Runs s i (fun o t => Calm o t ∧ HomesKept o t [] ∧ (t.core o.myCore).l1Dirty = [] ∧ (f.at_.sc = 6 → t.sys.below = []) ∧
      let e := 16 * dieOf o.issue.strand + f.eng
      let late := decide (s.rs f.s ≠ 0 ∧ s.rs f.s ≤ o.cyc.toNat)
      (s.me.resumed = false → ∃ h pre post, (o.engine e).buf = pre ++ post ∧ (t.engine e).buf = pre ++ h :: post ∧
        (t.engine e).run = (o.engine e).run ∧ (∀ g ∈ pre, g.t ≤ h.t) ∧ (∀ g, post.head? = some g → h.t < g.t) ∧
        h.strand = o.issue.strand ∧ h.kind = kind ∧ h.block = (o.releaseLevel o.myCore (if f.at_.sc = 6 then 2 else 1)).blockAt kind (s.ra f.ab) ∧ h.t = s.rs f.s ∧
        h.late = late ∧ h.at_ = f.at_ ∧ h.fork = o.podFork f.at_ ∧
        Table.get (t.engine e).late 0 o.mySlot =
          (if late then min (Table.get (o.engine e).late 0 o.mySlot + 1) 65535 else Table.get (o.engine e).late 0 o.mySlot) ∧
        (f.rv ≠ 1 → h.report = none) ∧
        (f.rv = 1 → ∃ id, h.report = some (440 + f.rpt, id) ∧
          t.places o.issue.strand (440 + f.rpt) true =
            o.places o.issue.strand (440 + f.rpt) true ++ [{ id := id, val := none }])))) ∧
  (∀ (f : LH) (s : State), s.ready (.hstat f) → Runs s (.hstat f) (fun o t => Calm o t ∧ MemoryKept o t [] ∧
    let e := o.engine (16 * dieOf o.issue.strand + f.eng)
    Pending o t (.s f.s) (some (Table.get e.late 0 o.mySlot * 2 ^ 40 + Table.get e.flt 0 o.mySlot * 2 ^ 32 +
      e.run.length * 2 ^ 24 + o.myShare * 2 ^ 9 + (e.buf ++ e.run).countP (fun h => h.slot == o.mySlot))) f.at_.lat))

/-- R295 to R299: PROTECT registers its region with the units and frames that its checks give; UNPROTECT ends a joining
region at once and marks a protected one as leaving in the tracked pitch; BELAY hands its group to the cairn engines;
BWAIT delivers the outcome, PITCHRD the pitch status. -/
def Obligations.PitchOperations : Prop :=
  (∀ (f : LH) (s : State), s.ready (.protect f) → Runs s (.protect f) (fun o t => Calm o t ∧ MemoryKept o t [] ∧
    t.me.registering = none ∧
    ∀ u frames q, o.protectCheck f = .ok u frames → o.queueOf o.issue.strand = some q →
      ∃ r : Region, t.cairn.regions = o.cairn.regions ++ [r] ∧ r.queue = q ∧ r.base = s.ra f.ab ∧ r.size = s.rs f.s ∧
        r.grp = s.rs f.s2 ∧ r.unit = u ∧ r.frames = frames ∧ r.pitch = (o.group (s.rs f.s2)).tracked ∧
        (r.st = .prot ↔ (o.group (s.rs f.s2)).adp = true) ∧ (r.st = .joining ↔ (o.group (s.rs f.s2)).adp = false))) ∧
  (∀ (f : LH) (s : State), s.ready (.unprotect f) → Runs s (.unprotect f) (fun o t => Calm o t ∧
    MemoryKept o t (o.cairn.undo.flatMap (fun u => locsFrom ((o.group u.grp).headerAt u.reg u.place) 8)) ∧
    t.me.registering = none ∧
    ∀ r, o.namedRegion f = some r → (r.st ≠ .joining → MemoryKept o t []) ∧
      (r.st = .joining → r ∉ t.cairn.regions ∧ (∀ u ∈ t.cairn.undo, u.line / 256 ∉ r.frames) ∧
        ∀ x ∈ o.cairn.regions, x ≠ r → x ∈ t.cairn.regions) ∧
      (r.st = .prot → { r with st := .leaving, pitch := (o.group r.grp).tracked } ∈ t.cairn.regions ∧
        ∀ x ∈ o.cairn.regions, x ≠ r → x ∈ t.cairn.regions) ∧
      (r.st = .leaving → t.cairn.regions = o.cairn.regions))) ∧
  (∀ (f : LH) (s : State), s.ready (.belay f) → Runs s (.belay f) (fun o t => Calm o t ∧ HomesKept o t [] ∧
    t.me.belay = o.heldGroup ∧ (t.core o.myCore).l1Dirty = [])) ∧
  (∀ (f : LH) (s : State), s.ready (.bwait f) → Runs s (.bwait f) (fun o t => Calm o t ∧ HomesKept o t [] ∧
    t.me.decided = none ∧
    ∃ out, out < 3 ∧ Pending o t (.s f.s) (some (out * 2 ^ 62 + o.pitchNo o.issue.strand % 2 ^ 48)) f.at_.lat ∧
      (∀ ok, s.me.decided = some ok → out = if ok then 0 else 1) ∧
      (s.me.decided = none → s.rs f.s2 = 0 → out = 2) ∧
      (s.me.decided = none → 0 < s.rs f.s2 → s.rs f.s2 ≤ o.pitchNo o.issue.strand → out = 0) ∧
      (s.me.decided = none → s.rs f.s2 = o.pitchNo o.issue.strand + 1 → out =
        if (o.groupOfStrand o.issue.strand).bind (fun g => (o.group g).lastAbort) = some (s.rs f.s2) then 1 else 2) ∧
      (s.me.decided = none → o.pitchNo o.issue.strand + 1 < s.rs f.s2 → out = 2) ∧
      (out = 0 → (t.core o.myCore).l1 = []))) ∧
  (∀ (f : LH) (s : State), s.ready (.pitchrd f) → Runs s (.pitchrd f) (fun o t => Calm o t ∧ MemoryKept o t [] ∧
    ∃ w, Pending o t (.s f.s) (some w) f.at_.lat ∧
      (o.groupOfStrand o.issue.strand = none → w = (if o.cairn.request then 2 ^ 61 else 0) + 1) ∧
      ∀ g, o.groupOfStrand o.issue.strand = some g → o.undoFill g < 2 ^ 7 →
        bitAt w 61 = o.cairn.request ∧ fld w 0 48 = (o.group g).tracked % 2 ^ 48 ∧ fld w 54 7 = o.undoFill g ∧
        ((o.group g).st ≠ 2 → fld w 62 2 = if (o.group g).commit.isSome then 1 else 0)))

/-! ## The mx slot -/

namespace Sys2Proof.Machine

/-- The path of an mx command (R228): the array, the tile port, the latch path, the stack path. -/
def mxPath (i : Instr) : Option Nat :=
  match i with
  | .mop _ | .mops _ | .mopr _ | .mrank1 _ => some 0
  | .mzero _ | .mloss _ | .mdrain _ | .mstat _ | .oread _ | .owrite _ | .omom _ | .oadam _ => some 1
  | .mlatch _ => some 2
  | .pusht _ | .popt _ | .tstk _ => some 3
  | _ => none

/-- The tiles that a command works on (R57, R241, R398). -/
def mxTiles (i : Instr) (o : State) : List Nat :=
  let tile (n : Nat) : List Nat := if o.tileInt n then [n / 2 * 2, n / 2 * 2 + 1] else [n]
  match i with
  | .mop f | .mops f | .mopr f => tile f.acc
  | .mrank1 f => tile f.acc
  | .mzero f => if f.opt = 1 ∨ o.tileInt f.acc = true then [f.acc / 2 * 2, f.acc / 2 * 2 + 1] else [f.acc]
  | .mloss f | .mstat f => tile f.acc
  | .oread f | .owrite f => tile f.acc
  | .omom f | .oadam f => tile f.acc
  | _ => []

/-- The scalar and vector operands that a command takes at issue (R240 to R246). -/
def mxOperands (i : Instr) (o : State) : List Nat × List Nat :=
  let x := o.issue.pre
  match i with
  | .mrank1 f =>
    ([], ((List.range (mrankRegs f.fmt)).map (fun j => o.rd (.v (f.vx + j)))) ++
      (List.range (mrankRegs f.fmt)).map (fun j => o.rd (.v (f.vy + j))))
  | .mloss f => ([o.rs f.s % 256], [])
  | .oread f => ([o.rs f.s], [])
  | .owrite f => ([o.rs f.s], [(o.readVec f.v).1])
  | .omom f => ([o.rs f.sh, 0, 0, if f.rm = 4 then o.rs f.sb % 2 ^ 48 else 0], [])
  | .oadam f => ([o.rs f.sh, o.rs (f.sh + 1), o.rs (f.sh + 2), if f.rm = 4 then o.rs f.sb % 2 ^ 48 else 0], [])
  | .pusht f => ([o.rs f.s, x.depth, x.sizes.length], [])
  | .popt f => (match x.topEntry with
    | some (z, d) => [min (o.rs f.s) z, z, d]
    | none => [], [])
  | .tstk _ => ([x.sizes.length, x.depth, 0, ((x.topEntry).map (·.1)).getD 0], [])
  | _ => ([], [])

/-- The memory operands that a command takes at issue, each as runs of an address and a length, with the direction that they
are translated for: MLATCH's mantissas and scales, block row by block row (R85, R232); the planes and scale words of an A
operand, and MOPS's metadata (R234, R236, R237); an optimiser's weights and moments (R244); the bytes that PUSHT and POPT move
(R246). -/
def mxRuns (i : Instr) (o : State) : List (List (Nat × Nat)) × Bool :=
  let planes (f : MM) (n rows : Nat) : List (List (Nat × Nat)) :=
    [[(o.ra f.aa, 16 * (f.wa + 1) * (n * (f.kb + 1)))], [(o.ra (f.aa + 1), 512 * f.kb + 4 * rows)]]
  match i with
  | .mlatch f =>
    ([(List.range (f.kb + 1)).map (fun b => (o.ra f.aa + 4 * (f.wb + 1) * (128 * b), 4 * (f.wb + 1) * (f.cols + 1))),
      (List.range (f.kb + 1)).map (fun b => (o.ra f.sc + 4 * (128 * b), 4 * (f.cols + 1)))], false)
  | .mop f => (planes f 32 (f.rows + 1), false)
  | .mops f => (planes f 16 (f.rows + 1) ++ [[(o.ra f.am, 512 * f.kb + 4 * (f.rows + 1))]], false)
  | .mopr f =>
    (if posOf o.issue.strand % 4 = 0 then planes f 32 (if posOf o.issue.strand < 4 then 128 else f.rows + 1) else [], false)
  | .omom f => ([[(o.ra f.aw, 16384 * (fmtWidth f.wfmt / 8))], [(o.ra f.am1, 16384 * 4)]], true)
  | .oadam f => ([[(o.ra f.aw, 16384 * (fmtWidth f.wfmt / 8))], [(o.ra f.am1, 16384 * 4)], [(o.ra f.am2, 16384 * 4)]], true)
  | .pusht f => ([[(o.ra f.aa, o.rs f.s)]], false)
  | .popt f => (match o.issue.pre.topEntry with
    | some (z, _) => [[(o.ra f.aa, min (o.rs f.s) z)]]
    | none => [], true)
  | _ => ([], false)

end Sys2Proof.Machine

/-- R57, R85, R228, R229, R232 to R237, R241 to R246, R398: an mx command that has no hurdle enters the end of its path's queue with its
operands, tiles and memory operands as its issue gives them; a command with a register result puts one in flight; MZERO records its tiles'
format; PUSHT and POPT move the depth; MDRAIN enters once no command of its strand works on its tile. No register, byte, flag,
tile, latch, semaphore, ring or other strand changes at issue, but for what the pop of a report, an acquire, writes home. -/
def Obligations.MxCommandsEnter : Prop :=
  (∀ (i : Instr) (s : State) (p : Nat), mxPath i = some p → s.ready i →
    Runs s i (fun o t =>
      Quiet o t ∧ CoresKept o t ∧ HomesKept o t [] ∧ t.full = o.full ∧
      ((∀ q ∈ i.pops, q < 440) → MemoryKept o t [] ∧ (∀ k, k ≠ o.issue.strand → t.strand k = o.strand k) ∧ t.slots = o.slots) ∧
      (t.core o.myCore).mxNum = (o.core o.myCore).mxNum + 1 ∧
      (∀ q, q ≠ p → (Table.get (t.core o.myCore).mxq [] q).map (·.num) = (Table.get (o.core o.myCore).mxq [] q).map (·.num)) ∧
      ∃ (l : List MxCmd) (m : MxCmd), Table.get (t.core o.myCore).mxq [] p = l ++ [m] ∧
        l.map (fun c => (c.strand, c.num, c.i)) =
          (Table.get (o.core o.myCore).mxq [] p).map (fun c => (c.strand, c.num, c.i)) ∧
        m.strand = o.issue.strand ∧ m.num = (o.core o.myCore).mxNum ∧ m.i = i ∧ m.tiles = mxTiles i o ∧
        m.ops = (mxOperands i o).1 ∧ m.vecs = (mxOperands i o).2 ∧ m.exposed = s.issue.x ∧
        m.mem = (mxRuns i o).1.map (fun l => l.flatMap (fun r => o.spans r.1 r.2 (mxRuns i o).2)) ∧
        m.lscale = (BitVec.ofNat 8 s.me.lscale).toInt ∧ m.seed = s.me.srseed.toNat ∧ m.orphan = false)) ∧
  (∀ (f : MZ) (s : State), s.ready (.mstat f) →
    Runs s (.mstat f) (fun o t => Pending o t (.s f.s) none f.lat)) ∧
  (∀ (f : MS) (s : State), s.ready (.tstk f) →
    Runs s (.tstk f) (fun o t => Pending o t (.s f.s) none f.lat)) ∧
  (∀ (f : MV) (s : State), s.ready (.oread f) →
    Runs s (.oread f) (fun o t => PendingVec o t f.v none f.lat)) ∧
  (∀ (f : MZ) (s : State), s.ready (.mzero f) →
    Runs s (.mzero f) (fun o t => ∀ n, Table.get (t.core o.myCore).tileFmt false n =
      if n ∈ mxTiles (.mzero f) o then f.opt == 1 else Table.get (o.core o.myCore).tileFmt false n)) ∧
  (∀ (f : MS) (s : State), s.ready (.pusht f) →
    Runs s (.pusht f) (fun o t => t.me.sizes = o.me.sizes ++ [s.rs f.s] ∧
      t.me.depth = o.me.depth + (s.rs f.s + 255) / 256 * 256 + 256)) ∧
  (∀ (f : MS) (s : State), s.ready (.popt f) →
    Runs s (.popt f) (fun o t =>
      (f.opt = 1 → t.me.sizes = o.me.sizes ∧ t.me.depth = o.me.depth) ∧
      (f.opt ≠ 1 → t.me.sizes = o.me.sizes.dropLast ∧
        ∀ z, o.me.sizes.getLast? = some z → t.me.depth = o.me.depth - ((z + 255) / 256 * 256 + 256)))) ∧
  (∀ (f : MM) (s : State), s.ready (.mopr f) →
    Runs s (.mopr f) (fun o t =>
      let r := ropeOf o.issue.strand
      let c := ctxOf o.issue.strand
      (∀ j, j < 8 → (o.strand (strandAt r c j)).onStream = true) →
        Table.get (t.rope r).mopr [] c = Table.get (o.rope r).mopr [] c ++ [posOf o.issue.strand])) ∧
  (∀ (f : MZ) (s : State), s.ready (.mdrain f) → Runs s (.mdrain f) (fun o t => OnlyResult o t [] 0 ∧
    ∀ m ∈ (o.core o.myCore).mxAll, m.strand = o.issue.strand → f.acc ∉ m.tiles))

/-! ## The steps of the device and of its surroundings -/

namespace Sys2Proof.Machine

/-- The step answers a next state with a property. -/
def Leads (s : State) (i : Instr) (p : State → Prop) : Prop := ∃ t, exec i s = .next t ∧ p t

/-- A counter that saturates at its width has gone up by one in a field. -/
def Counted (old new lo n : Nat) : Prop := fld new lo n = min (fld old lo n + 1) (2 ^ n - 1)

end Sys2Proof.Machine

/-- The steps of rope heads, fetch ports and results: R23, R24, R28, R31, R32 (reads, outcomes, joins), R34, R37 (landing,
lateness), R371 (trap entry), R42, R64, R348, R376, R414, R417, R422 (rollback and soft errors). -/
def Obligations.StrandSteps : Prop :=
  (∀ (s : State) r c, s.streamReads r c = true → Leads s (.streamRead r c) (fun t => let x := s.stream r c
    let silent : Prop := ∀ k, t.strand k = s.strand k
    (x.lits = 0 → s.streamFull r c = true → t.stream r c = { x with st := .stalled } ∧ silent) ∧
    (x.lits = 0 → s.streamFull r c = false → s.escapes r x.bank x.pc = true →
      (t.stream r c).lits = 24 ∧ (t.stream r c).pc = x.pc ∧ (t.stream r c).readAt = s.cycle + 1 ∧ silent) ∧
    (x.lits = 0 → s.streamFull r c = false → s.escapes r x.bank x.pc = false →
      ∀ p ∈ s.positions r c Strand.onStream, (t.strand (strandAt r c p)).queue =
        (s.strand (strandAt r c p)).queue ++ [s.fetch r x.bank x.pc (s.cycle + 3)]) ∧
    (2 ≤ x.lits → (t.stream r c).lits = x.lits - 1 ∧ silent) ∧
    (x.lits = 1 → ∀ p ∈ s.positions r c Strand.onStream, ∃ f : Fetched, (t.strand (strandAt r c p)).queue =
        (s.strand (strandAt r c p)).queue ++ [f] ∧ f.pc = x.pc ∧ f.bank = x.bank ∧ f.succ = x.pc + 50 ∧ f.at_ = s.cycle + 3 ∧
        (x.bad = none → Table.find (s.rope r).bad (copyAt x.bank (wordOff (x.pc + 48))) = none →
          f.what = .bits (x.bits + s.copyNum r x.bank (wordOff (x.pc + 48)) 2 * 2 ^ 368))))) ∧
  (∀ (s : State) k, s.portNext (ropeOf k) = some k → Leads s (.privateFetchRead k) (fun t =>
    let x := (s.strand k).portPlace
    (t.rope (ropeOf k)).granted = k ∧ (t.rope (ropeOf k)).portAt = s.cycle + 1 ∧ (t.strand k).readAt = s.cycle + 2 ∧
    (x.lits = 0 → s.escapes (ropeOf k) x.bank x.pc = true → (t.strand k).queue = (s.strand k).queue ∧
      ∃ u, (t.strand k).port = some u ∧ u.lits = 24) ∧
    (x.lits = 0 → s.escapes (ropeOf k) x.bank x.pc = false → (t.strand k).queue =
      (s.strand k).queue ++ [s.fetch (ropeOf k) x.bank x.pc (s.cycle + 2)]) ∧
    (2 ≤ x.lits → (t.strand k).queue = (s.strand k).queue ∧ ∃ u, (t.strand k).port = some u ∧ u.lits = x.lits - 1))) ∧
  (∀ (s : State) r c p next, s.leadReady r c = some (p, .branch true next) → Leads s (.leadOutcome r c) (fun t =>
    (t.stream r c).pc = next ∧ (t.stream r c).bank = (s.stream r c).bank)) ∧
  (∀ (s : State) r c j, (s.stream r c).join = some j → s.joinReady r c j = true → Leads s (.joinComplete r c) (fun t =>
    (t.stream r c).join = none ∧ ∀ p ∈ j.arrived, (s.strand (strandAt r c p)).st = .joining →
      (t.strand (strandAt r c p)).st = .attached ∧ (t.strand (strandAt r c p)).bank = j.bank)) ∧
  (∀ (s : State) k i e v, (s.strand k).inflight[i]? = some e → e.value = some v → e.canLand s.cycle = true →
    e.dead = false → e.dest.fixed = false → (∀ p n, e.dest ≠ .push p n) →
    (s.strand k).buffers e = false → Leads s (.resultLand k i) (fun t =>
      (t.strand k).get e.dest = v % 2 ^ destWidth e.dest ∧ t.mem = s.mem ∧
      (∀ d, d ≠ e.dest → (t.strand k).get d = (s.strand k).get d) ∧ ∀ j, j ≠ k → t.strand j = s.strand j)) ∧
  (∀ (s : State) k i e, (s.strand k).inflight[i]? = some e → e.exposed = true → e.source ≠ .fixed → e.landed = false →
    e.ticketed = false → Leads s (.poisonAtBound k i) (fun t =>
      (t.strand k).inflight[i]? = some { e with lands := none, late := e.late || decide (e.due ≤ s.cycle) } ∧
      t.mem = s.mem ∧ ∀ d, (t.strand k).get d = (s.strand k).get d)) ∧
  (∀ (s : State) k r, (s.strand k).trapping = some r → s.drained k = true → Leads s (.trapEntry k) (fun t =>
    let v := if r.toRvec then (s.strand k).rvec else (s.strand k).tvec
    let y := t.strand k
    y.trapping = none ∧ y.tba = r.tba ∧ y.tfm = r.tfm ∧ y.tcause = r.tcause ∧ y.tinfo = r.tinfo ∧ y.st = .detached ∧
    y.handler = (if r.toRvec then .replay else .sup) ∧ y.pc = v % 2 ^ 16 ∧ y.bank = v / 2 ^ 16 % 2 ∧ y.gate = [] ∧
    y.loops = (s.strand k).loops ∧ y.flags = (s.strand k).flags)) ∧
  (∀ (s : State) k kind loc, kind ≤ 5 → (2 ≤ kind ∨ (kind, loc) ∈ (s.strand k).softErrs) → (s.strand k).active = true →
    Leads s (.rollback k kind loc) (fun t => ∃ slot, slot ≤ 6 ∧
      t = s.takeTrap k ((s.strand k).bank * 2 ^ 16 + (s.strand k).pc)
        [{ slot := slot, cause := .softError, info := kind * 2 ^ 56 + loc % 2 ^ 56 }] ∧
      ((∀ f w i n b, (s.strand k).queue.head? = some f → f.what = .bits w → bundleSlots w = [(n, b, .ok i)] →
        slot = if readsAt kind loc i then n else 6) ∧ ((s.strand k).queue = [] → slot = 6)))) ∧
  (∀ (s : State) k kind loc, kind < 2 → (s.strand k).active = true → (kind, loc) ∉ (s.strand k).softErrs →
    (s.strand k).doomed = false →
    Leads s (.rollback k kind loc) (fun t => t.cairn.recoverable = s.cairn.recoverable + 1 ∧
      (t.errUnit (24 + dieOf k)).rep = min ((s.errUnit (24 + dieOf k)).rep + 1) 255 ∧
      ((t.strand k).rolling = true ∨ ((t.strand k).shadows = [] ∧ (t.strand k).gate = [] ∧
        (t.strand k).st = (if (s.strand k).pri.isSome then .waiting else .detached) ∧
        (t.strand k).pc = (s.strand k).restartPc)))) ∧
  (∀ (s : State) k c sec, coreOf k = c → Leads s (.rollback k 7 sec) (fun t =>
    ((s.core c).l1Dirty.contains sec = true → sec ∈ t.sys.poison ∧ Table.find (t.core c).l1 sec = none ∧
      (t.errUnit (24 + c / 64)).ue = min ((s.errUnit (24 + c / 64)).ue + 1) (2 ^ 16 - 1)) ∧
    ((s.core c).l1Dirty.contains sec = false → t.mem = s.mem ∧ t.sys.poison = s.sys.poison ∧
      Table.find (t.core c).l1 sec = none ∧
      ((Table.find (s.core c).l1 sec).isSome = true →
        (t.errUnit (24 + c / 64)).ce = min ((s.errUnit (24 + c / 64)).ce + 1) (2 ^ 24 - 1) ∧
        t.cairn.recoverable = s.cairn.recoverable + 1)))) ∧
  (∀ (s : State) k loc, (s.strand k).doomed = false → Leads s (.rollback k 11 loc) (fun t => t.mem = s.mem ∧
    (t.strand k).fw = some (.kill 1 0x19 0 0 0x19 0 0))) ∧
  (∀ (s : State) k sec, Table.find s.sys.below sec = none → Leads s (.rollback k 12 sec) (fun t => sec ∈ t.sys.poison ∧
    t.mem = s.mem)) ∧
  (∀ (s : State) k sec, Leads s (.rollback k 16 sec) (fun t => t.mem = s.mem ∧ t.sys.poison = s.sys.poison ∧
    t.cairn.recoverable = s.cairn.recoverable + 1))

namespace Sys2Proof.Machine

/-! ## What a landing mx command leaves -/

/-- A tile of a core. -/
def State.tileOf (s : State) (c n : Nat) : Tile := Table.get (s.core c).tiles {} n

/-- An element as an operation at a loss-scale tag finds it: rescaled first where the tile's tag is another (R95). -/
def Tile.elemAt (t : Tile) (tag : Int) (n : Nat) : Nat :=
  if t.tag = tag then t.at_ n else (rescale (t.at_ n) (tag - t.tag)).1 % 2 ^ 32

/-- A float tile takes a tag, and its active elements a step on what they were; the others only follow the tag (R90, R95). -/
def FloatTile (t u : Tile) (tag : Int) (rows cols : Nat) (step : Nat → Nat → Nat → Nat) : Prop :=
  u.tag = tag ∧ u.int = t.int ∧ u.poison = false ∧ ∀ i j, i < 128 → j < 128 →
    u.at_ (128 * i + j) = if i < rows ∧ j < cols then step i j (t.elemAt tag (128 * i + j)) % 2 ^ 32
      else t.elemAt tag (128 * i + j)

/-- What an array operation leaves of its tile, or of its integer pair (R89, R91, R234): each active element takes the blocks'
sums in increasing block order. -/
def ArrayLanded (s t : State) (c : Nat) (m : MxCmd) (f : MM) (rows cols : Nat) : Prop :=
  s.mxPoison m = none → cols ≤ 128 →
  (∀ a, m.int = false → m.tiles = [a] → FloatTile (s.tileOf c a) (t.tileOf c a) m.lscale rows cols (fun i j x =>
    (List.range (f.kb + 1)).foldl (fun x b => (accumulate x (s.blockAdd m f i j b)).1) x)) ∧
  (∀ e o, m.int = true → m.tiles = [e, o] → e ≠ o → ∀ i j, i < 128 → j < 128 →
    let n := 128 * i + j
    let x := pairAt (s.tileOf c e) (s.tileOf c o) n
    pairAt (t.tileOf c e) (t.tileOf c o) n = if i < rows ∧ j < cols then
      (List.range (f.kb + 1)).foldl (fun x b => (accumulateInt x (s.blockSum m f i j b)).1) x % 2 ^ 48 else x)

/-- The register result of a landing command reaches the destination that waits for it (R230). -/
def RegLanded (s t : State) (m : MxCmd) (v : Nat) : Prop :=
  let x := s.strand m.strand
  ∀ i e, m.orphan = false → findMx x.inflight m.num 0 = some i → x.inflight[i]? = some e → e.dead = false →
    e.dest.fixed = false → (∀ p n, e.dest ≠ .push p n) → x.buffers e = false →
    (t.strand m.strand).get e.dest = v % 2 ^ destWidth e.dest

/-- A location's byte after an optimiser command whose operand runs are `p` and so on: the little-endian bytes of its element's
new value. -/
def RunHolds (t : State) (p : Span) (b : Nat) (v : Nat → Nat) : Prop :=
  ∀ n, n < 16384 → ∀ j, j < b → t.byte (p.loc + b * n + j) = BitVec.ofNat 8 (v n / 256 ^ j)

/-- Nothing but the command's own stores changes memory as it lands, and they perform at once. -/
def State.storesLand (s : State) (c k : Nat) : Prop :=
  (s.strand k).fences = [] ∧ s.coreQueued c = false ∧ s.cairn.regions = []

/-- What the landing of a command on core `c` leaves in tiles, latches, memory, the activation stack and its register (R232,
R234, R236, R237, R239 to R246, R421). -/
def Landed (s t : State) (c : Nat) (m : MxCmd) : Prop :=
  let k := m.strand
  let x := s.strand k
  let y := t.strand k
  let run (i : Nat) : List Span := (m.mem[i]?).getD []
  let op (i : Nat) : Nat := (m.ops[i]?).getD 0
  let tile (n : Nat) : Tile := s.tileOf c n
  let tile' (n : Nat) : Tile := t.tileOf c n
  let lo (i : Nat) : Fv := f32.value (op i % 2 ^ 32)
  let hi (i : Nat) : Fv := f32.value (op i / 2 ^ 32)
  let segment (n : Nat) : Prop := 128 * (op 0 % 128) + op 0 / 128 % 128 ≤ n
  let grad (a n : Nat) : Fv := (f32.value ((tile a).at_ n)).scale (-(tile a).tag)
  match m.i with
  | .mlatch f =>
    let w := f.wb + 1
    let old := Table.get (s.core c).latches {} f.w
    let new := Table.get (t.core c).latches {} f.w
    (∀ n, n ≠ f.w → Table.get (t.core c).latches {} n = Table.get (s.core c).latches {} n) ∧
    (s.mxPoison m = none → f.kb < 8 → new.fmt = f.wb ∧
      ∀ j b i, b < 8 → i < 32 →
        (j ≤ f.cols ∧ b ≤ f.kb →
          Table.get new.mant 0 (256 * j + 32 * b + i) = BitVec.ofInt 16
            (sgn w (fld (s.spanNum k (run 0) (4 * w * (b * (f.cols + 1) + j)) (4 * w)) (w * i) w)) ∧
          Table.get new.scale 0 (8 * j + b) = BitVec.ofNat 24 (s.spanNum k (run 1) (4 * (b * (f.cols + 1) + j)) 3)) ∧
        (f.cols < j ∨ f.kb < b →
          Table.get new.mant 0 (256 * j + 32 * b + i) = Table.get old.mant 0 (256 * j + 32 * b + i) ∧
          Table.get new.scale 0 (8 * j + b) = Table.get old.scale 0 (8 * j + b)))
  | .mop f => ArrayLanded s t c m f (f.rows + 1) (f.cols + 1)
  | .mops f => ArrayLanded s t c m f (f.rows + 1) (f.cols + 1)
  | .mopr f =>
    (m.abandoned = true → ∀ n ∈ m.tiles, tile' n = { tile n with abn := true, poison := false }) ∧
    (m.abandoned = false → ArrayLanded s t c m f (if posOf k < 4 then 128 else f.rows + 1)
      (if posOf k % 4 < 3 then 128 else f.cols + 1))
  | .mrank1 f => f.cols < 128 → ∀ a, m.tiles = [a] →
    let n := mrankRegs f.fmt
    FloatTile (tile a) (tile' a) m.lscale (f.rows + 1) (f.cols + 1) (fun i j v =>
      (rankCell (vecElem f.fmt (m.vecs.take n) i) (vecElem f.fmt (m.vecs.drop n) j) v).1)
  | .mzero f =>
    (f.opt = 1 → ∀ n ∈ m.tiles, tile' n = { int := true }) ∧
    (f.opt ≠ 1 → f.acc ∈ m.tiles → tile' f.acc = { tag := m.lscale })
  | .mloss _ => ∀ a, m.tiles = [a] →
    let tag := sgn 8 (m.ops.headD 0)
    (tile' a).tag = tag ∧ ∀ n, (tile' a).at_ n = (rescale ((tile a).at_ n) (tag - (tile a).tag)).1 % 2 ^ 32
  | .mstat f =>
    let z := tile f.acc
    let count (p : Fv → Bool) : Nat := (List.range 16384).countP (fun n => p (f32.value (z.at_ n)))
    (z.elems.map (·.1)).Nodup → (∀ e ∈ z.elems, e.1 < 16384) →
    RegLanded s t m ((if z.int = true then 2 + f.acc % 2
      else count Fv.isNan * 2 ^ 32 + count (fun v => match v with
        | .inf _ => true
        | _ => false) * 2 ^ 17 + wrap 8 z.tag * 2 ^ 9) + if z.abn = true then 4 else 0)
  | .oread f => ∃ v, RegLanded s t m v ∧
    ∀ i, i < min 128 (1024 / fmtWidth f.fmt) →
      let n := 128 * (op 0 % 128) + op 0 / 128 % 128 + i
      (∀ a, m.int = false → m.tiles = [a] →
        lane (fmtWidth f.fmt) v i = (convert f.fmt 0 0 (grad a n)).1 % 2 ^ fmtWidth f.fmt) ∧
      (∀ e o, m.int = true → m.tiles = [e, o] →
        lane (fmtWidth f.fmt) v i =
          (convert f.fmt 0 0 (.ofInt (sgn 48 (pairAt (tile e) (tile o) n)))).1 % 2 ^ fmtWidth f.fmt)
  | .owrite f =>
    let w := fmtWidth f.fmt
    let n0 := 128 * (op 0 % 128) + op 0 / 128 % 128
    let v (n : Nat) : Nat := lane w (m.vecs.headD 0) (n - n0)
    ∀ n, let written : Prop := segment n ∧ n < n0 + min 128 (1024 / w)
      (∀ a, m.int = false → m.tiles = [a] → (tile' a).tag = (tile a).tag ∧
        (written → (tile' a).at_ n = (f32.deliver 0 0 ((valueOf f.fmt (v n)).scale (tile a).tag)).1 % 2 ^ 32) ∧
        (¬ written → (tile' a).at_ n = (tile a).at_ n)) ∧
      (∀ e o, m.int = true → m.tiles = [e, o] → e ≠ o →
        (written → pairAt (tile' e) (tile' o) n = (laneInt f.fmt (v n) % 2 ^ 48).toNat) ∧
        (¬ written → pairAt (tile' e) (tile' o) n = pairAt (tile e) (tile o) n))
  | .omom f => ∀ a p q, m.tiles = [a] → m.mem = [[p], [q]] →
    let b := fmtWidth f.wfmt / 8
    b ≤ 4 →
    (tile' a).tag = (tile a).tag ∧ (∀ n, (tile' a).at_ n = 0) ∧
    (s.storesLand c k → s.mxPoison m = none → (∀ r ∈ [p, q], r.cached = false ∧ r.held = false) →
      (p.loc + b * 16384 ≤ q.loc ∨ q.loc + 65536 ≤ p.loc) → p.len = b * 16384 → q.len = 65536 →
      (∀ o, o < 65536 → s.homeWaits (c / 64) (p.loc + o) = false ∧ s.homeWaits (c / 64) (q.loc + o) = false) →
      let cell (n : Nat) : OptCell := momCell f.wfmt f.rm
        (if f.rm = 4 then draw m.seed ((op 3 + n) % 2 ^ 48) f.n else 0) (lo 0) (hi 0) (grad a n)
        (valueOf f.wfmt (s.spanNum k [p] (b * n) b)) (f32.value (s.spanNum k [q] (4 * n) 4))
      RunHolds t p b (fun n => (cell n).w) ∧ RunHolds t q 4 (fun n => (cell n).m) ∧
      ∀ l, (l < p.loc ∨ p.loc + b * 16384 ≤ l) → (l < q.loc ∨ q.loc + 65536 ≤ l) → t.byte l = s.byte l)
  | .oadam f => ∀ a p q r, m.tiles = [a] → m.mem = [[p], [q], [r]] →
    let b := fmtWidth f.wfmt / 8
    b ≤ 4 →
    (tile' a).tag = (tile a).tag ∧ (∀ n, (tile' a).at_ n = 0) ∧
    (s.storesLand c k → s.mxPoison m = none → (∀ z ∈ [p, q, r], z.cached = false ∧ z.held = false) →
      (p.loc + b * 16384 ≤ q.loc ∨ q.loc + 65536 ≤ p.loc) → (p.loc + b * 16384 ≤ r.loc ∨ r.loc + 65536 ≤ p.loc) →
      (q.loc + 65536 ≤ r.loc ∨ r.loc + 65536 ≤ q.loc) → p.len = b * 16384 → q.len = 65536 → r.len = 65536 →
      (∀ o, o < 65536 → ∀ z ∈ [p, q, r], s.homeWaits (c / 64) (z.loc + o) = false) →
      let cell (n : Nat) : OptCell := adamCell f.wfmt f.rm
        (if f.rm = 4 then draw m.seed ((op 3 + n) % 2 ^ 48) f.n else 0)
        { eta := lo 0, b1 := hi 0, b2 := lo 1, eps := hi 1, c1 := lo 2, c2 := hi 2 } (grad a n)
        (valueOf f.wfmt (s.spanNum k [p] (b * n) b)) (f32.value (s.spanNum k [q] (4 * n) 4))
        (f32.value (s.spanNum k [r] (4 * n) 4))
      RunHolds t p b (fun n => (cell n).w) ∧ RunHolds t q 4 (fun n => (cell n).m) ∧ RunHolds t r 4 (fun n => (cell n).v))
  | .pusht _ =>
    let z := op 0
    let pad := (z + 255) / 256 * 256
    let at_ (o : Nat) : Nat := spmLoc c (x.stkbase + (op 1 + o) % x.window)
    y.stack = x.stack ++ [{ z := z }] ∧ y.resident = x.resident + (pad + 256) ∧
    (s.storesLand c k → s.mxPoison m = none → pad + 256 ≤ x.window → (∀ o, s.homeWaits (c / 64) (at_ o) = false) →
      (∀ o, o < z → t.byte (at_ o) = s.homeByte k { loc := spanLoc (run 0) o }) ∧
      (∀ o, o < 256 → t.byte (at_ (pad + o)) = BitVec.ofNat 8 ((z + op 2 * 2 ^ 64) / 256 ^ o)) ∧
      ∀ l, (∀ o, o < pad + 256 → l ≠ at_ o) → t.byte l = s.byte l)
  | .popt f => ∀ e, x.stack.getLast? = some e →
    let at_ (o : Nat) : Nat := spmLoc c (x.stkbase + (op 2 + o) % x.window)
    (e.bad = true → y.stack = x.stack ∧ y.resident = x.resident ∧
      (f.opt ≠ 1 → y.depth = x.depth + ((e.z + 255) / 256 * 256 + 256)) ∧
      (m.orphan = false → y.mxBad = x.mxBad.or (some (6 * 2 ^ 56 + (x.stkspill + op 2) % 2 ^ 56))) ∧
      (x.fences = [] → t.mem = s.mem)) ∧
    (e.bad = false →
      (f.opt = 1 → y.stack = x.stack ∧ y.resident = x.resident) ∧
      (f.opt ≠ 1 → y.stack = x.stack.dropLast ∧
        (e.spilled = false → y.resident = x.resident - ((e.z + 255) / 256 * 256 + 256))) ∧
      ∀ p, m.mem = [[p]] → op 0 ≤ p.len → p.cached = false → p.held = false → 0 < x.window → s.storesLand c k →
        (∀ o, o < op 0 → s.homeWaits (c / 64) (p.loc + o) = false) →
        (∀ o, o < op 0 → t.byte (p.loc + o) = s.byte (at_ o)) ∧
        ∀ l, (l < p.loc ∨ p.loc + op 0 ≤ l) → t.byte l = s.byte l)
  | .tstk f => RegLanded s t m (if f.opt = 2 ∨ f.opt = 4 then x.resident else op f.opt)
  | _ => True

/-- The commands that store nothing (R231). -/
def storesNothing (i : Instr) : Bool :=
  match i with
  | .omom _ | .oadam _ | .pusht _ | .popt _ => false
  | _ => true

/-! ## What a haul command moves -/

/-- The plan of a haul command of each kind (R284, R291 to R293), where its block and indices are in order. -/
def Planned (s : State) (h : Haul) (l : List Move) : Prop :=
  let b := h.block
  let us := uopsOf b
  let src (o : Int) : Nat := wrap 64 ((srcOf b : Int) + o)
  let dst (o : Int) : Nat := wrap 64 ((dstOf b : Int) + o)
  let ib := blockNum b 28 4 * (fmtWidth (efmtOf b) / 8)
  match h.kind with
  | 0 => l.length = blockNum b 28 4 ∧ ∀ r, r < blockNum b 28 4 →
      l[r]? = some { src := some (src (r * sgn 32 (blockNum b 32 4))), dst := dst (r * sgn 32 (blockNum b 36 4)),
                     len := blockNum b 24 4 }
  | 1 => programOk b = true → l.length = (levelsOf us).foldl (fun p v => p * levelCount us v) 1 ∧
      ∀ p, p < l.length → ∃ ds : List Nat, ds.length = (levelsOf us).length ∧
        (∀ v d, ds[v]? = some d → d < levelCount us v) ∧
        p = (List.range ds.length).foldl (fun n v => n * levelCount us v + (ds[v]?).getD 0) 0 ∧
        let off : Int := if dsqOf b = true then (p * (fmtWidth (efmtOf b) / 8) : Nat) else loopSum us ds 6 32 none
        let pad : Prop := ∃ u ∈ uopsWith us 3, coordAt us ds u < 0 ∨ (fld u 32 24 : Int) ≤ coordAt us ds u
        (pad → l[p]? = some ({
          src := none, dst := dst off, len := fmtWidth (efmtOf b) / 8
          data := toBytes (fmtWidth (efmtOf b) / 8) (blockNum b 24 8) } : Move)) ∧
        (¬ pad → l[p]? = some ({
          src := some (src (((uopsWith us 3).map (coordOffset us ds)).sum + loopSum us ds 5 32 none))
          dst := dst off, len := fmtWidth (efmtOf b) / 8 } : Move))
  | 2 => ∀ idx, s.haulIndices h = .ok idx → l.length = idx.length ∧ ∀ j d, idx[j]? = some d →
      l[j]? = some ({ src := some (src (d * ib : Nat)), dst := dst (j * ib : Nat), len := ib } : Move)
  | _ => ∀ idx, s.haulIndices h = .ok idx → l.length = idx.dedup.length ∧ ∀ d ∈ idx, ∃ v ∈ l,
      v.dst = dst (d * ib : Nat) ∧ v.len = ib ∧
      (cmbOf b = false ∨ idx.count d = 1 → ∃ j, idx[j]? = some d ∧ (∀ i, j < i → idx[i]? ≠ some d) ∧
        v.src = some (src (j * ib : Nat))) ∧
      (cmbOf b = true → 1 < idx.count d → ∃ items : List (List Byte),
        ((List.range idx.length).filter (fun j => idx[j]? == some d)).mapM
          (fun j => s.engineRead h (src (j * ib : Nat)) ib) = .ok items ∧
        v.src = none ∧ (v.data, v.fl) = combineAll b items)

end Sys2Proof.Machine

/-- The steps of engines and paths: R228 to R246 (mx commands: their start, and what their landing leaves in tiles, latches,
memory, the activation stack and registers), R247, R421 (the spill engine), R135, R275 (stream ports), R282 to R289, R291 to
R293 (haul commands: what they move, their bytes, their completion), R137, R265 (tokens), R71, R268 (reloads). -/
def Obligations.EngineSteps : Prop :=
  (∀ (s : State) c p m, s.mxReady c p = some m → Leads s (.mxCommandStart c p) (fun t =>
    Table.get (t.core c).mxq [] p = (Table.get (s.core c).mxq [] p).drop 1 ∧
    ∃ n, Table.find (t.core c).mxRun p = some n ∧ n.num = m.num ∧ n.i = m.i ∧ n.ops = m.ops ∧ n.vecs = m.vecs ∧
      n.startedAt = if p = 0 then max s.cycle (m.issued + 8) else s.cycle)) ∧
  (∀ (s : State) c p m, Table.find (s.core c).mxRun ((s.core c).landsNext p) = some m → s.mxHeld m = false →
    Leads s (.mxCommandLand c p) (fun t =>
      Table.find (t.core c).mxRun ((s.core c).landsNext p) = none ∧
      (m.orphan = false → (t.strand m.strand).mxFlags = (s.strand m.strand).mxFlags ||| (s.mxOut m).flags) ∧
      (m.orphan = true → (t.strand m.strand).mxFlags = (s.strand m.strand).mxFlags) ∧
      (∀ n, n ∉ m.tiles → n ≠ (m.tiles[0]?).getD 0 → n ≠ (m.tiles[1]?).getD 0 → t.tileOf c n = s.tileOf c n) ∧
      ((∀ f, m.i ≠ .mlatch f) → (t.core c).latches = (s.core c).latches) ∧
      (storesNothing m.i = true → (s.strand m.strand).fences = [] → t.mem = s.mem) ∧
      (coreOf m.strand = c → (∀ n ∈ m.tiles, ((s.tileOf c n).elems.map (·.1)).Nodup) → Landed s t c m))) ∧
  (∀ (s : State) c p m, Table.find (s.core c).mxRun ((s.core c).landsNext p) = some m → s.mxHeld m = true →
    Leads s (.mxCommandLand c p) (fun t => t = s)) ∧
  (∀ (s : State) (m : MxCmd) (f : MM) i j b,
    s.blockSum m f i j b = ((List.range 32).map (fun kk => s.aMant m (f.wa + 1) i b kk *
      sgn (f.wb + 1) (Table.get (Table.get (m.view b) {} ((f.w + b / 8) % 8)).mant 0 (256 * j + 32 * (b % 8) + kk)).toNat)).sum) ∧
  (∀ (s : State) r c, s.rendezvousReady r c = true → Leads s (.moprRendezvousStart r c) (fun t =>
    ∀ p m, p < 8 → (Table.get (s.core (8 * r + p)).mxq [] 0).head? = some m →
      ∃ n, Table.find (t.core (8 * r + p)).mxRun 0 = some n ∧ n.num = m.num ∧ n.i = m.i ∧
        n.mem = (((Table.get (s.core (8 * r + p / 4 * 4)).mxq [] 0).head?).map (·.mem)).getD [])) ∧
  (∀ (s u : State) k i e l resent failed, s.spillTurn failed (coreOf k) = some (k, u) → s.spills k = true →
    (s.strand k).bottomResident = some i → (s.strand k).stack[i]? = some e →
    s.flatSpans k ((s.strand k).stkspill + (s.strand k).entryDepth i) (stackBytes e.z) true = .ok l →
    Leads s (.spillEntry ⟨k, resent, failed⟩) (fun t => (t.strand k).stack[i]? = some { e with spilled := true } ∧
      (t.strand k).resident = (s.strand k).resident - stackBytes e.z ∧
      t.cairn.recoverable = s.cairn.recoverable + resent ∧
      ∀ j ∈ failed, 64 * j < stackBytes e.z → spanLoc l (64 * j) / 64 ∈ t.sys.poison)) ∧
  (∀ (s u : State) k i e l, s.spillTurn [] (coreOf k) = some (k, u) → s.spills k = false → s.fills k = true →
    (s.strand k).topSpilled = some i → (s.strand k).stack[i]? = some e →
    s.flatSpans k ((s.strand k).stkspill + (s.strand k).entryDepth i) (stackBytes e.z) false = .ok l →
    Leads s (.fillEntry k) (fun t =>
      ((s.spanPoison l).isSome = true → (t.strand k).stack[i]? = some { e with bad := true } ∧ t.mem = s.mem) ∧
      (s.spanPoison l = none → (t.strand k).stack[i]? = some { e with spilled := false } ∧
        (t.strand k).resident = (s.strand k).resident + stackBytes e.z))) ∧
  (∀ (s : State) k q p loc, Table.find (s.strand k).ports q = some p → p.canFill = true → s.forkOver k p.fork = true →
    s.streamLoc k p = some loc →
    Leads s (.streamPortFill k q) (fun t =>
      ∃ v : Place, Table.find (t.strand k).ports q = some { p with moved := p.moved + 1, buf := p.buf ++ [v] } ∧
        v.val = some (BitVec.ofNat 1024 (s.num loc 128)) ∧ t.mem = s.mem)) ∧
  (∀ (s : State) k q p v loc, Table.find (s.strand k).ports q = some p → p.canDrain = some v → s.forkOver k p.fork = true →
    s.streamLoc k p = some loc →
    (∀ j, j < 128 → s.regionOf ((loc + j) / 256) = none) → Leads s (.streamPortDrain k q) (fun t =>
      Table.find (t.strand k).ports q = some { p with moved := p.moved + 1, buf := p.buf.drop 1 } ∧
      t.num loc 128 = v.toNat ∧ ∀ a, (a < loc ∨ loc + 128 ≤ a) → t.byte a = s.byte a)) ∧
  (∀ (s : State) k q p, Table.find (s.strand k).ports q = some p → s.streamLoc k p = none →
    Leads s (.streamPortFill k q) (fun t => t = s) ∧ Leads s (.streamPortDrain k q) (fun t => t = s)) ∧
  (∀ (s : State) e h, s.haulReady e = some h → Leads s (.haulCommandStart e) (fun t =>
    (t.engine e).buf = (s.engine e).buf.erase h)) ∧
  (∀ (s : State) h l, s.haulPlan h = .ok l → Planned s h l) ∧
  (∀ (s : State) (h : Haul) q, s.engineParts h (idxaOf h.block) (4 * shape0 h.block) false = .ok [q] →
    addrKind (idxaOf h.block) ≠ 4 → s.partPoison q = none → q.len = 4 * shape0 h.block →
    s.haulIndices h = .ok ((List.range (shape0 h.block)).map (fun j => s.num (q.loc + 4 * j) 4))) ∧
  (∀ (s : State) e i h v q bs, (s.engine e).run[i]? = some h → h.pend = [] → h.failed = false → h.moved = false →
    addrKind (srcOf h.block) ≠ 4 → s.haulPlan h = .ok [v] →
    ((v.src = none ∧ bs = v.data ∧ bs.length = v.len) ∨
     ∃ a p, v.src = some a ∧ addrKind a ≠ 4 ∧ s.engineParts h a v.len false = .ok [p] ∧ p.len = v.len ∧
       s.partPoison p = none ∧ bs = (locsFrom p.loc v.len).map s.byte) →
    addrKind v.dst ≠ 4 → s.engineParts h v.dst v.len true = .ok [q] → q.len = v.len → q.cached = false →
    (∀ p ∈ s.sourceParts h [v], p.cached = false ∧ (p.loc + p.len ≤ q.loc ∨ q.loc + q.len ≤ p.loc)) →
    s.cairn.regions = [] → Leads s (.haulCompletion e i) (fun t =>
      (∀ j b, bs[j]? = some b → t.byte (q.loc + j) = b) ∧
      (∀ l, (l < q.loc ∨ q.loc + q.len ≤ l) → t.byte l = s.byte l) ∧
      (feOf h.block = true → ∀ j, j < v.len → t.tag (q.loc + j) = true))) ∧
  (∀ (s : State) e i h, (s.engine e).run[i]? = some h → h.pend = [] → h.failed = false → h.moved = true →
    (h.asked = true ∨ addrKind (srcOf h.block) ≠ 4) → (mincOf h.block = 0 ∨ h.marked = true) →
    (bitAt (ctlOf h.block) 31 = true → s.cutOff (e / 16) (fld (ctlOf h.block) 23 8 / 64) = false) →
    Leads s (.haulCompletion e i) (fun t =>
      (t.engine e).run = listDrop (s.engine e).run i ∧ (t.engine e).flt = (s.engine e).flt ∧ t.mem = s.mem ∧
      t.semOps = s.semOps ++ (if bitAt (ctlOf h.block) 31 = true then
        [{ engine := some e, core := fld (ctlOf h.block) 23 8, sem := fld (ctlOf h.block) 17 6,
           val := fld (ctlOf h.block) 0 16 }] else []) ∧ (h.at_.sc = 6 → t.sys.below = []) ∧
      (∀ port id, h.report = some (port, id) → t.places h.strand port true =
        (s.places h.strand port true).map (fun p =>
          if p.id = id then { p with val := some (BitVec.ofNat 1024 h.word) } else p) ∨ port < 416))) ∧
  (∀ (s : State) e i h, (s.engine e).run[i]? = some h → h.pend = [] → h.failed = false → h.moved = true →
    (h.asked = true ∨ addrKind (srcOf h.block) ≠ 4) → (mincOf h.block = 0 ∨ h.marked = true) → h.at_.sc ≠ 6 →
    bitAt (ctlOf h.block) 31 = true → s.cutOff (e / 16) (fld (ctlOf h.block) 23 8 / 64) = true →
    Leads s (.haulCompletion e i) (fun t => t = s)) ∧
  (∀ (s : State) e i h p, (s.engine e).run[i]? = some h → h.pend = [] → h.failed = false → h.moved = true →
    (h.asked = true ∨ addrKind (srcOf h.block) ≠ 4) → mincOf h.block ≠ 0 → h.marked = false → addrKind (markOf h.block) ≠ 4 →
    s.engineParts h (markOf h.block) 8 true = .ok [p] → p.cached = false → s.partPoison p = none → s.cairn.regions = [] →
    h.at_.sc ≠ 6 → Leads s (.haulCompletion e i) (fun t =>
      t.num p.loc 8 = (s.num p.loc 8 + mincOf h.block) % 2 ^ 64 ∧
      (∀ a, (a < p.loc ∨ p.loc + 8 ≤ a) → t.byte a = s.byte a) ∧
      ((bitAt (ctlOf h.block) 31 = true → s.cutOff (e / 16) (fld (ctlOf h.block) 23 8 / 64) = false) →
        (t.engine e).run = listDrop (s.engine e).run i))) ∧
  (∀ (s : State) e oc n tag a, (s.engine e).readyTags = [(oc, n, tag)] → (s.engine e).ticketOf tag = some a →
    s.reachable (fld a.addr 50 10) = true → Leads s (.engineTicketReplay e) (fun t =>
      ∀ h ∈ (t.engine e).run, ∀ b ∈ h.pend, b.tag = tag → b.ticket = none ∧ b.ready = false)) ∧
  (∀ (s : State) die tok e, s.transit.find? (fun e => e.token = 1024 * die + tok) = some e → s.passes e = true →
    Leads s (.tokenArrival die tok) (fun t =>
      Table.find t.tokens (1024 * die + tok) = some e.dest ∧ ∀ x ∈ t.transit, x.token ≠ 1024 * die + tok)) ∧
  (∀ (s : State) r i l, (s.rope r).reloads[i]? = some l → s.forkOver l.strand l.after = true →
    s.reloadStop r l (Table.get (s.strand l.strand).img 0 l.bank) = none → Leads s (.reloadComplete r i) (fun t =>
      let u : Nat × Nat := if l.lo < 0x30000 then (l.lo / 48 * 48, 48) else (l.lo / 2 * 2, 2)
      (l.lo + l.len ≤ u.1 + u.2 → (t.rope r).reloads = listDrop (s.rope r).reloads i ∧
        ((s.strand l.strand).fences = [] → t.mem = s.mem)) ∧
      (u.1 + u.2 < l.lo + l.len → t.mem = s.mem ∧ (t.rope r).reloads =
        listSet (s.rope r).reloads i { l with lo := u.1 + u.2, len := l.lo + l.len - (u.1 + u.2) }) ∧
      ∀ p x, s.pageParts l.strand (Table.get (s.strand l.strand).img 0 l.bank + u.1) u.2 = [p] →
        p.1 = Table.get (s.strand l.strand).img 0 l.bank + u.1 → s.ropePart r l.strand p = .ok x → x.len = u.2 →
        t.copyNum r l.bank u.1 u.2 = s.num x.loc u.2))

/-- Launches and queues: R45, R316, R317 (reservation, commitment, back-off), R44, R49 to R51 (the start), R46 to R48
(pre-emption, freeze, save, resume), R303 to R315, R318, R380, R458 (queues, packets, mapping, the watchdog), R9, R322, R384
(registers), R98, R115, R295. -/
def Obligations.LaunchSteps : Prop :=
  (∀ (s : State) h r q g, (s.slot h).queue = some q → s.gangAt h = some g → g.phase = .reserving → r ∈ g.ropes → r ∉ g.granted →
    Leads s (.reserve h r) (fun t =>
      ((s.rope r).res = .free → (t.rope r).res = .held h) ∧
      ((s.rope r).res ≠ .free → (t.slot h).attempt = (s.slot h).attempt + 1 ∧ ∃ x, t.gangAt h = some x ∧
        x.phase = .backoff ∧ x.retryAt = s.cyc.toNat + backoff h (s.slot h).attempt))) ∧
  (∀ (s : State) h q r g, (s.slot h).queue = some q → s.gangAt h = some g → g.phase = .loading → r ∈ g.ropes →
    (s.rope r).res = .held h → (g.saved.isSome = true ∨ g.handled = true ∨ s.partsStop (s.queuePart q true) g.refused
      (handlerRanges.flatMap (fun x => s.queueParts q (g.desc.img0 + x.1) x.2)) = none) →
    Leads s (.commit h r) (fun t => (t.rope r).res = .busy h ∧ (t.slot h).attempt = 0 ∧
      ∀ p, p < 8 → (t.core (8 * r + p)).split = g.desc.split ∧ ∀ o, o < 2 ^ 23 → t.byte (spmLoc (8 * r + p) o) = 0)) ∧
  (∀ (s : State) h r g, s.gangAt h = some g → g.phase = .backoff → r ∈ g.granted → (s.rope r).res = .held h →
    Leads s (.release h r) (fun t => (t.rope r).res = .free ∧ ∃ x, t.gangAt h = some x ∧ x.granted = g.granted.filter (· ≠ r))) ∧
  (∀ (s : State) r h q g, s.slotOfRope r = some h → (s.slot h).queue = some q → s.gangAt h = some g → g.phase = .loading →
    r ∈ g.ropes → (s.rope r).ready = false → s.partsStop (s.ropePart r (strandAt r 0 0)) g.refused
      (s.queueParts q g.desc.img0 (2 ^ 18) ++ s.queueParts q g.desc.img1 (2 ^ 18)) = none →
    Leads s (.ropeLoadDone r) (fun t => (t.rope r).ready = true ∨
      ∃ x, t.gangAt h = some x ∧ x.phase = .finished ∧ x.status = 3)) ∧
  (∀ (s : State) h q g, (s.slot h).queue = some q → s.gangAt h = some g → s.starts h g = true →
    Leads s (.gangStart h) (fun t => (∃ x, t.gangAt h = some x ∧ x.phase = .running) ∧
      ∀ r c p, r ∈ g.ropes → c < 4 → p < 8 → t.strand (strandAt r c p) =
        if g.uses c then g.strandStart g.pdl (strandAt r c p) else {})) ∧
  (∀ (s : State) r h g, s.slotOfRope r = some h → s.gangAt h = some g → g.phase = .running → s.ropeDone r = true →
    Leads s (.ropePartDone r) (fun t => (t.rope r).res = .free)) ∧
  (∀ (s : State) h g, s.gangAt h = some g → g.phase = .backoff → g.granted = [] → g.retryAt ≤ s.cyc.toNat →
    Leads s (.placementRetry h) (fun t => t.gangAt h = some { g with phase := .placing })) ∧
  (∀ (s : State) h q g, (s.slot h).queue = some q → s.gangAt h = some g → s.wantsYreq h g = true →
    Leads s (.preemptRequest h) (fun t =>
      (g.farDies = [] → t.gangAt h = some { g with yAt := some s.cyc.toNat, forcedAt := none } ∧
        ∀ k ∈ g.strands, g.uses (ctxOf k) = true → (t.strand k).yreq = true) ∧
      (g.farDies ≠ [] → t = s.multicast 0 g.farDies (.yreq h)))) ∧
  (∀ (s : State) h g d, s.gangAt h = some g → s.overdue g = some d → Leads s (.forcedFreeze h) (fun t =>
    ((g.phase = .freezing ∨ g.farDies = []) → (∃ x, t.gangAt h = some x ∧ x.phase = .freezing) ∧
      (∀ r ∈ g.ropes, (t.rope r).stopped = true) ∧
      ∀ k ∈ g.strands, (s.strand k).atFreeze s.cycle = true → (t.strand k).st = .frozen) ∧
    (g.phase ≠ .freezing → g.farDies ≠ [] → s.tells (.freeze h) = false →
      t.fab.mcast = s.fab.mcast ++ [{ src := 0, dests := g.farDies, what := .freeze h }]))) ∧
  (∀ (s : State) h q g, (s.slot h).queue = some q → s.gangAt h = some g → s.saveReady h g = true →
    (g.lostArea = true ∨ ∃ u, ({ s with freeCount := s.freeCount + 1 } : State).queuePut q (s.queue q).savea
      ((List.range Config.saveSize).map (Config.freeByte s.freeCount)) = .ok u) →
    Leads s (.gangSave h) (fun t => (t.queue q).froz = true ∧ ∀ k ∈ g.strands, t.strand k = {})) ∧
  (∀ (s : State) h q g v, (s.slot h).queue = some q → s.gangAt h = some g → g.saved = some v → g.phase = .resuming →
    Leads s (.gangResume h) (fun t => (t.queue q).froz = false ∧
      ∃ x, t.gangAt h = some x ∧ x.phase = .running ∧ x.saved = none)) ∧
  (∀ (s : State) q tail, s.bootHeld = false → q < 4096 → tail < 2 ^ 32 → (s.queue q).en = true → Leads s (.kick q tail) (fun t =>
    (t.queue q).qtail = tail)) ∧
  (∀ (s : State) h q b, s.packetReady h = some q →
    s.queueBytes q ((s.queue q).qbase + 64 * ((s.queue q).qhead % (s.queue q).qsize)) 64 = .ok b →
    (launchOf b).2 = true → (launchOf b).1.seq = ((s.queue q).lacc + 1) % 2 ^ 64 → Leads s (.packetAccept h) (fun t =>
      (t.queue q).lacc = (launchOf b).1.seq ∧ (t.queue q).qhead = ((s.queue q).qhead + 1) % 2 ^ 32)) ∧
  (∀ (s : State) h q g, (s.slot h).queue = some q → s.gangAt h = some g → g.phase = .waiting → Leads s (.dependenceMet h) (fun t =>
    (g.depMet = true → ∀ d u, s.readDesc q g.launch.kdesc = .ok d → s.protectAll q d.prots = .ok u →
      t.gangAt h = some { g with desc := d, phase := .placing }) ∧
    (g.depMet = false → g.launch.depa = 0 → t.gangAt h = some { g with depMet := true }) ∧
    (g.depMet = false → g.launch.depa ≠ 0 → ¬ (addrKind g.launch.depa = 4 ∧ fld g.launch.depa 50 10 ≠ s.devid) →
      ∀ l, s.counterLocs q g.launch.depa = .ok l → t.gangAt h = some
        (if g.launch.dept ≤ ofBytes (l.map s.byte) then { g with depMet := true } else { g with depLocs := l })) ∧
    (g.depMet = false → addrKind g.launch.depa = 4 → fld g.launch.depa 50 10 ≠ s.devid →
      ∀ v, g.depTag = none → g.depGot = some (0, v) → g.launch.dept ≤ fld v (8 * (g.launch.depa % 64)) 64 →
        t.gangAt h = some { g with depMet := true }))) ∧
  (∀ (s : State) h q g, (s.slot h).queue = some q → s.gangAt h = some g → s.gangDone h g = true → g.launch.donea = 0 →
    Leads s (.gangComplete h) (fun t =>
      (∀ u, s.record q g.launch.seq g.status g.code = .ok u → (t.queue q).ldone = g.launch.seq) ∧
      (∀ e, s.record q g.launch.seq g.status g.code = .error e → e ≠ .fail →
        t.gangAt h = some { launch := g.launch, phase := .closing, status := g.status, code := g.code }))) ∧
  (∀ (s : State) q, (s.queue q).pend = true → (s.queue q).eprio < s.eprioNow q → Leads s (.eprioAgeing q) (fun t =>
    (t.queue q).eprio = s.eprioNow q ∧ t.mapDue = if s.agedAt = some s.cycle then s.mapDue else s.mapDue + 1)) ∧
  (∀ (s : State) q h, 0 < s.mapDue → s.firmwareRuns = true → s.bestPending = some q →
    (List.range 64).find? (fun i => (s.slot i).queue.isNone) = some h → Leads s .mappingDecision (fun t =>
      (t.slot h).queue = some q ∧ (t.queue q).pend = false ∧ t.mapDue = s.mapDue - 1)) ∧
  (∀ (s : State) h q g, (s.slot h).queue = some q → s.gangAt h = some g → s.watchDue q g = true → Leads s (.watchdogCheck h) (fun t =>
    (t.queue q).plast = (s.queue q).prog ∧
    ((s.queue q).prog = (s.queue q).plast → s.sys.selfRefresh = [] → (t.slot h).evicting = true) ∧
    ((s.queue q).prog ≠ (s.queue q).plast → (t.slot h).evicting = (s.slot h).evicting))) ∧
  (∀ (s : State) h q g, (s.slot h).queue = some q → s.gangAt h = some g → s.saveOverdue q g = true → Leads s (.saveTimeout h) (fun t =>
    ((s.queue q).crsize = 0 → (t.queue q).ldone = g.launch.seq) ∧
    ((t.queue q).ldone = g.launch.seq ∨ ∃ x, t.gangAt h = some x ∧ x.phase = .closing ∧ x.launch = g.launch ∧ x.status = 2))) ∧
  (∀ (s : State) q v, s.bootHeld = false → q < 4096 → v < 2 ^ 64 → s.mapped q = false → (s.queue q).froz = false →
    (s.queue q).qbase < 2 ^ 64 →
    Leads s (.queueRecordWrite q 0 64 v) (fun t => (t.queue q).qbase = v)) ∧
  (∀ (s : State) q, s.bootHeld = false → Leads s (.qctlErrClear q) (fun t =>
    (t.queue q).err = ((s.queue q).err && s.raised.contains (64 + q)))) ∧
  (∀ (s : State) v, s.bootHeld = false → v < 2 ^ 64 → s.host.evack < 2 ^ 64 → Leads s (.evackWrite v) (fun t => t.host.evack = v)) ∧
  (∀ (s : State) v, s.bootHeld = false → v < 2 ^ 64 → s.host.evbase < 2 ^ 64 → Leads s (.eventRingConfigWrite false v) (fun t =>
    t.host.evbase = if s.host.evseq = s.host.evack then v else s.host.evbase)) ∧
  (∀ (s : State) v, s.bootHeld = false → (v = 0 ∨ v = 2 ^ 16) → Leads s (.flogsizeWrite v) (fun t => t.host.flogSize = v)) ∧
  (∀ (s : State) off w v, Leads s (.registerWrite off w v) (fun t => t = s.hostWrite off w v ∧ (w ≠ 32 → w ≠ 64 → t = s) ∧
    (off % 4 ≠ 0 → t = s))) ∧
  (∀ (s : State) k, s.registersNext k = true → Leads s (.regionRegistered k) (fun t => (t.strand k).registering = some true)) ∧
  (∀ (s : State) d i m, i < 16 → m ≤ 4 → s.gangOn d = false → Leads s (.stagingSplitWrite d i m) (fun t =>
    Table.get t.sys.staging 0 (16 * d + i) = m ∧
    ∀ o, m * 2 ^ 20 ≤ o → o < 2 ^ 22 → t.byte (2 ^ 41 + (16 * d + i) * 2 ^ 22 + o) = 0)) ∧
  (∀ (s : State) on root, Leads s (.exportSpaceDesignation on root) (fun t =>
    t.fab.spaceRoot = (if on then some root else none) ∧ t.mem = s.mem))

/-- The fabric: R270 to R273, R410, R412 (replies, tickets, notices), R325, R330 (requests and messages), R426, R427
(deadlines), R329, R332, R333 (switches, multicasts), R423, R424, R431 (stations and lane groups). -/
def Obligations.FabricSteps : Prop :=
  (∀ (s : State) k tag data e i x, k < 1024 → Table.find (s.core (coreOf k)).tickets tag = some e → e.strand = k →
    e.ticketed = false → findTag (s.strand k).inflight tag 0 = some i → (s.strand k).inflight[i]? = some x →
    x.dead = false → x.dest.fixed = false → (∀ p n, x.dest ≠ .push p n) → (s.strand k).buffers x = false →
    Leads s (.remoteReply k tag 0 data) (fun t => Table.find (t.core (coreOf k)).tickets tag = none ∧
      (t.strand k).get x.dest = e.value data % 2 ^ destWidth x.dest)) ∧
  (∀ (s : State) k tag status data e, k < 1024 → Table.find (s.core (coreOf k)).tickets tag = some e → e.strand = k →
    e.ticketed = false → status ≠ 0 → status ≠ 3 → Leads s (.remoteReply k tag status data) (fun t =>
      Table.find (t.core (coreOf k)).tickets tag = none ∧
      (t.strand k).fw = (s.strand k).fw.or (some (.kill 1 0x18 0 0 0x18 (remoteInfo 0 e.addr) 0)))) ∧
  (∀ (s : State) k tag n e, k < 1024 → Table.find (s.core (coreOf k)).tickets tag = some e → e.strand = k → e.ticketed = false →
    e.chain < 7 → Leads s (.faultTicket k tag n) (fun t => Table.find (t.core (coreOf k)).tickets tag =
      some { e with ticketed := true, ready := e.told.any (fun v => ticketLe (n % 2 ^ 16) v), told := none, replaying := false,
                    tnum := n % 2 ^ 16, chain := e.chain + 1, ticketAt := s.cyc.toNat })) ∧
  (∀ (s : State) r, (s.fab.ingress.takeWhile (fun x => x ≠ r)).any (samePair r) = false → r.src ≠ s.devid →
    aboveExports r.addr = false → Leads s (.fabricRequestServe r) (fun t =>
      let left : Fabric := { s.fab with ingress := s.fab.ingress.erase r }
      let answers (status data : Nat) : Prop :=
        s.Departs t left (ingressDie r) (.reply r.src r.port r.who r.tag status data)
      (reqForm r = false ∨ s.fab.spaceRoot = none → answers 2 0 ∧ t.mem = s.mem) ∧
      (∀ root e pa mt, reqForm r = true → s.fab.spaceRoot = some root →
        s.stallOf r = none → s.tlbFor (ingressDie r) root r.addr = some e → s.pairWalks r = false →
        s.readPte (e.pteOf r.addr) r.addr (r.op != 0) false = .ok pa mt →
        (s.fab.waiting.all (fun w => !samePair r w.1) = true → s.mustWait r pa = false → r.op = 0 →
          (mt = 2 → answers 2 0 ∧ t.mem = s.mem) ∧
          (mt ≠ 2 → isHbm pa = true ∨ isTier pa = true → t.mem = s.mem ∧
            answers (if (reqSectors r pa).any s.sys.poison.contains then 3 else 0)
              (if (reqSectors r pa).any s.sys.poison.contains then 0 else s.num pa r.len))) ∧
        (s.mustWait r pa = true → t.fab = { left with waiting := s.fab.waiting ++ [(r, pa, mt)] } ∧ t.mem = s.mem)) ∧
      (∀ root e, reqForm r = true → s.fab.spaceRoot = some root → s.stallOf r = some e → e.admits r = false → e.posted = false →
        let n := Table.get s.fab.ticketNos 0 (pairNo r)
        t.mem = s.mem ∧ (∃ x ∈ t.fab.stalls, x.isFor r = true ∧ (n, r.tag) ∈ x.open_) ∧
        ∃ f : Fabric, f.sent = s.fab.sent ∧ f.egressQ = s.fab.egressQ ∧
          s.Departs t f (ingressDie r) (.reply r.src r.port r.who r.tag 1 n)))) ∧
  (∀ (s : State) r, (s.fab.ingress.takeWhile (fun x => x ≠ r)).any (samePair r) = true → r ∉ s.fab.ingress →
    Leads s (.fabricRequestServe r) (fun t => t.fab.ingress = s.fab.ingress ++ [r] ∧ t.mem = s.mem)) ∧
  (∀ (s : State) i r root, s.fab.walks[i]? = some r → s.walkReady i r = true → s.fab.spaceRoot = some root →
    (listDrop s.fab.walks i).any (samePair r) = false →
    s.walk root r.addr = none → s.stallOf r = none → r.dxp = true → s.fab.stalls.length < 16384 →
    Leads s (.ingressWalkComplete i) (fun t => t.fab.walks = listDrop s.fab.walks i ∧
      let n := Table.get s.fab.ticketNos 0 (pairNo r)
      ∃ e : Stall, t.fab.stalls = s.fab.stalls ++ [e] ∧ e.src = r.src ∧ e.who = r.who ∧ e.cls = r.cls ∧
        e.page = r.addr / 2 ^ 16 ∧ e.open_ = [(n, r.tag)] ∧ e.posted = false ∧ e.owed = true ∧ e.again = some n ∧
        (r.src ≠ s.devid → s.Departs t { s.fab with
            walks := listDrop s.fab.walks i, stalls := s.fab.stalls ++ [e]
            ticketNos := Table.set s.fab.ticketNos (pairNo r) ((n + 1) % 2 ^ 16) }
          (ingressDie r) (.reply r.src r.port r.who r.tag 1 n)))) ∧
  (∀ (s : State) i e, s.fab.stalls[i]? = some e → e.owed = true → s.stallReady e = true → e.src ≠ s.devid →
    Leads s (.replayNoticePost i) (fun t =>
      let told : Stall := { e with posted := true, heard := false, noticeAt := s.cyc.toNat, resentAt := s.cyc.toNat
                                   owed := false, look := false }
      t.fab.stalls[i]? = some told ∧
      ∀ st, bitAt (s.egress e.src) 32 = true → s.stationFor e.src (1088 + e.die) 0 = some st → s.pairWaits e.src 0 = false →
        ∃ m, s.Departs t { s.fab with stalls := listSet s.fab.stalls i told } (senderDie (1088 + e.die)) (.message e.src st m) ∧
          m.kind = 3 ∧ m.tnum = (e.open_.getLast?.map (·.1)).getD 0)) ∧
  (∀ (s : State) m c tag e, m.kind = 3 → m.rk = 0 → m.core = c → Table.find (s.core c).tickets tag = some e →
    e.strand = 4 * c + m.sel % 4 → e.owner = m.src → e.cls = fld m.sel 4 4 → Leads s (.replayNotice m) (fun t =>
      (e.ticketed = true → e.behind = none → ticketLe e.tnum m.tnum = true →
        Table.find (t.core c).tickets tag = some { e with ready := true }) ∧
      (e.ticketed = false → Table.find (t.core c).tickets tag = some { e with told := some m.tnum }))) ∧
  (∀ (s : State) m, Leads s (.semMessage m) (fun t => t.mem = s.mem ∧
    ((m.kind = 1 ∨ m.kind = 2) → t.semOps = s.semOps ++ [{ core := m.core % 256, sem := m.sel % 64, sets := m.kind == 2,
                                                           val := m.val % 2 ^ 32 }]) ∧
    (m.kind ≠ 1 → m.kind ≠ 2 → Counted s.fab.fstat0 t.fab.fstat0 48 16))) ∧
  (∀ (s : State) i e, s.fab.stalls[i]? = some e → e.posted = true → e.heard = false → e.resentAt + 2 ^ 22 ≤ s.cyc.toNat →
    Leads s (.noticeResend i) (fun t => (e.src ≠ s.devid → t.fab.stalls[i]? = some { e with resentAt := s.cyc.toNat }) ∧
      ∀ st, e.src ≠ s.devid → bitAt (s.egress e.src) 32 = true → s.stationFor e.src (1088 + e.die) 0 = some st →
        s.pairWaits e.src 0 = false → ∃ m, s.Departs t
          { s.fab with stalls := listSet s.fab.stalls i { e with resentAt := s.cyc.toNat } }
          (senderDie (1088 + e.die)) (.message e.src st m) ∧ m.kind = 3)) ∧
  (∀ (s : State) i e, s.fab.stalls[i]? = some e → e.posted = true → max e.noticeAt e.heardAt + 2 ^ 28 ≤ s.cyc.toNat →
    Leads s (.stallEntryExpire i) (fun t => t.fab.stalls = listDrop s.fab.stalls i)) ∧
  (∀ (s : State) k tag e, k < 1024 → Table.find (s.core (coreOf k)).tickets tag = some e → e.strand = k → e.ticketed = true →
    e.ready = false → e.paused = false → e.behind = none → e.ticketAt + 2 ^ 26 ≤ s.cyc.toNat →
    Leads s (.ticketTimeout k tag) (fun t =>
      Table.find (t.core (coreOf k)).tickets tag = none ∧
      (t.strand k).fw = (s.strand k).fw.or (some (.kill 1 0x18 0 0 0x18 (remoteInfo 0 e.addr) 0)))) ∧
  (∀ (s : State) k tag e, k < 1024 → Table.find (s.core (coreOf k)).tickets tag = some e → e.strand = k →
    (∃ x ∈ s.fab.out, x.who = k ∧ x.tag = tag ∧ x.at_ + max 1 s.fab.tmo * 1024 ≤ s.cyc.toNat) → s.isAsked tag = false →
    Leads s (.requestDeadline k tag) (fun t =>
      Table.find (t.core (coreOf k)).tickets tag = none ∧ Counted s.fab.fstat0 t.fab.fstat0 0 16 ∧
      (∀ x ∈ t.fab.out, ¬ (x.who = k ∧ x.tag = tag)) ∧
      (t.strand k).fw = (s.strand k).fw.or (some (.kill 1 0x18 0 0 0x18 (remoteInfo 1 e.addr) 0)))) ∧
  (∀ (s : State) i x, s.fab.egressQ[i]? = some x → x.item.kind ≠ 0 → x.at_ + max 1 s.fab.tmo * 1024 ≤ s.cyc.toNat →
    Leads s (.replyEgressDiscard i) (fun t => t.fab.egressQ = listDrop s.fab.egressQ i ∧ t.fab.sent = s.fab.sent ∧
      Counted s.fab.fstat1 t.fab.fstat1 0 32)) ∧
  (∀ (s : State) g, s.bootHeld = false → s.canSwitch g = true → Leads s (.egressSwitch g) (fun t => t.fab.cur = g % 2 ∧
    ∀ e ∈ s.fab.out, e.dest ≠ s.devid → (e.dest, e.cls) ∈ t.fab.pairs ∧ t.fab.busy = true)) ∧
  (∀ (s : State) d c, s.pairReady d c = true → Leads s (.egressPairSwitch d c) (fun t => (d, c) ∉ t.fab.pairs ∧
    ∀ h ∈ t.fab.held, ¬ (h.1 = d ∧ h.2.cls = c))) ∧
  (∀ (s : State) l c, (l, c) ∈ s.fab.routePairs → s.routeOpen l c = false → Leads s (.d2dRouteSwitch l c) (fun t =>
    (l, c) ∉ t.fab.routePairs)) ∧
  (∀ (s : State) d m, s.canForward d = some m → Leads s (.multicastForward d) (fun t => t.fab.mcast = s.fab.mcast.erase m ∧
    (∀ w, m.what = .stale w → (∀ e ∈ t.sys.tlb, e.die ∈ m.dests → w.drops e = false) ∧
      ∀ c, ∀ e ∈ (t.core c).tlb, e.die ∈ m.dests → w.drops e = false) ∧
    (∀ h g, m.what = .yreq h → s.gangAt h = some g → g.phase = .running → g.yAt = none → ∀ k ∈ g.strands,
      g.uses (ctxOf k) = true → (t.strand k).yreq = true))) ∧
  (∀ (s : State) i, (s.station i).ret = false → Leads s (.flitReplay i) (fun t =>
    (t.station i).rpl = min ((s.station i).rpl + 1) (2 ^ 32 - 1) ∧ t.cairn.recoverable = s.cairn.recoverable + 1)) ∧
  (∀ (s : State) i, (s.station i).ret = false → (s.station i).down = false → Leads s (.stationRetrain i) (fun t =>
    (t.station i).down = true ∧ (t.station i).bkt = min ((s.station i).bkt + 1) 255 ∧
    ((t.station i).ret = true ↔ max 1 s.fab.bthr < min ((s.station i).bkt + 1) 255))) ∧
  (∀ (s : State) i n, (s.station i).training = some n → (s.station i).ret = false → s.fab.fen = true → s.bootHeld = false →
    Leads s (.retrainComplete i) (fun t =>
      (t.station i).down = false ∧ (t.station i).training = none ∧ t.fab.sent = s.fab.sent)) ∧
  (∀ (s : State) i n, (s.station i).training = some n → n + 2 ^ 24 ≤ s.cyc.toNat → (s.station i).ret = false →
    Leads s (.retrainTimeout i) (fun t => (t.station i).ret = true ∧ (t.station i).down = true)) ∧
  (∀ (s : State) i, (s.station i).ret = false → 0 < (s.station i).bkt → 0 < s.fab.leak →
    (s.station i).leakFrom + s.fab.leak * 2 ^ 20 ≤ s.cyc.toNat → Leads s (.bucketLeak i) (fun t =>
      (t.station i).bkt = (s.station i).bkt - 1)) ∧
  (∀ (s : State) i, (s.station i).ret = true → s.clears (32 + i) = true → s.bootHeld = false → Leads s (.stationRetClear i) (fun t =>
    (t.station i).ret = false ∧ (t.station i).bkt = 0 ∧ (t.station i).training = some s.cyc.toNat)) ∧
  (∀ (s : State) v, s.bootHeld = false → Leads s (.fabricEnableWrite v) (fun t => t.fab.fen = bitAt v 63 ∧ t.fab.bthr = fld v 32 8 ∧
    t.fab.leak = fld v 0 32 ∧ (s.fab.fen = true → bitAt v 63 = false → ∀ i, i < 24 → (t.station i).down = true) ∧
    (s.fab.fen = false → bitAt v 63 = true → ∀ i, i < 24 → (s.station i).ret = false →
      (t.station i).training = some s.cyc.toNat))) ∧
  (∀ (s : State) l g, (s.lane l g).ret = false → Leads s (.d2dLaneRetrain l g) (fun t => (t.lane l g).down = true ∧
    (∀ n, (s.lane l g).down = true → (s.lane l g).training = some n → n + 2 ^ 24 ≤ s.cyc.toNat → (t.lane l g).ret = true))) ∧
  (∀ (s : State) l g n, (s.lane l g).training = some n → (s.lane l g).ret = false → Leads s (.d2dLaneGroupUp l g) (fun t =>
    (t.lane l g).down = false ∧ (t.lane l g).training = none))

namespace Sys2Proof.Machine

/-- A peer's request that no earlier one of its pair holds up in the ingress. -/
def State.Served (s : State) (r : FabReq) : Prop :=
  (s.fab.ingress.takeWhile (fun x => x ≠ r)).any (samePair r) = false ∧ r.src ≠ s.devid

/-- A peer's request has left the ingress, and its answer departs by the station at which it came in (R327). -/
def State.Answers (s t : State) (r : FabReq) (status data : Nat) : Prop :=
  s.Departs t { s.fab with ingress := s.fab.ingress.erase r } (ingressDie r) (.reply r.src r.port r.who r.tag status data)

end Sys2Proof.Machine

/-- Protected state: R339 to R341 (before-images), R297, R344 to R347 (commits), R348 (pacing), R335, R336, R443 to R447 (groups
and rebuilds), R435 to R441 (probes and recovery), R416 (line repair). -/
def Obligations.CommitSteps : Prop :=
  (∀ (s : State) line r, s.regionOf line = some r → line ∉ (s.group r.grp).dirty → (r.st = .joining → r.pitch ≠ (s.group r.grp).tracked) →
    Leads s (.beforeImageCapture line) (fun t => line ∈ (t.group r.grp).dirty ∧
      let used := (s.cairn.undo.filter (fun u => u.grp = r.grp ∧ u.line * 256 / 2 ^ 36 = line * 256 / 2 ^ 36)).length
      if (s.group r.grp).undoRoom (line * 256 / 2 ^ 36) ≤ used then (t.group r.grp).overflow = true ∧ t.cairn.undo = s.cairn.undo
      else ∃ u : Undo, t.cairn.undo = s.cairn.undo ++ [u] ∧ u.grp = r.grp ∧ u.line = line ∧
        u.pitch = (s.group r.grp).tracked ∧ t.imageOfUndo u = (locsFrom (line * 256) 256).map s.byte)) ∧
  (∀ (s : State) g k, s.belayReady g = true → s.belayer g = some k → Leads s (.belayOpen g) (fun t =>
    (t.strand k).belay = none ∧
    ((s.group g).st = 0 → ∃ c, (t.group g).commit = some c ∧ c.pitch = (s.group g).pitch + 1) ∧
    ((s.group g).st = 3 → (t.group g).commit = none ∧ (t.group g).lastAbort = some ((s.group g).pitch + 1)))) ∧
  (∀ (s : State) q addr d p slot off, let r := q.write addr d
    s.Served r → windowOf addr = some (.cairn p slot off) → s.sleeping (s.group slot).parb = false →
    d.len = 256 → (s.group slot).enabled = true → (s.group slot).lostSender q.src = false → off % 256 = 0 →
    off < (s.group slot).punits * 2 ^ 16 → d.poison = false →
    Leads s (.deltaWrite q addr d) (fun t =>
      let reg := (s.group slot).stageReg
      let found := s.cairn.stage.find? (fun e => e.grp == slot && e.bit == p && e.off == off)
      (∀ e, found = some e → s.Answers t r 0 0 ∧ t.cairn = s.cairn ∧ t.entryImage slot reg e.place =
        bytesOf (xorBytes (natsOf (s.entryImage slot reg e.place)) (natsOf (toBytes 256 d.data)))) ∧
      (found = none → if (s.cairn.stage.filter (fun e => e.grp = slot)).length < (s.group slot).room reg
        then s.Answers t r 0 0 ∧ ∃ e : Stage, t.cairn.stage = s.cairn.stage ++ [e] ∧ e.grp = slot ∧ e.bit = p ∧ e.off = off ∧
          t.entryImage slot reg e.place = toBytes 256 d.data
        else s.Answers t r 2 0 ∧ t.mem = s.mem ∧ t.cairn = s.cairn))) ∧
  (∀ (s : State) g c v j st, (s.group g).commit = some c → c.verdict = some v → (s.group g).st ≠ 1 → (s.group g).leads = false →
    (s.group g).coordinator = some j → s.stationFor ((s.group g).acc j) 1088 0 = some st →
    bitAt (s.egress ((s.group g).acc j)) 32 = true → s.pairWaits ((s.group g).acc j) 0 = false →
    Leads s (.memberVote g) (fun t =>
      ∃ m, s.Departs t s.fab (senderDie 1088) (.message ((s.group g).acc j) st m) ∧ m.kind = 8 ∧
        m.val = (if v = 0 then 0 else 1) ∧ m.cause = v ∧ m.pitch = c.pitch ∧ m.gid = (s.group g).gid)) ∧
  (∀ (s : State) m, s.belayGroup m = none → ∀ i ∈ [Instr.vote m, .belayCommitMsg m, .belayAbortMsg m, .query m, .decision m],
    Leads s i (fun t => t.groups = s.groups ∧ t.mem = s.mem ∧ Counted s.fab.fstat0 t.fab.fstat0 48 16)) ∧
  (∀ (s : State) m g i, s.belayGroup m = some g → (s.group g).memberOf m.src = some i → (s.group g).leads = true →
    (s.group g).st = 0 → m.val ≠ 0 → Leads s (.vote m) (fun t =>
      (t.group g).commit = none ∧ (t.group g).lastAbort = some m.pitch)) ∧
  (∀ (s : State) m g, s.belayGroup m = some g → (s.group g).st ≠ 1 → Leads s (.belayCommitMsg m) (fun t =>
    (t.group g).pitch = m.pitch ∧ (t.group g).commit = none)) ∧
  (∀ (s : State) m g, s.belayGroup m = some g → (s.group g).st ≠ 1 → Leads s (.belayAbortMsg m) (fun t =>
    (t.group g).lastAbort = some m.pitch ∧ (t.group g).commit = none ∧ (t.group g).pitch = (s.group g).pitch)) ∧
  (∀ (s : State) g n, (s.group g).timer = some n → (s.group g).enabled = true → (s.group g).leads = true → (s.group g).st = 0 →
    n + max 1 (fld ((s.group g).reg 0x20) 0 32) * 1024 ≤ s.cyc.toNat → Leads s (.belayTimeout g) (fun t =>
      (t.group g).lastAbort = some ((s.group g).pitch + 1) ∧ (t.group g).commit = none)) ∧
  (∀ (s : State) m g, s.belayGroup m = some g → (s.group g).leads = true → (s.group g).st ≠ 3 → (s.group g).building = false →
    (s.group g).settle = none → Leads s (.query m) (fun t => (t.group g).st = 1 ∧ (t.group g).settle.isSome = true)) ∧
  (∀ (s : State) m g, s.belayGroup m = some g → (s.group g).takesDecision m.src m.pitch m.val = true → Leads s (.decision m) (fun t =>
    (t.group g).settle = none ∧ (m.val = 1 → (t.group g).pitch = m.pitch) ∧
    (m.val = 2 → (t.group g).lastAbort = some m.pitch))) ∧
  (∀ s : State, s.cairn.windowAt + 2 ^ 30 ≤ s.cyc.toNat → Leads s .estimatorWindow (fun t =>
    let c := s.cairn
    t.cairn.e = c.e - c.e / 2 ^ c.decay + c.lossCount * 2 ^ 16 + c.recoverable * c.rwt ∧
    t.cairn.t = c.t - c.t / 2 ^ c.decay + 2 ^ 30 ∧
    t.cairn.m = (t.cairn.t + c.prior * 2 ^ 20) * 2 ^ 16 / (t.cairn.e + 2 ^ 16) ∧
    t.cairn.lossCount = 0 ∧ t.cairn.recoverable = 0 ∧ t.cairn.windowAt = c.windowAt + 2 ^ 30)) ∧
  (∀ (s : State) g, (s.group g).enabled = true → (s.group g).building = false → (s.group g).expelled = false →
    (s.group g).probeAt + (s.group g).period ≤ s.cyc.toNat → Leads s (.probePeriod g) (fun t =>
      (t.group g).probeAt = s.cyc.toNat)) ∧
  (∀ (s : State) q addr slot mask, let r := q.read addr 64
    s.Served r → windowOf addr = some (.cairn 0 slot mask) → mask < 2 ^ 24 →
    (s.group slot).enabled = true → (s.group slot).memberOf q.src = none → s.sleeping (s.group slot).recb = false →
    Leads s (.recordRead q addr) (fun t =>
      (bitAt mask (s.group slot).midx = false → s.Answers t r 0 (s.recordReply slot) ∧ t.mem = s.mem) ∧
      (bitAt mask (s.group slot).midx = true → (s.group slot).rbt = false →
        (t.group slot).expelled = true ∧ ((s.group slot).expelled = false → (t.group slot).st = 3)))) ∧
  (∀ (s : State) g i st d, Leads s (.recordReadReply g i st d) (fun t =>
    ((∀ e ∈ (s.group g).asked, e.1 ≠ i) → Counted s.fab.fstat1 t.fab.fstat1 32 32 ∧ t.groups = s.groups) ∧
    ((∃ e ∈ (s.group g).asked, e.1 = i) →
      ((s.group g).enabled = false ∨ i ∉ (s.group g).probed ∨ (s.group g).building = true →
        (t.group g).asked = dropAsked i (s.group g).asked ∧ t.mem = s.mem) ∧
      ((s.group g).enabled = true → i ∈ (s.group g).probed → (s.group g).building = false → (s.group g).live i = true →
        st ≠ 0 → let n := Table.get (s.group g).miss 0 i + 1
        let limit := max 1 (fld ((s.group g).reg 0x1C8) 16 16)
        (n < limit → Table.get (t.group g).miss 0 i = n ∧ (t.group g).live i = true) ∧
        (limit ≤ n → (s.group g).n ≤ 24 → (t.group g).live i = false))))) ∧
  (∀ (s : State) g i at_, (s.group g).builds = some (i, at_) →
    let x := s.group g
    let p := x.buildPlan i at_
    let u := x.unitAt at_
    (s.jobOf g none = none → x.k ≤ (x.sources p.t i []).length →
      (∀ j, j < x.n → j ≠ x.midx → s.reachable (x.acc j) = true) →
      (∀ l, l < 256 → (s.windowRead (x.rowAddr g x.midx p.q p.t l) 256).1 = 0) →
      Leads s (.rebuildUnit g u.1 u.2 i) (fun t => (t.group g).rebuild = x.rebuild ∧ ∃ j, t.jobOf g none = some j ∧
        j.reads.map (fun e => (e.member, e.line)) =
          (x.sources p.t i []).flatMap (fun m => (List.range 256).map (fun l => (m, l))) ∧
        ∀ e ∈ j.reads, e.data.isSome = true ↔ e.member = x.midx)) ∧
    (∀ j l st, s.jobOf g none = some j → j.complete = true → (List.range 256).mapM (x.lineOf p j) = some l →
      x.acc i ≠ s.devid → s.stationFor (x.acc i) x.sender 0 = some st → s.pairWaits (x.acc i) 0 = false →
      Leads s (.rebuildUnit g u.1 u.2 i) (fun t => (t.group g).rebuild = some (at_ + 1) ∧ t.jobOf g none = none ∧
        t.fab.sent.length + t.fab.egressQ.length = s.fab.sent.length + s.fab.egressQ.length + 256 ∧
        ∀ n v, l[n]? = some v → ∃ r : FabReq, r.op = 1 ∧ r.addr = x.buildAddr g at_ + n * 256 ∧ r.len = 256 ∧ r.data = ofBytes v ∧
          Sent.request (x.acc i) st r ∈ t.fab.sent ++ t.fab.egressQ.map (·.item)))) ∧
  (∀ (s : State) q addr, let r := q.read addr 256
    s.Served r → (∀ w, windowOf addr = some w → s.windowWaits w = false) →
    Leads s (.rebuildWindowRead q addr) (fun t => t.mem = s.mem ∧
      (addr % 256 ≠ 0 → s.Answers t r 2 0) ∧
      (addr % 256 = 0 → s.Answers t r (s.windowRead addr 256).1 (s.windowRead addr 256).2 ∧
        ∀ g o, windowOf addr = some (.parity g o) → (s.group g).enabled = true → o / 2 ^ 16 < (s.group g).punits →
          s.linePoisoned (((s.group g).parb + o) / 256) = false →
          s.windowRead addr 256 = (0, s.num ((s.group g).parb + o) 256) ∨
            (s.committedBad (((s.group g).parb + o) / 256) = true ∧ s.windowRead addr 256 = (3, 0))))) ∧
  (∀ (s : State) q addr d w pa i, let r := q.write addr d
    s.Served r → windowOf addr = some w → (s.group w.slot).target w = some (pa, i) →
    s.sleeping pa = false → (s.group w.slot).enabled = true → (s.group w.slot).building = true →
    (s.group w.slot).lostSender q.src = false → d.len = 256 → addr % 256 = 0 → Leads s (.rebuildWrite q addr d) (fun t =>
      (∀ j, j < 256 → t.byte (pa + j) = BitVec.ofNat 8 (d.data / 256 ^ j)) ∧ i ∈ (t.group w.slot).received ∧
      (t.linePoisoned (pa / 256) = true ∨ d.poison = false) ∧ s.Answers t r 0 0)) ∧
  (∀ (s : State) g data, (s.group g).enabled = true → (s.group g).building = true → (s.group g).endReply = some data →
    (s.group g).received.length = ((s.group g).psize + (s.group g).punits) * 256 → (s.group g).n ≤ 24 →
    Leads s (.rebuildEnd g (fld data 0 64) (fld data 256 24)) (fun t => (t.group g).pitch = fld data 0 64 ∧ (t.group g).st = 0 ∧ (t.group g).adp = true ∧
      ∀ j, j < (s.group g).n → (t.group g).live j = (bitAt data (256 + j) || j == (s.group g).midx))) ∧
  (∀ (s : State) line r, s.linePoisoned line = true → s.regionOf line = some r → line ∉ (s.group r.grp).dirty →
    (s.group r.grp).commit = none → r.st ≠ .joining → line ∉ s.sys.lostLines → s.sleeping (line * 256) = false →
    let p := s.dataPlan r line
    (s.jobOf r.grp (some line) = none → Leads s (.lineRepair (line / 2 ^ 28) (line % 2 ^ 28)) (fun t => t.mem = s.mem ∧
      (line ∈ t.sys.lostLines ∨ ∃ j, t.jobOf r.grp (some line) = some j ∧
        ∀ e ∈ j.reads, e.data.isSome = true ↔ e.member = (s.group r.grp).midx))) ∧
    (∀ j l, s.jobOf r.grp (some line) = some j → j.complete = true →
      (s.group r.grp).lineOf p j (r.offset line / 256 % 256) = some l → Leads s (.lineRepair (line / 2 ^ 28) (line % 2 ^ 28)) (fun t =>
        t.linePoisoned line = false ∧ t.jobOf r.grp (some line) = none ∧
        ∀ n b, n < 256 → l[n]? = some b → t.byte (line * 256 + n) = b))) ∧
  (∀ (s : State) g, (s.group g).enabled = false → (s.group g).zeroing = [] → Leads s (.gctlEnable g) (fun t =>
    (t.group g).zeroing = (if s.enableError g = 0 then
      [((s.group g).parb, (s.group g).punits * 2 ^ 16), ((s.group g).recb, 64)] else []) ∧
    fld ((t.group g).reg 0) 60 3 = s.enableError g % 8)) ∧
  (∀ (s : State) g, (s.group g).enabled = true → (∀ r ∈ s.cairn.regions, r.grp ≠ g) → Leads s (.gctlDisable g) (fun t =>
    (t.group g).enabled = false ∧ (∀ e ∈ t.cairn.stage, e.grp ≠ g) ∧ ∀ j ∈ t.cairn.jobs, j.grp ≠ g)) ∧
  (∀ (s : State) g, (s.group g).zeroing ≠ [] → (∀ z ∈ (s.group g).zeroing, s.sleeping z.1 = false) →
    Leads s (.groupZeroingDone g) (fun t =>
    (t.group g).enabled = true ∧ (t.group g).pitch = 0 ∧ (t.group g).commit = none ∧
    ∀ z ∈ (s.group g).zeroing, z.1 + z.2 ≤ 2 ^ 64 → ∀ o, o < z.2 → t.byte (z.1 + o) = 0)) ∧
  (∀ (s : State) g v, Leads s (.gownWrite g v) (fun t => (t.group g).reg 0x18 = v / 2 ^ 63 % 2 * 2 ^ 63 + v % 2 ^ 12))

/-- The platform and the host's port: R383, R365 to R368 (heartbeats, power, heat, resets), R418 to R420 (refresh, scrubbing),
R104, R120 (invalidations and moves), R105, R320, R407 (ATS and PRI), R321, R432 (BAR2 and PCIe errors), R360 to R362
(boot), R319, R364 (the mailbox). -/
def Obligations.PlatformSteps : Prop :=
  (∀ (s : State) beats, s.plat.stopped = false → s.plat.beatAt + 2 ^ 20 ≤ s.cyc.toNat → Leads s (.heartbeatCheck beats) (fun t =>
    ((∀ c, c < 4 → bitAt beats c = true) → t.plat.stopped = false ∧ t.plat.beatAt = s.cyc.toNat) ∧
    (∀ c, c < 4 → bitAt beats c = false → 1 ≤ Table.get s.plat.beats 0 c → t.plat.stopped = true))) ∧
  (∀ (s : State) w, s.plat.comparedAt + 250000 ≤ s.cyc.toNat → Leads s (.powerCompare w) (fun t =>
    t.plat.pavg = min w 65535 ∧ 1000 ≤ t.plat.freq ∧ t.plat.freq ≤ 2500 ∧ t.plat.comparedAt = s.cyc.toNat)) ∧
  (∀ (s : State) z temp, (s.zone z).warn ≤ sgn 16 temp → Leads s (.zoneWarn z temp) (fun t =>
    (t.zone z).temp = sgn 16 temp ∧ (t.zone z).wrs = true ∧ (4 ≤ z → z - 4 ∈ t.sys.refresh2) ∧
    ((critOf z : Int) ≤ sgn 16 temp → (t.zone z).crs = true ∧ (z < 4 → t.plat.stopped = true) ∧
      (4 ≤ z → z - 4 ∈ t.sys.selfRefresh)))) ∧
  (∀ (s : State) z temp, (critOf z : Int) ≤ sgn 16 temp → Leads s (.zoneCrit z temp) (fun t =>
    (t.zone z).crs = true ∧ (z < 4 → t.plat.stopped = true) ∧ (4 ≤ z → z - 4 ∈ t.sys.selfRefresh))) ∧
  (∀ (s : State) k temp, k ∈ s.sys.selfRefresh → sgn 16 temp ≤ (critOf (4 + k) : Int) - 40 → Leads s (.selfRefreshExit k temp) (fun t =>
    k ∉ t.sys.selfRefresh ∧ t.mem = s.mem)) ∧
  (∀ (s : State) k b, Leads s (.bankRefresh k b) (fun t => (k, b) ∈ t.sys.banks ∧ t.mem = s.mem)) ∧
  (∀ (s : State) k occ found, (s.errUnit k).per ≠ 0 → k ∉ s.sys.selfRefresh → (s.errUnit k).lines < stackLines →
    occ < (s.errUnit k).thr → Leads s (.scrubIssue k ⟨occ, found⟩) (fun t => (t.errUnit k).lines = (s.errUnit k).lines + 1 ∧
      t.mem = s.mem ∧ ∀ i, i < 4 → let sec := (k * 2 ^ 28 + (s.errUnit k).lines) * 4 + i
        (found / 3 ^ i % 3 ≠ 2 → (sec ∈ t.sys.poison ↔ sec ∈ s.sys.poison)) ∧
        (found / 3 ^ i % 3 = 2 → Table.find s.sys.below sec = none → sec ∈ t.sys.poison))) ∧
  (∀ (s : State) pte f resent failed, s.sys.moves.find? (fun m => m.1 = pte) = none → s.canMove pte f = true →
    Leads s (.pageMigration pte ⟨f, resent, failed⟩) (fun t =>
      t.sys.moves = s.sys.moves ++ [(pte, s.num pte 8)] ∧ t.num pte 8 = setFld (s.num pte 8) 60 2 1)) ∧
  (∀ (s : State) pte f m resent failed, s.sys.moves.find? (fun m => m.1 = pte) = some m → s.moveReady pte m.2 = true →
    s.movable f = true → s.sleeping (f * 2 ^ 16) = false → Leads s (.pageMigration pte ⟨f, resent, failed⟩) (fun t =>
      (∀ e ∈ t.sys.moves, e.1 ≠ pte) ∧ t.num pte 8 = setFld (setFld m.2 16 32 f) 60 2 0 % 2 ^ 64 ∧
      (∀ j ∈ failed, j < 1024 → f * 1024 + j ∈ t.sys.poison) ∧ t.cairn.recoverable = s.cairn.recoverable + resent)) ∧
  (∀ (s : State) root va len, Leads s (.tlbInvalidation root va len) (fun t => t.mem = s.mem ∧
    (∀ e, (e ∈ t.sys.tlb ∨ ∃ c, e ∈ (t.core c).tlb) → e.die = 0 → e.host = false → e.root = root →
      ∀ i, i < 16 → bitAt e.mask i = true →
        va + len ≤ (e.page / 16 * 16 + i) * 2 ^ 16 ∨ (e.page / 16 * 16 + i + 1) * 2 ^ 16 ≤ va) ∧
    t.fab.mcast = s.fab.mcast ++ [{ src := 0, dests := [1, 2, 3], what := .stale (.range root va len) }])) ∧
  (∀ (s : State) d root va, Leads s (.pageWalkComplete d root va) (fun t => t.mem = s.mem ∧
    ∀ pte, (∀ w ∈ s.sys.walks, w.failed = false → w.isFor d root (va / 2 ^ 16) = false) →
      s.walkSleeps d root (va / 2 ^ 16 * 2 ^ 16) = false → s.walk root (va / 2 ^ 16 * 2 ^ 16) = some pte → pteGood pte = true →
      (t.tlbFor d root va).isSome = true)) ∧
  (∀ (s : State) k frame large a, s.askOf k (fun a => !a.paged && !a.queued && a.failedAt.isNone) = some a →
    Leads s (.atsCompletion k 0 frame large) (fun t => t.host.asks = s.host.asks.erase a ∧
      ({ die := a.die, root := a.pasid, page := a.addr / 2 ^ 12, mask := if large then 1 else 0, pte := frame
         host := true } : TlbEntry) ∈ t.sys.tlb) ∧
    Leads s (.atsCompletion k 1 frame large) (fun t => t.host.ats = s.host.ats ++
      (if s.pageRoom then [(2, a.pasid, a.addr)] else []))) ∧
  (∀ (s : State) k a, s.askOf k (fun a => a.failedAt.any (fun n => decide (n + 2 ^ 16 ≤ s.cyc.toNat))) = some a →
    Leads s (.atsRetry k) (fun t => t.host.ats = s.host.ats ++ [(1, a.pasid, a.addr)])) ∧
  (∀ (s : State) k a, s.askOf k (·.paged) = some a → k < 1024 → (s.strand k).pri = some a.addr →
    Leads s (.priResponse k true) (fun t => t.host.asks = s.host.asks.erase a ∧ (t.strand k).pri = none) ∧
    Leads s (.priResponse k false) (fun t => t.host.asks = s.host.asks.erase a ∧
      (t.strand k).fw = some (.kill 1 0x18 a.tba 0 0x18 a.addr 0))) ∧
  (∀ (s : State) k a, s.askOf k (fun a => a.paged && decide (a.sentAt + 2 ^ 28 ≤ s.cyc.toNat)) = some a → k < 1024 →
    (s.strand k).pri = some a.addr → Leads s (.priTimeout k) (fun t => t.host.asks = s.host.asks.erase a ∧
      (t.strand k).fw = some (.kill 1 0x18 a.tba 0 0x18 a.addr 0))) ∧
  (∀ (s : State) pasid va len, Leads s (.atsInvalidation pasid va len) (fun t =>
    (∀ e, (e ∈ t.sys.tlb ∨ ∃ c, e ∈ (t.core c).tlb) → e.meets pasid va len = false) ∧ t.host = s.host ∧ t.mem = s.mem ∧
    ∃ l, t.sys.atsInvals = s.sys.atsInvals ++ [(pasid, va, l)])) ∧
  (∀ (s : State) off data, (barRange off data.length = true → s.host.bar2 = [] → s.barWaits (.write off data false) = false →
      Leads s (.bar2Write off data) (fun t => ∀ j b, data[j]? = some b → t.byte (off + j) = b)) ∧
    (barRange off data.length = false → Leads s (.bar2Write off data) (fun t => t.mem = s.mem ∧
      t.host.aer = s.host.aer ++ [(1, 1)]))) ∧
  (∀ (s : State) off n, (barRange off n = true → s.host.bar2 = [] → s.barWaits (.read off n) = false →
      (∀ l ∈ locsFrom off n, l / 64 ∉ s.sys.poison) → Leads s (.bar2Read off n) (fun t => t.mem = s.mem ∧
        t.host.reads = s.host.reads ++ [(0, (locsFrom off n).map s.byte)])) ∧
    (barRange off n = false → Leads s (.bar2Read off n) (fun t => t.host.reads = s.host.reads ++ [(1, [])]))) ∧
  (∀ (s : State) kind, Leads s (.pcieCorrectableError kind) (fun t => t.host.aer = s.host.aer ++ [(0, kind)] ∧
    t.cairn.recoverable = s.cairn.recoverable + 1)) ∧
  (∀ (s : State) off b data, barRange off (data.length + 1) = true → s.host.bar2 = [] →
    s.barWaits (.write off (b :: data) true) = false → Leads s (.pciePoisonedTlp off (b :: data)) (fun t =>
      off / 64 ∈ t.sys.poison ∧ t.host.aer = s.host.aer ++ [(1, 2)])) ∧
  (∀ (s : State) k ats, Leads s (.pcieCompletionError k ats) (fun t =>
    (ats = false → k < 1024 → (s.strand k).loads = false → t = s.aer 1 3) ∧
    (ats = false → k < 1024 → (s.strand k).loads = true → ∃ n, n < 2 ^ 56 ∧ (t.strand k).fw =
      (s.strand k).fw.or (some (.kill 1 0x18 0 0 0x18 (3 * 2 ^ 56 + n) 0))) ∧
    (ats = true → ∀ a, s.askOf k (fun a => !a.paged && !a.queued && a.failedAt.isNone) = some a → a.retried = false →
      t = (s.aer 1 3).putAsk a { a with failedAt := some s.cyc.toNat }))) ∧
  (∀ (s : State) tag, Leads s (.unexpectedCompletion tag) (fun t => t = s.aer 1 4)) ∧
  (∀ (s : State) kind, Leads s (.pcieFatalError kind) (fun t => t = s.aer 2 kind)) ∧
  (∀ (s : State) (i : Instr), i = .pcieLinkDown ∨ i = .fundamentalReset → Leads s i (fun t => t.cyc = 0 ∧ t.strands = [] ∧
    ((∀ c, (s.core c).l1Dirty = []) → ∀ a, isHbm a = true ∨ isTier a = true →
      (∀ g ∈ s.groups, g.2.recb = 0 ∨ a < g.2.recb ∨ g.2.recb + 64 ≤ a) → t.byte a = s.byte a) ∧
    (s.plat.crit = true → t.plat.stopped = true) ∧
    ∀ c o, c < 256 → o < 2 ^ 23 → t.byte (spmLoc c o) = 0)) ∧
  (∀ s : State, Leads s .coldReset (fun t => t.cyc = 0 ∧ t.strands = [] ∧ ∀ a, a < 2 ^ 64 → t.byte a = 0)) ∧
  (∀ s : State, Leads s .functionLevelReset (fun t => t.slots = [] ∧ t.queues = [] ∧ t.host.evseq = 0 ∧ t.host.evsize = 0 ∧
    t.cyc = s.cyc)) ∧
  (∀ s : State, s.plat.bootSt = 0 → Leads s .bootTrainingDone (fun t => t.plat.bootSt = 1 ∧ t.plat.bootErr = 0)) ∧
  (∀ (s : State) len, s.plat.bootSt = 1 → Leads s (.bootctlGo len) (fun t => t.plat.bootSt = 2 ∧ t.plat.bootErr = 0 ∧
    t.plat.image = (locsFrom 0 (len * 4096)).map s.byte)) ∧
  (∀ s : State, s.plat.bootSt = 2 → Leads s .bootVerify (fun t => let e := imageError s.plat.image s.plat.bootLen
    t.plat.bootErr = e ∧ t.plat.bootSt = if e = 0 then 3 else 1)) ∧
  (∀ s : State, Leads s (.doeDiscovery 0) (fun t => ∃ p : List Nat, t.host.doe = s.host.doe ++ [(0, p)])) ∧
  (∀ s : State, s.bootHeld = true → ∀ i ∈ [Instr.getDigests, .getCertificate 0 1, .challenge 0, .getMeasurements ⟨0, none⟩,
    .keyExchange 0, .finish 0, .ideKm 0 0], Leads s i (fun t => t.host.doe = s.host.doe ++ [(0x7F, [3])])) ∧
  (∀ s : State, s.bootHeld = false → ∀ n m i, i ≤ 4 →
    Leads s .getDigests (fun t => ∃ p : List Nat, t.host.doe = s.host.doe ++ [(0x81, p)]) ∧
    Leads s (.getCertificate n m) (fun t => t.host.doe =
      s.host.doe ++ [(0x82, (s.chain.length - (n + m)) :: natsOf ((s.chain.drop n).take m))]) ∧
    Leads s (.challenge n) (fun t => ∃ p : List Nat, t.host.doe = s.host.doe ++ [(0x83, p)]) ∧
    Leads s (.getMeasurements ⟨i, none⟩) (fun t => ∃ p : List Nat, t.host.doe = s.host.doe ++ [(0xE0, p)]) ∧
    Leads s (.getMeasurements ⟨i, some n⟩) (fun t => ∃ p : List Nat, t.host.doe = s.host.doe ++ [(0xE0, p)] ∧
      p.getLast? = some (Config.aliasSign s.plat.digest n) ∧
      t.host.algs = [.sha384, .ecdsaP384, .secp384r1, .aes256Gcm]) ∧
    Leads s (.keyExchange n) (fun t => (∃ p : List Nat, t.host.doe = s.host.doe ++ [(0xE4, p)]) ∧ t.host.session = 1) ∧
    Leads s (.finish n) (fun t => s.host.session = 1 → Config.finishVerifies n = true → t.host.session = 2) ∧
    Leads s (.ideKm 0 n) (fun t => s.host.session = 2 → Table.find t.host.ideKeys 0 = some n)) ∧
  (∀ (s : State) z temp, sgn 16 temp < (s.zone z).warn → Leads s (.zoneBelowWarn z temp) (fun t =>
    (t.zone z).temp = sgn 16 temp ∧ (4 ≤ z → z - 4 ∉ t.sys.refresh2)))
end

