-- ==== Sys2Proof/Laws/Table.lean ====
section
/-! SUPPORT. Sparse tables: reading after writing, and the canonical form, which every operation keeps. -/

namespace Sys2Proof

variable {α : Type}

/-! ## Reading after writing -/

theorem Table.find_set (t : Table α) (i j : Nat) (x : α) :
    Table.find (Table.set t i x) j = if i = j then some x else Table.find t j := by
  induction t with
  | nil => simp [Table.set, Table.find]
  | cons e t ih =>
    obtain ⟨k, v⟩ := e
    unfold Table.set
    by_cases h1 : i < k
    · simp only [h1, if_true, Table.find]
    · by_cases h2 : i = k
      · subst h2
        simp only [Nat.lt_irrefl, if_false, if_true, Table.find]
        by_cases hj : i = j <;> simp [hj]
      · simp only [h1, h2, if_false, Table.find, ih]
        by_cases hk : k = j
        · subst hk; simp [h2]
        · simp [hk]

@[simp] theorem Table.find_set_same (t : Table α) (i : Nat) (x : α) : Table.find (Table.set t i x) i = some x := by
  simp [Table.find_set]

theorem Table.find_mapVal (f : Nat → α → α) (t : Table α) (i : Nat) :
    Table.find (t.map (fun e => (e.1, f e.1 e.2))) i = (Table.find t i).map (f i) := by
  induction t with
  | nil => rfl
  | cons e t ih =>
    obtain ⟨k, v⟩ := e
    simp only [List.map_cons, Table.find]
    by_cases h : k = i
    · subst h; simp
    · simp [h, ih]

theorem Table.get_mapVal (f : Nat → α → α) (t : Table α) (d : α) (i : Nat) :
    Table.get (t.map (fun e => (e.1, f e.1 e.2))) d i = (Table.find t i).elim d (f i) := by
  unfold Table.get
  rw [Table.find_mapVal]
  cases Table.find t i <;> rfl

theorem Table.find_set_other (t : Table α) (i j : Nat) (x : α) (h : j ≠ i) :
    Table.find (Table.set t i x) j = Table.find t j := by
  simp [Table.find_set, Ne.symm h]

@[simp] theorem Table.get_set_same (t : Table α) (d : α) (i : Nat) (x : α) : Table.get (Table.set t i x) d i = x := by
  simp [Table.get]

theorem Table.get_set_other (t : Table α) (d : α) (i j : Nat) (x : α) (h : j ≠ i) :
    Table.get (Table.set t i x) d j = Table.get t d j := by
  simp [Table.get, Table.find_set_other t i j x h]

/-! ## Rising keys -/

/-- A key below every key of the table. -/
def Table.below (i : Nat) (t : Table α) : Prop := ∀ e ∈ t, i < e.1

theorem Table.rising_cons (e : Nat × α) (t : Table α) :
    Table.rising (e :: t) = true ↔ Table.below e.1 t ∧ Table.rising t = true := by
  induction t generalizing e with
  | nil => simp [Table.rising, Table.below]
  | cons e' t ih =>
    obtain ⟨k, v⟩ := e
    obtain ⟨k', v'⟩ := e'
    simp only [Table.rising, Bool.and_eq_true, decide_eq_true_eq]
    constructor
    · rintro ⟨h, hr⟩
      refine ⟨?_, hr⟩
      have hb := ((ih (k', v')).mp hr).1
      intro e he
      rcases List.mem_cons.mp he with rfl | he
      · exact h
      · exact Nat.lt_trans h (hb e he)
    · rintro ⟨h, hr⟩
      exact ⟨h (k', v') (List.mem_cons_self ..), hr⟩

theorem Table.find_below (i : Nat) (t : Table α) (h : Table.below i t) : Table.find t i = none := by
  induction t with
  | nil => rfl
  | cons e t ih =>
    have h1 := h e (List.mem_cons_self ..)
    have : e.1 ≠ i := by omega
    simp only [Table.find, this, if_false]
    exact ih (fun e he => h e (List.mem_cons_of_mem _ he))

theorem Table.mem_set (t : Table α) (i : Nat) (x : α) (e : Nat × α) (h : e ∈ Table.set t i x) :
    e = (i, x) ∨ e ∈ t := by
  induction t with
  | nil => simpa [Table.set] using h
  | cons c t ih =>
    obtain ⟨k, v⟩ := c
    unfold Table.set at h
    split at h
    · simpa using h
    · split at h
      · rcases List.mem_cons.mp h with h | h
        · exact .inl h
        · exact .inr (List.mem_cons_of_mem _ h)
      · rcases List.mem_cons.mp h with h | h
        · exact .inr (h ▸ List.mem_cons_self ..)
        · exact (ih h).imp_right (List.mem_cons_of_mem _)

theorem Table.mem_erase (t : Table α) (i : Nat) (e : Nat × α) (h : e ∈ Table.erase t i) : e ∈ t := by
  induction t with
  | nil => simp [Table.erase] at h
  | cons c t ih =>
    unfold Table.erase at h
    split at h
    · exact List.mem_cons_of_mem _ (ih h)
    · rcases List.mem_cons.mp h with h | h
      · exact h ▸ List.mem_cons_self ..
      · exact List.mem_cons_of_mem _ (ih h)

theorem Table.rising_set (t : Table α) (i : Nat) (x : α) (h : Table.rising t = true) :
    Table.rising (Table.set t i x) = true := by
  induction t with
  | nil => rfl
  | cons c t ih =>
    obtain ⟨k, v⟩ := c
    have hc := (Table.rising_cons _ _).mp h
    unfold Table.set
    split
    · rename_i hik
      refine (Table.rising_cons _ _).mpr ⟨?_, h⟩
      intro e he
      rcases List.mem_cons.mp he with rfl | he
      · exact hik
      · exact Nat.lt_trans hik (hc.1 e he)
    · split
      · rename_i hik
        subst hik
        exact (Table.rising_cons _ _).mpr ⟨hc.1, hc.2⟩
      · refine (Table.rising_cons _ _).mpr ⟨?_, ih hc.2⟩
        intro e he
        rcases Table.mem_set t i x e he with rfl | he
        · simp only at *; omega
        · exact hc.1 e he

theorem Table.rising_erase (t : Table α) (i : Nat) (h : Table.rising t = true) :
    Table.rising (Table.erase t i) = true := by
  induction t with
  | nil => rfl
  | cons c t ih =>
    have hc := (Table.rising_cons _ _).mp h
    unfold Table.erase
    split
    · exact ih hc.2
    · exact (Table.rising_cons _ _).mpr ⟨fun e he => hc.1 e (Table.mem_erase t i e he), ih hc.2⟩

theorem Table.rising_filter (t : Table α) (p : Nat × α → Bool) (h : Table.rising t = true) :
    Table.rising (t.filter p) = true := by
  induction t with
  | nil => rfl
  | cons c t ih =>
    have hc := (Table.rising_cons _ _).mp h
    rw [List.filter_cons]
    split
    · exact (Table.rising_cons _ _).mpr ⟨fun e he => hc.1 e (List.mem_filter.mp he).1, ih hc.2⟩
    · exact ih hc.2

@[simp] theorem Table.find_erase_same (t : Table α) (i : Nat) : Table.find (Table.erase t i) i = none := by
  induction t with
  | nil => rfl
  | cons c t ih =>
    obtain ⟨k, v⟩ := c
    unfold Table.erase
    split
    · exact ih
    · rename_i hk
      simp only [Table.find, hk, if_false]
      exact ih

theorem Table.find_erase_other (t : Table α) (i j : Nat) (h : j ≠ i) :
    Table.find (Table.erase t i) j = Table.find t j := by
  induction t with
  | nil => rfl
  | cons c t ih =>
    obtain ⟨k, v⟩ := c
    unfold Table.erase
    split
    · rename_i hk
      subst hk
      simp [Table.find, Ne.symm h, ih]
    · simp only [Table.find, ih]

/-! ## The canonical form -/

variable [DecidableEq α]

theorem Table.canon_iff (t : Table α) (d : α) :
    Table.canon t d = true ↔ Table.rising t = true ∧ ∀ e ∈ t, e.2 ≠ d := by
  simp [Table.canon, List.all_eq_true]

theorem Table.canon_put (t : Table α) (d : α) (i : Nat) (x : α) (h : Table.canon t d = true) :
    Table.canon (Table.put t d i x) d = true := by
  rw [Table.canon_iff] at h ⊢
  unfold Table.put
  split
  · exact ⟨Table.rising_erase t i h.1, fun e he => h.2 e (Table.mem_erase t i e he)⟩
  · rename_i hx
    refine ⟨Table.rising_set t i x h.1, fun e he => ?_⟩
    rcases Table.mem_set t i x e he with rfl | he
    · exact hx
    · exact h.2 e he

theorem Table.canon_filter (t : Table α) (d : α) (p : Nat × α → Bool) (h : Table.canon t d = true) :
    Table.canon (t.filter p) d = true := by
  rw [Table.canon_iff] at h ⊢
  exact ⟨Table.rising_filter t p h.1, fun e he => h.2 e (List.mem_filter.mp he).1⟩

/-- Reading the key just written: the value. -/
@[simp] theorem Table.get_put_same (t : Table α) (d : α) (i : Nat) (x : α) :
    Table.get (Table.put t d i x) d i = x := by
  unfold Table.put
  split
  · rename_i hx
    simp [Table.get, hx]
  · simp

/-- Reading another key: what it held. -/
theorem Table.get_put_other (t : Table α) (d : α) (i j : Nat) (x : α) (h : j ≠ i) :
    Table.get (Table.put t d i x) d j = Table.get t d j := by
  unfold Table.put
  split
  · simp [Table.get, Table.find_erase_other t i j h]
  · exact Table.get_set_other t d i j x h

/-- Two tables in canonical form that read alike are equal. -/
theorem Table.canon_ext (t u : Table α) (d : α) (ht : Table.canon t d = true) (hu : Table.canon u d = true)
    (h : ∀ i, Table.get t d i = Table.get u d i) : t = u := by
  rw [Table.canon_iff] at ht hu
  induction t generalizing u with
  | nil =>
    cases u with
    | nil => rfl
    | cons e u =>
      have := h e.1
      simp only [Table.get, Table.find, if_true, Option.getD] at this
      exact absurd this.symm (hu.2 e (List.mem_cons_self ..))
  | cons e t ih =>
    have hte := (Table.rising_cons _ _).mp ht.1
    cases u with
    | nil =>
      have := h e.1
      simp only [Table.get, Table.find, if_true, Option.getD] at this
      exact absurd this (ht.2 e (List.mem_cons_self ..))
    | cons f u =>
      have huf := (Table.rising_cons _ _).mp hu.1
      have he := h e.1
      have hf := h f.1
      have hkey : e.1 = f.1 := by
        rcases Nat.lt_trichotomy e.1 f.1 with hlt | heq | hlt
        · exfalso
          have : Table.find (f :: u) e.1 = none := Table.find_below _ _ (by
            intro g hg
            rcases List.mem_cons.mp hg with rfl | hg
            · exact hlt
            · exact Nat.lt_trans hlt (huf.1 g hg))
          simp only [Table.get, this, Option.getD] at he
          simp only [Table.find, if_true] at he
          exact ht.2 e (List.mem_cons_self ..) he
        · exact heq
        · exfalso
          have : Table.find (e :: t) f.1 = none := Table.find_below _ _ (by
            intro g hg
            rcases List.mem_cons.mp hg with rfl | hg
            · exact hlt
            · exact Nat.lt_trans hlt (hte.1 g hg))
          simp only [Table.get, this, Option.getD] at hf
          simp only [Table.find, if_true] at hf
          exact hu.2 f (List.mem_cons_self ..) hf.symm
      have hval : e.2 = f.2 := by
        simpa [Table.get, Table.find, hkey] using he
      have hef : e = f := Prod.ext hkey hval
      subst hef
      congr 1
      refine ih u ⟨hte.2, fun g hg => ht.2 g (List.mem_cons_of_mem _ hg)⟩
        ⟨huf.2, fun g hg => hu.2 g (List.mem_cons_of_mem _ hg)⟩ (fun i => ?_)
      by_cases hi : e.1 = i
      · subst hi
        simp [Table.get, Table.find_below _ _ hte.1, Table.find_below _ _ huf.1]
      · have := h i
        simpa [Table.get, Table.find, hi] using this

end Sys2Proof
end

