-- ==== Sys2Proof/Laws/State.lean ====
section
/-! SUPPORT. What each named update of the state leaves in every field, and reading a collection after changing it. -/

namespace Sys2Proof.Machine

/-! ## setStrand -/

@[simp] theorem State.setStrand_cores (s : State) (j : Nat) (x : Strand) : (s.setStrand j x).cores = s.cores := rfl
@[simp] theorem State.setStrand_ropes (s : State) (j : Nat) (x : Strand) : (s.setStrand j x).ropes = s.ropes := rfl
@[simp] theorem State.setStrand_slots (s : State) (j : Nat) (x : Strand) : (s.setStrand j x).slots = s.slots := rfl
@[simp] theorem State.setStrand_queues (s : State) (j : Nat) (x : Strand) : (s.setStrand j x).queues = s.queues := rfl
@[simp] theorem State.setStrand_engines (s : State) (j : Nat) (x : Strand) : (s.setStrand j x).engines = s.engines := rfl
@[simp] theorem State.setStrand_groups (s : State) (j : Nat) (x : Strand) : (s.setStrand j x).groups = s.groups := rfl
@[simp] theorem State.setStrand_mem (s : State) (j : Nat) (x : Strand) : (s.setStrand j x).mem = s.mem := rfl
@[simp] theorem State.setStrand_full (s : State) (j : Nat) (x : Strand) : (s.setStrand j x).full = s.full := rfl
@[simp] theorem State.setStrand_tokens (s : State) (j : Nat) (x : Strand) : (s.setStrand j x).tokens = s.tokens := rfl
@[simp] theorem State.setStrand_transit (s : State) (j : Nat) (x : Strand) : (s.setStrand j x).transit = s.transit := rfl
@[simp] theorem State.setStrand_sys (s : State) (j : Nat) (x : Strand) : (s.setStrand j x).sys = s.sys := rfl
@[simp] theorem State.setStrand_fab (s : State) (j : Nat) (x : Strand) : (s.setStrand j x).fab = s.fab := rfl
@[simp] theorem State.setStrand_cairn (s : State) (j : Nat) (x : Strand) : (s.setStrand j x).cairn = s.cairn := rfl
@[simp] theorem State.setStrand_host (s : State) (j : Nat) (x : Strand) : (s.setStrand j x).host = s.host := rfl
@[simp] theorem State.setStrand_plat (s : State) (j : Nat) (x : Strand) : (s.setStrand j x).plat = s.plat := rfl
@[simp] theorem State.setStrand_cyc (s : State) (j : Nat) (x : Strand) : (s.setStrand j x).cyc = s.cyc := rfl
@[simp] theorem State.setStrand_cycle (s : State) (j : Nat) (x : Strand) : (s.setStrand j x).cycle = s.cycle := rfl
@[simp] theorem State.setStrand_devid (s : State) (j : Nat) (x : Strand) : (s.setStrand j x).devid = s.devid := rfl
@[simp] theorem State.setStrand_turn (s : State) (j : Nat) (x : Strand) : (s.setStrand j x).turn = s.turn := rfl
@[simp] theorem State.setStrand_issue (s : State) (j : Nat) (x : Strand) : (s.setStrand j x).issue = s.issue := rfl
@[simp] theorem State.setStrand_agenda (s : State) (j : Nat) (x : Strand) : (s.setStrand j x).agenda = s.agenda := rfl
@[simp] theorem State.setStrand_freeCount (s : State) (j : Nat) (x : Strand) : (s.setStrand j x).freeCount = s.freeCount := rfl
@[simp] theorem State.setStrand_granted (s : State) (j : Nat) (x : Strand) : (s.setStrand j x).granted = s.granted := rfl
@[simp] theorem State.setStrand_mapDue (s : State) (j : Nat) (x : Strand) : (s.setStrand j x).mapDue = s.mapDue := rfl
@[simp] theorem State.setStrand_serial (s : State) (j : Nat) (x : Strand) : (s.setStrand j x).serial = s.serial := rfl
@[simp] theorem State.setStrand_cycRest (s : State) (j : Nat) (x : Strand) : (s.setStrand j x).cycRest = s.cycRest := rfl
@[simp] theorem State.setStrand_deferred (s : State) (j : Nat) (x : Strand) : (s.setStrand j x).deferred = s.deferred := rfl
@[simp] theorem State.setStrand_arrived (s : State) (j : Nat) (x : Strand) : (s.setStrand j x).arrived = s.arrived := rfl
@[simp] theorem State.setStrand_semOps (s : State) (j : Nat) (x : Strand) : (s.setStrand j x).semOps = s.semOps := rfl
@[simp] theorem State.setStrand_raised (s : State) (j : Nat) (x : Strand) : (s.setStrand j x).raised = s.raised := rfl
@[simp] theorem State.setStrand_agedAt (s : State) (j : Nat) (x : Strand) : (s.setStrand j x).agedAt = s.agedAt := rfl
@[simp] theorem State.setStrand_core (s : State) (j : Nat) (x : Strand) (k : Nat) : (s.setStrand j x).core k = s.core k := rfl
@[simp] theorem State.setStrand_rope (s : State) (j : Nat) (x : Strand) (k : Nat) : (s.setStrand j x).rope k = s.rope k := rfl
@[simp] theorem State.setStrand_slot (s : State) (j : Nat) (x : Strand) (k : Nat) : (s.setStrand j x).slot k = s.slot k := rfl
@[simp] theorem State.setStrand_queue (s : State) (j : Nat) (x : Strand) (k : Nat) : (s.setStrand j x).queue k = s.queue k := rfl
@[simp] theorem State.setStrand_engine (s : State) (j : Nat) (x : Strand) (k : Nat) : (s.setStrand j x).engine k = s.engine k := rfl
@[simp] theorem State.setStrand_group (s : State) (j : Nat) (x : Strand) (k : Nat) : (s.setStrand j x).group k = s.group k := rfl
@[simp] theorem State.setStrand_byte (s : State) (j : Nat) (x : Strand) (k : Nat) : (s.setStrand j x).byte k = s.byte k := rfl

/-! ## onStrand -/

@[simp] theorem State.onStrand_cores (s : State) (j : Nat) (f : Strand → Strand) : (s.onStrand j f).cores = s.cores := rfl
@[simp] theorem State.onStrand_ropes (s : State) (j : Nat) (f : Strand → Strand) : (s.onStrand j f).ropes = s.ropes := rfl
@[simp] theorem State.onStrand_slots (s : State) (j : Nat) (f : Strand → Strand) : (s.onStrand j f).slots = s.slots := rfl
@[simp] theorem State.onStrand_queues (s : State) (j : Nat) (f : Strand → Strand) : (s.onStrand j f).queues = s.queues := rfl
@[simp] theorem State.onStrand_engines (s : State) (j : Nat) (f : Strand → Strand) : (s.onStrand j f).engines = s.engines := rfl
@[simp] theorem State.onStrand_groups (s : State) (j : Nat) (f : Strand → Strand) : (s.onStrand j f).groups = s.groups := rfl
@[simp] theorem State.onStrand_mem (s : State) (j : Nat) (f : Strand → Strand) : (s.onStrand j f).mem = s.mem := rfl
@[simp] theorem State.onStrand_full (s : State) (j : Nat) (f : Strand → Strand) : (s.onStrand j f).full = s.full := rfl
@[simp] theorem State.onStrand_tokens (s : State) (j : Nat) (f : Strand → Strand) : (s.onStrand j f).tokens = s.tokens := rfl
@[simp] theorem State.onStrand_transit (s : State) (j : Nat) (f : Strand → Strand) : (s.onStrand j f).transit = s.transit := rfl
@[simp] theorem State.onStrand_sys (s : State) (j : Nat) (f : Strand → Strand) : (s.onStrand j f).sys = s.sys := rfl
@[simp] theorem State.onStrand_fab (s : State) (j : Nat) (f : Strand → Strand) : (s.onStrand j f).fab = s.fab := rfl
@[simp] theorem State.onStrand_cairn (s : State) (j : Nat) (f : Strand → Strand) : (s.onStrand j f).cairn = s.cairn := rfl
@[simp] theorem State.onStrand_host (s : State) (j : Nat) (f : Strand → Strand) : (s.onStrand j f).host = s.host := rfl
@[simp] theorem State.onStrand_plat (s : State) (j : Nat) (f : Strand → Strand) : (s.onStrand j f).plat = s.plat := rfl
@[simp] theorem State.onStrand_cyc (s : State) (j : Nat) (f : Strand → Strand) : (s.onStrand j f).cyc = s.cyc := rfl
@[simp] theorem State.onStrand_cycle (s : State) (j : Nat) (f : Strand → Strand) : (s.onStrand j f).cycle = s.cycle := rfl
@[simp] theorem State.onStrand_devid (s : State) (j : Nat) (f : Strand → Strand) : (s.onStrand j f).devid = s.devid := rfl
@[simp] theorem State.onStrand_turn (s : State) (j : Nat) (f : Strand → Strand) : (s.onStrand j f).turn = s.turn := rfl
@[simp] theorem State.onStrand_issue (s : State) (j : Nat) (f : Strand → Strand) : (s.onStrand j f).issue = s.issue := rfl
@[simp] theorem State.onStrand_agenda (s : State) (j : Nat) (f : Strand → Strand) : (s.onStrand j f).agenda = s.agenda := rfl
@[simp] theorem State.onStrand_freeCount (s : State) (j : Nat) (f : Strand → Strand) : (s.onStrand j f).freeCount = s.freeCount := rfl
@[simp] theorem State.onStrand_granted (s : State) (j : Nat) (f : Strand → Strand) : (s.onStrand j f).granted = s.granted := rfl
@[simp] theorem State.onStrand_mapDue (s : State) (j : Nat) (f : Strand → Strand) : (s.onStrand j f).mapDue = s.mapDue := rfl
@[simp] theorem State.onStrand_serial (s : State) (j : Nat) (f : Strand → Strand) : (s.onStrand j f).serial = s.serial := rfl
@[simp] theorem State.onStrand_cycRest (s : State) (j : Nat) (f : Strand → Strand) : (s.onStrand j f).cycRest = s.cycRest := rfl
@[simp] theorem State.onStrand_deferred (s : State) (j : Nat) (f : Strand → Strand) : (s.onStrand j f).deferred = s.deferred := rfl
@[simp] theorem State.onStrand_arrived (s : State) (j : Nat) (f : Strand → Strand) : (s.onStrand j f).arrived = s.arrived := rfl
@[simp] theorem State.onStrand_semOps (s : State) (j : Nat) (f : Strand → Strand) : (s.onStrand j f).semOps = s.semOps := rfl
@[simp] theorem State.onStrand_raised (s : State) (j : Nat) (f : Strand → Strand) : (s.onStrand j f).raised = s.raised := rfl
@[simp] theorem State.onStrand_agedAt (s : State) (j : Nat) (f : Strand → Strand) : (s.onStrand j f).agedAt = s.agedAt := rfl
@[simp] theorem State.onStrand_core (s : State) (j : Nat) (f : Strand → Strand) (k : Nat) : (s.onStrand j f).core k = s.core k := rfl
@[simp] theorem State.onStrand_rope (s : State) (j : Nat) (f : Strand → Strand) (k : Nat) : (s.onStrand j f).rope k = s.rope k := rfl
@[simp] theorem State.onStrand_slot (s : State) (j : Nat) (f : Strand → Strand) (k : Nat) : (s.onStrand j f).slot k = s.slot k := rfl
@[simp] theorem State.onStrand_queue (s : State) (j : Nat) (f : Strand → Strand) (k : Nat) : (s.onStrand j f).queue k = s.queue k := rfl
@[simp] theorem State.onStrand_engine (s : State) (j : Nat) (f : Strand → Strand) (k : Nat) : (s.onStrand j f).engine k = s.engine k := rfl
@[simp] theorem State.onStrand_group (s : State) (j : Nat) (f : Strand → Strand) (k : Nat) : (s.onStrand j f).group k = s.group k := rfl
@[simp] theorem State.onStrand_byte (s : State) (j : Nat) (f : Strand → Strand) (k : Nat) : (s.onStrand j f).byte k = s.byte k := rfl

/-! ## setCore -/

@[simp] theorem State.setCore_strands (s : State) (j : Nat) (x : Core) : (s.setCore j x).strands = s.strands := rfl
@[simp] theorem State.setCore_ropes (s : State) (j : Nat) (x : Core) : (s.setCore j x).ropes = s.ropes := rfl
@[simp] theorem State.setCore_slots (s : State) (j : Nat) (x : Core) : (s.setCore j x).slots = s.slots := rfl
@[simp] theorem State.setCore_queues (s : State) (j : Nat) (x : Core) : (s.setCore j x).queues = s.queues := rfl
@[simp] theorem State.setCore_engines (s : State) (j : Nat) (x : Core) : (s.setCore j x).engines = s.engines := rfl
@[simp] theorem State.setCore_groups (s : State) (j : Nat) (x : Core) : (s.setCore j x).groups = s.groups := rfl
@[simp] theorem State.setCore_mem (s : State) (j : Nat) (x : Core) : (s.setCore j x).mem = s.mem := rfl
@[simp] theorem State.setCore_full (s : State) (j : Nat) (x : Core) : (s.setCore j x).full = s.full := rfl
@[simp] theorem State.setCore_tokens (s : State) (j : Nat) (x : Core) : (s.setCore j x).tokens = s.tokens := rfl
@[simp] theorem State.setCore_transit (s : State) (j : Nat) (x : Core) : (s.setCore j x).transit = s.transit := rfl
@[simp] theorem State.setCore_sys (s : State) (j : Nat) (x : Core) : (s.setCore j x).sys = s.sys := rfl
@[simp] theorem State.setCore_fab (s : State) (j : Nat) (x : Core) : (s.setCore j x).fab = s.fab := rfl
@[simp] theorem State.setCore_cairn (s : State) (j : Nat) (x : Core) : (s.setCore j x).cairn = s.cairn := rfl
@[simp] theorem State.setCore_host (s : State) (j : Nat) (x : Core) : (s.setCore j x).host = s.host := rfl
@[simp] theorem State.setCore_plat (s : State) (j : Nat) (x : Core) : (s.setCore j x).plat = s.plat := rfl
@[simp] theorem State.setCore_cyc (s : State) (j : Nat) (x : Core) : (s.setCore j x).cyc = s.cyc := rfl
@[simp] theorem State.setCore_cycle (s : State) (j : Nat) (x : Core) : (s.setCore j x).cycle = s.cycle := rfl
@[simp] theorem State.setCore_devid (s : State) (j : Nat) (x : Core) : (s.setCore j x).devid = s.devid := rfl
@[simp] theorem State.setCore_turn (s : State) (j : Nat) (x : Core) : (s.setCore j x).turn = s.turn := rfl
@[simp] theorem State.setCore_issue (s : State) (j : Nat) (x : Core) : (s.setCore j x).issue = s.issue := rfl
@[simp] theorem State.setCore_agenda (s : State) (j : Nat) (x : Core) : (s.setCore j x).agenda = s.agenda := rfl
@[simp] theorem State.setCore_freeCount (s : State) (j : Nat) (x : Core) : (s.setCore j x).freeCount = s.freeCount := rfl
@[simp] theorem State.setCore_granted (s : State) (j : Nat) (x : Core) : (s.setCore j x).granted = s.granted := rfl
@[simp] theorem State.setCore_mapDue (s : State) (j : Nat) (x : Core) : (s.setCore j x).mapDue = s.mapDue := rfl
@[simp] theorem State.setCore_serial (s : State) (j : Nat) (x : Core) : (s.setCore j x).serial = s.serial := rfl
@[simp] theorem State.setCore_cycRest (s : State) (j : Nat) (x : Core) : (s.setCore j x).cycRest = s.cycRest := rfl
@[simp] theorem State.setCore_deferred (s : State) (j : Nat) (x : Core) : (s.setCore j x).deferred = s.deferred := rfl
@[simp] theorem State.setCore_arrived (s : State) (j : Nat) (x : Core) : (s.setCore j x).arrived = s.arrived := rfl
@[simp] theorem State.setCore_semOps (s : State) (j : Nat) (x : Core) : (s.setCore j x).semOps = s.semOps := rfl
@[simp] theorem State.setCore_raised (s : State) (j : Nat) (x : Core) : (s.setCore j x).raised = s.raised := rfl
@[simp] theorem State.setCore_agedAt (s : State) (j : Nat) (x : Core) : (s.setCore j x).agedAt = s.agedAt := rfl
@[simp] theorem State.setCore_strand (s : State) (j : Nat) (x : Core) (k : Nat) : (s.setCore j x).strand k = s.strand k := rfl
@[simp] theorem State.setCore_rope (s : State) (j : Nat) (x : Core) (k : Nat) : (s.setCore j x).rope k = s.rope k := rfl
@[simp] theorem State.setCore_slot (s : State) (j : Nat) (x : Core) (k : Nat) : (s.setCore j x).slot k = s.slot k := rfl
@[simp] theorem State.setCore_queue (s : State) (j : Nat) (x : Core) (k : Nat) : (s.setCore j x).queue k = s.queue k := rfl
@[simp] theorem State.setCore_engine (s : State) (j : Nat) (x : Core) (k : Nat) : (s.setCore j x).engine k = s.engine k := rfl
@[simp] theorem State.setCore_group (s : State) (j : Nat) (x : Core) (k : Nat) : (s.setCore j x).group k = s.group k := rfl
@[simp] theorem State.setCore_byte (s : State) (j : Nat) (x : Core) (k : Nat) : (s.setCore j x).byte k = s.byte k := rfl

/-! ## onCore -/

@[simp] theorem State.onCore_strands (s : State) (j : Nat) (f : Core → Core) : (s.onCore j f).strands = s.strands := rfl
@[simp] theorem State.onCore_ropes (s : State) (j : Nat) (f : Core → Core) : (s.onCore j f).ropes = s.ropes := rfl
@[simp] theorem State.onCore_slots (s : State) (j : Nat) (f : Core → Core) : (s.onCore j f).slots = s.slots := rfl
@[simp] theorem State.onCore_queues (s : State) (j : Nat) (f : Core → Core) : (s.onCore j f).queues = s.queues := rfl
@[simp] theorem State.onCore_engines (s : State) (j : Nat) (f : Core → Core) : (s.onCore j f).engines = s.engines := rfl
@[simp] theorem State.onCore_groups (s : State) (j : Nat) (f : Core → Core) : (s.onCore j f).groups = s.groups := rfl
@[simp] theorem State.onCore_mem (s : State) (j : Nat) (f : Core → Core) : (s.onCore j f).mem = s.mem := rfl
@[simp] theorem State.onCore_full (s : State) (j : Nat) (f : Core → Core) : (s.onCore j f).full = s.full := rfl
@[simp] theorem State.onCore_tokens (s : State) (j : Nat) (f : Core → Core) : (s.onCore j f).tokens = s.tokens := rfl
@[simp] theorem State.onCore_transit (s : State) (j : Nat) (f : Core → Core) : (s.onCore j f).transit = s.transit := rfl
@[simp] theorem State.onCore_sys (s : State) (j : Nat) (f : Core → Core) : (s.onCore j f).sys = s.sys := rfl
@[simp] theorem State.onCore_fab (s : State) (j : Nat) (f : Core → Core) : (s.onCore j f).fab = s.fab := rfl
@[simp] theorem State.onCore_cairn (s : State) (j : Nat) (f : Core → Core) : (s.onCore j f).cairn = s.cairn := rfl
@[simp] theorem State.onCore_host (s : State) (j : Nat) (f : Core → Core) : (s.onCore j f).host = s.host := rfl
@[simp] theorem State.onCore_plat (s : State) (j : Nat) (f : Core → Core) : (s.onCore j f).plat = s.plat := rfl
@[simp] theorem State.onCore_cyc (s : State) (j : Nat) (f : Core → Core) : (s.onCore j f).cyc = s.cyc := rfl
@[simp] theorem State.onCore_cycle (s : State) (j : Nat) (f : Core → Core) : (s.onCore j f).cycle = s.cycle := rfl
@[simp] theorem State.onCore_devid (s : State) (j : Nat) (f : Core → Core) : (s.onCore j f).devid = s.devid := rfl
@[simp] theorem State.onCore_turn (s : State) (j : Nat) (f : Core → Core) : (s.onCore j f).turn = s.turn := rfl
@[simp] theorem State.onCore_issue (s : State) (j : Nat) (f : Core → Core) : (s.onCore j f).issue = s.issue := rfl
@[simp] theorem State.onCore_agenda (s : State) (j : Nat) (f : Core → Core) : (s.onCore j f).agenda = s.agenda := rfl
@[simp] theorem State.onCore_freeCount (s : State) (j : Nat) (f : Core → Core) : (s.onCore j f).freeCount = s.freeCount := rfl
@[simp] theorem State.onCore_granted (s : State) (j : Nat) (f : Core → Core) : (s.onCore j f).granted = s.granted := rfl
@[simp] theorem State.onCore_mapDue (s : State) (j : Nat) (f : Core → Core) : (s.onCore j f).mapDue = s.mapDue := rfl
@[simp] theorem State.onCore_serial (s : State) (j : Nat) (f : Core → Core) : (s.onCore j f).serial = s.serial := rfl
@[simp] theorem State.onCore_cycRest (s : State) (j : Nat) (f : Core → Core) : (s.onCore j f).cycRest = s.cycRest := rfl
@[simp] theorem State.onCore_deferred (s : State) (j : Nat) (f : Core → Core) : (s.onCore j f).deferred = s.deferred := rfl
@[simp] theorem State.onCore_arrived (s : State) (j : Nat) (f : Core → Core) : (s.onCore j f).arrived = s.arrived := rfl
@[simp] theorem State.onCore_semOps (s : State) (j : Nat) (f : Core → Core) : (s.onCore j f).semOps = s.semOps := rfl
@[simp] theorem State.onCore_raised (s : State) (j : Nat) (f : Core → Core) : (s.onCore j f).raised = s.raised := rfl
@[simp] theorem State.onCore_agedAt (s : State) (j : Nat) (f : Core → Core) : (s.onCore j f).agedAt = s.agedAt := rfl
@[simp] theorem State.onCore_strand (s : State) (j : Nat) (f : Core → Core) (k : Nat) : (s.onCore j f).strand k = s.strand k := rfl
@[simp] theorem State.onCore_rope (s : State) (j : Nat) (f : Core → Core) (k : Nat) : (s.onCore j f).rope k = s.rope k := rfl
@[simp] theorem State.onCore_slot (s : State) (j : Nat) (f : Core → Core) (k : Nat) : (s.onCore j f).slot k = s.slot k := rfl
@[simp] theorem State.onCore_queue (s : State) (j : Nat) (f : Core → Core) (k : Nat) : (s.onCore j f).queue k = s.queue k := rfl
@[simp] theorem State.onCore_engine (s : State) (j : Nat) (f : Core → Core) (k : Nat) : (s.onCore j f).engine k = s.engine k := rfl
@[simp] theorem State.onCore_group (s : State) (j : Nat) (f : Core → Core) (k : Nat) : (s.onCore j f).group k = s.group k := rfl
@[simp] theorem State.onCore_byte (s : State) (j : Nat) (f : Core → Core) (k : Nat) : (s.onCore j f).byte k = s.byte k := rfl

/-! ## setRope -/

@[simp] theorem State.setRope_strands (s : State) (j : Nat) (x : Rope) : (s.setRope j x).strands = s.strands := rfl
@[simp] theorem State.setRope_cores (s : State) (j : Nat) (x : Rope) : (s.setRope j x).cores = s.cores := rfl
@[simp] theorem State.setRope_slots (s : State) (j : Nat) (x : Rope) : (s.setRope j x).slots = s.slots := rfl
@[simp] theorem State.setRope_queues (s : State) (j : Nat) (x : Rope) : (s.setRope j x).queues = s.queues := rfl
@[simp] theorem State.setRope_engines (s : State) (j : Nat) (x : Rope) : (s.setRope j x).engines = s.engines := rfl
@[simp] theorem State.setRope_groups (s : State) (j : Nat) (x : Rope) : (s.setRope j x).groups = s.groups := rfl
@[simp] theorem State.setRope_mem (s : State) (j : Nat) (x : Rope) : (s.setRope j x).mem = s.mem := rfl
@[simp] theorem State.setRope_full (s : State) (j : Nat) (x : Rope) : (s.setRope j x).full = s.full := rfl
@[simp] theorem State.setRope_tokens (s : State) (j : Nat) (x : Rope) : (s.setRope j x).tokens = s.tokens := rfl
@[simp] theorem State.setRope_transit (s : State) (j : Nat) (x : Rope) : (s.setRope j x).transit = s.transit := rfl
@[simp] theorem State.setRope_sys (s : State) (j : Nat) (x : Rope) : (s.setRope j x).sys = s.sys := rfl
@[simp] theorem State.setRope_fab (s : State) (j : Nat) (x : Rope) : (s.setRope j x).fab = s.fab := rfl
@[simp] theorem State.setRope_cairn (s : State) (j : Nat) (x : Rope) : (s.setRope j x).cairn = s.cairn := rfl
@[simp] theorem State.setRope_host (s : State) (j : Nat) (x : Rope) : (s.setRope j x).host = s.host := rfl
@[simp] theorem State.setRope_plat (s : State) (j : Nat) (x : Rope) : (s.setRope j x).plat = s.plat := rfl
@[simp] theorem State.setRope_cyc (s : State) (j : Nat) (x : Rope) : (s.setRope j x).cyc = s.cyc := rfl
@[simp] theorem State.setRope_cycle (s : State) (j : Nat) (x : Rope) : (s.setRope j x).cycle = s.cycle := rfl
@[simp] theorem State.setRope_devid (s : State) (j : Nat) (x : Rope) : (s.setRope j x).devid = s.devid := rfl
@[simp] theorem State.setRope_turn (s : State) (j : Nat) (x : Rope) : (s.setRope j x).turn = s.turn := rfl
@[simp] theorem State.setRope_issue (s : State) (j : Nat) (x : Rope) : (s.setRope j x).issue = s.issue := rfl
@[simp] theorem State.setRope_agenda (s : State) (j : Nat) (x : Rope) : (s.setRope j x).agenda = s.agenda := rfl
@[simp] theorem State.setRope_freeCount (s : State) (j : Nat) (x : Rope) : (s.setRope j x).freeCount = s.freeCount := rfl
@[simp] theorem State.setRope_granted (s : State) (j : Nat) (x : Rope) : (s.setRope j x).granted = s.granted := rfl
@[simp] theorem State.setRope_mapDue (s : State) (j : Nat) (x : Rope) : (s.setRope j x).mapDue = s.mapDue := rfl
@[simp] theorem State.setRope_serial (s : State) (j : Nat) (x : Rope) : (s.setRope j x).serial = s.serial := rfl
@[simp] theorem State.setRope_cycRest (s : State) (j : Nat) (x : Rope) : (s.setRope j x).cycRest = s.cycRest := rfl
@[simp] theorem State.setRope_deferred (s : State) (j : Nat) (x : Rope) : (s.setRope j x).deferred = s.deferred := rfl
@[simp] theorem State.setRope_arrived (s : State) (j : Nat) (x : Rope) : (s.setRope j x).arrived = s.arrived := rfl
@[simp] theorem State.setRope_semOps (s : State) (j : Nat) (x : Rope) : (s.setRope j x).semOps = s.semOps := rfl
@[simp] theorem State.setRope_raised (s : State) (j : Nat) (x : Rope) : (s.setRope j x).raised = s.raised := rfl
@[simp] theorem State.setRope_agedAt (s : State) (j : Nat) (x : Rope) : (s.setRope j x).agedAt = s.agedAt := rfl
@[simp] theorem State.setRope_strand (s : State) (j : Nat) (x : Rope) (k : Nat) : (s.setRope j x).strand k = s.strand k := rfl
@[simp] theorem State.setRope_core (s : State) (j : Nat) (x : Rope) (k : Nat) : (s.setRope j x).core k = s.core k := rfl
@[simp] theorem State.setRope_slot (s : State) (j : Nat) (x : Rope) (k : Nat) : (s.setRope j x).slot k = s.slot k := rfl
@[simp] theorem State.setRope_queue (s : State) (j : Nat) (x : Rope) (k : Nat) : (s.setRope j x).queue k = s.queue k := rfl
@[simp] theorem State.setRope_engine (s : State) (j : Nat) (x : Rope) (k : Nat) : (s.setRope j x).engine k = s.engine k := rfl
@[simp] theorem State.setRope_group (s : State) (j : Nat) (x : Rope) (k : Nat) : (s.setRope j x).group k = s.group k := rfl
@[simp] theorem State.setRope_byte (s : State) (j : Nat) (x : Rope) (k : Nat) : (s.setRope j x).byte k = s.byte k := rfl

/-! ## onRope -/

@[simp] theorem State.onRope_strands (s : State) (j : Nat) (f : Rope → Rope) : (s.onRope j f).strands = s.strands := rfl
@[simp] theorem State.onRope_cores (s : State) (j : Nat) (f : Rope → Rope) : (s.onRope j f).cores = s.cores := rfl
@[simp] theorem State.onRope_slots (s : State) (j : Nat) (f : Rope → Rope) : (s.onRope j f).slots = s.slots := rfl
@[simp] theorem State.onRope_queues (s : State) (j : Nat) (f : Rope → Rope) : (s.onRope j f).queues = s.queues := rfl
@[simp] theorem State.onRope_engines (s : State) (j : Nat) (f : Rope → Rope) : (s.onRope j f).engines = s.engines := rfl
@[simp] theorem State.onRope_groups (s : State) (j : Nat) (f : Rope → Rope) : (s.onRope j f).groups = s.groups := rfl
@[simp] theorem State.onRope_mem (s : State) (j : Nat) (f : Rope → Rope) : (s.onRope j f).mem = s.mem := rfl
@[simp] theorem State.onRope_full (s : State) (j : Nat) (f : Rope → Rope) : (s.onRope j f).full = s.full := rfl
@[simp] theorem State.onRope_tokens (s : State) (j : Nat) (f : Rope → Rope) : (s.onRope j f).tokens = s.tokens := rfl
@[simp] theorem State.onRope_transit (s : State) (j : Nat) (f : Rope → Rope) : (s.onRope j f).transit = s.transit := rfl
@[simp] theorem State.onRope_sys (s : State) (j : Nat) (f : Rope → Rope) : (s.onRope j f).sys = s.sys := rfl
@[simp] theorem State.onRope_fab (s : State) (j : Nat) (f : Rope → Rope) : (s.onRope j f).fab = s.fab := rfl
@[simp] theorem State.onRope_cairn (s : State) (j : Nat) (f : Rope → Rope) : (s.onRope j f).cairn = s.cairn := rfl
@[simp] theorem State.onRope_host (s : State) (j : Nat) (f : Rope → Rope) : (s.onRope j f).host = s.host := rfl
@[simp] theorem State.onRope_plat (s : State) (j : Nat) (f : Rope → Rope) : (s.onRope j f).plat = s.plat := rfl
@[simp] theorem State.onRope_cyc (s : State) (j : Nat) (f : Rope → Rope) : (s.onRope j f).cyc = s.cyc := rfl
@[simp] theorem State.onRope_cycle (s : State) (j : Nat) (f : Rope → Rope) : (s.onRope j f).cycle = s.cycle := rfl
@[simp] theorem State.onRope_devid (s : State) (j : Nat) (f : Rope → Rope) : (s.onRope j f).devid = s.devid := rfl
@[simp] theorem State.onRope_turn (s : State) (j : Nat) (f : Rope → Rope) : (s.onRope j f).turn = s.turn := rfl
@[simp] theorem State.onRope_issue (s : State) (j : Nat) (f : Rope → Rope) : (s.onRope j f).issue = s.issue := rfl
@[simp] theorem State.onRope_agenda (s : State) (j : Nat) (f : Rope → Rope) : (s.onRope j f).agenda = s.agenda := rfl
@[simp] theorem State.onRope_freeCount (s : State) (j : Nat) (f : Rope → Rope) : (s.onRope j f).freeCount = s.freeCount := rfl
@[simp] theorem State.onRope_granted (s : State) (j : Nat) (f : Rope → Rope) : (s.onRope j f).granted = s.granted := rfl
@[simp] theorem State.onRope_mapDue (s : State) (j : Nat) (f : Rope → Rope) : (s.onRope j f).mapDue = s.mapDue := rfl
@[simp] theorem State.onRope_serial (s : State) (j : Nat) (f : Rope → Rope) : (s.onRope j f).serial = s.serial := rfl
@[simp] theorem State.onRope_cycRest (s : State) (j : Nat) (f : Rope → Rope) : (s.onRope j f).cycRest = s.cycRest := rfl
@[simp] theorem State.onRope_deferred (s : State) (j : Nat) (f : Rope → Rope) : (s.onRope j f).deferred = s.deferred := rfl
@[simp] theorem State.onRope_arrived (s : State) (j : Nat) (f : Rope → Rope) : (s.onRope j f).arrived = s.arrived := rfl
@[simp] theorem State.onRope_semOps (s : State) (j : Nat) (f : Rope → Rope) : (s.onRope j f).semOps = s.semOps := rfl
@[simp] theorem State.onRope_raised (s : State) (j : Nat) (f : Rope → Rope) : (s.onRope j f).raised = s.raised := rfl
@[simp] theorem State.onRope_agedAt (s : State) (j : Nat) (f : Rope → Rope) : (s.onRope j f).agedAt = s.agedAt := rfl
@[simp] theorem State.onRope_strand (s : State) (j : Nat) (f : Rope → Rope) (k : Nat) : (s.onRope j f).strand k = s.strand k := rfl
@[simp] theorem State.onRope_core (s : State) (j : Nat) (f : Rope → Rope) (k : Nat) : (s.onRope j f).core k = s.core k := rfl
@[simp] theorem State.onRope_slot (s : State) (j : Nat) (f : Rope → Rope) (k : Nat) : (s.onRope j f).slot k = s.slot k := rfl
@[simp] theorem State.onRope_queue (s : State) (j : Nat) (f : Rope → Rope) (k : Nat) : (s.onRope j f).queue k = s.queue k := rfl
@[simp] theorem State.onRope_engine (s : State) (j : Nat) (f : Rope → Rope) (k : Nat) : (s.onRope j f).engine k = s.engine k := rfl
@[simp] theorem State.onRope_group (s : State) (j : Nat) (f : Rope → Rope) (k : Nat) : (s.onRope j f).group k = s.group k := rfl
@[simp] theorem State.onRope_byte (s : State) (j : Nat) (f : Rope → Rope) (k : Nat) : (s.onRope j f).byte k = s.byte k := rfl

/-! ## setSlot -/

@[simp] theorem State.setSlot_strands (s : State) (j : Nat) (x : Slot) : (s.setSlot j x).strands = s.strands := rfl
@[simp] theorem State.setSlot_cores (s : State) (j : Nat) (x : Slot) : (s.setSlot j x).cores = s.cores := rfl
@[simp] theorem State.setSlot_ropes (s : State) (j : Nat) (x : Slot) : (s.setSlot j x).ropes = s.ropes := rfl
@[simp] theorem State.setSlot_queues (s : State) (j : Nat) (x : Slot) : (s.setSlot j x).queues = s.queues := rfl
@[simp] theorem State.setSlot_engines (s : State) (j : Nat) (x : Slot) : (s.setSlot j x).engines = s.engines := rfl
@[simp] theorem State.setSlot_groups (s : State) (j : Nat) (x : Slot) : (s.setSlot j x).groups = s.groups := rfl
@[simp] theorem State.setSlot_mem (s : State) (j : Nat) (x : Slot) : (s.setSlot j x).mem = s.mem := rfl
@[simp] theorem State.setSlot_full (s : State) (j : Nat) (x : Slot) : (s.setSlot j x).full = s.full := rfl
@[simp] theorem State.setSlot_tokens (s : State) (j : Nat) (x : Slot) : (s.setSlot j x).tokens = s.tokens := rfl
@[simp] theorem State.setSlot_transit (s : State) (j : Nat) (x : Slot) : (s.setSlot j x).transit = s.transit := rfl
@[simp] theorem State.setSlot_sys (s : State) (j : Nat) (x : Slot) : (s.setSlot j x).sys = s.sys := rfl
@[simp] theorem State.setSlot_fab (s : State) (j : Nat) (x : Slot) : (s.setSlot j x).fab = s.fab := rfl
@[simp] theorem State.setSlot_cairn (s : State) (j : Nat) (x : Slot) : (s.setSlot j x).cairn = s.cairn := rfl
@[simp] theorem State.setSlot_host (s : State) (j : Nat) (x : Slot) : (s.setSlot j x).host = s.host := rfl
@[simp] theorem State.setSlot_plat (s : State) (j : Nat) (x : Slot) : (s.setSlot j x).plat = s.plat := rfl
@[simp] theorem State.setSlot_cyc (s : State) (j : Nat) (x : Slot) : (s.setSlot j x).cyc = s.cyc := rfl
@[simp] theorem State.setSlot_cycle (s : State) (j : Nat) (x : Slot) : (s.setSlot j x).cycle = s.cycle := rfl
@[simp] theorem State.setSlot_devid (s : State) (j : Nat) (x : Slot) : (s.setSlot j x).devid = s.devid := rfl
@[simp] theorem State.setSlot_turn (s : State) (j : Nat) (x : Slot) : (s.setSlot j x).turn = s.turn := rfl
@[simp] theorem State.setSlot_issue (s : State) (j : Nat) (x : Slot) : (s.setSlot j x).issue = s.issue := rfl
@[simp] theorem State.setSlot_agenda (s : State) (j : Nat) (x : Slot) : (s.setSlot j x).agenda = s.agenda := rfl
@[simp] theorem State.setSlot_freeCount (s : State) (j : Nat) (x : Slot) : (s.setSlot j x).freeCount = s.freeCount := rfl
@[simp] theorem State.setSlot_granted (s : State) (j : Nat) (x : Slot) : (s.setSlot j x).granted = s.granted := rfl
@[simp] theorem State.setSlot_mapDue (s : State) (j : Nat) (x : Slot) : (s.setSlot j x).mapDue = s.mapDue := rfl
@[simp] theorem State.setSlot_serial (s : State) (j : Nat) (x : Slot) : (s.setSlot j x).serial = s.serial := rfl
@[simp] theorem State.setSlot_cycRest (s : State) (j : Nat) (x : Slot) : (s.setSlot j x).cycRest = s.cycRest := rfl
@[simp] theorem State.setSlot_deferred (s : State) (j : Nat) (x : Slot) : (s.setSlot j x).deferred = s.deferred := rfl
@[simp] theorem State.setSlot_arrived (s : State) (j : Nat) (x : Slot) : (s.setSlot j x).arrived = s.arrived := rfl
@[simp] theorem State.setSlot_semOps (s : State) (j : Nat) (x : Slot) : (s.setSlot j x).semOps = s.semOps := rfl
@[simp] theorem State.setSlot_raised (s : State) (j : Nat) (x : Slot) : (s.setSlot j x).raised = s.raised := rfl
@[simp] theorem State.setSlot_agedAt (s : State) (j : Nat) (x : Slot) : (s.setSlot j x).agedAt = s.agedAt := rfl
@[simp] theorem State.setSlot_strand (s : State) (j : Nat) (x : Slot) (k : Nat) : (s.setSlot j x).strand k = s.strand k := rfl
@[simp] theorem State.setSlot_core (s : State) (j : Nat) (x : Slot) (k : Nat) : (s.setSlot j x).core k = s.core k := rfl
@[simp] theorem State.setSlot_rope (s : State) (j : Nat) (x : Slot) (k : Nat) : (s.setSlot j x).rope k = s.rope k := rfl
@[simp] theorem State.setSlot_queue (s : State) (j : Nat) (x : Slot) (k : Nat) : (s.setSlot j x).queue k = s.queue k := rfl
@[simp] theorem State.setSlot_engine (s : State) (j : Nat) (x : Slot) (k : Nat) : (s.setSlot j x).engine k = s.engine k := rfl
@[simp] theorem State.setSlot_group (s : State) (j : Nat) (x : Slot) (k : Nat) : (s.setSlot j x).group k = s.group k := rfl
@[simp] theorem State.setSlot_byte (s : State) (j : Nat) (x : Slot) (k : Nat) : (s.setSlot j x).byte k = s.byte k := rfl

/-! ## onSlot -/

@[simp] theorem State.onSlot_strands (s : State) (j : Nat) (f : Slot → Slot) : (s.onSlot j f).strands = s.strands := rfl
@[simp] theorem State.onSlot_cores (s : State) (j : Nat) (f : Slot → Slot) : (s.onSlot j f).cores = s.cores := rfl
@[simp] theorem State.onSlot_ropes (s : State) (j : Nat) (f : Slot → Slot) : (s.onSlot j f).ropes = s.ropes := rfl
@[simp] theorem State.onSlot_queues (s : State) (j : Nat) (f : Slot → Slot) : (s.onSlot j f).queues = s.queues := rfl
@[simp] theorem State.onSlot_engines (s : State) (j : Nat) (f : Slot → Slot) : (s.onSlot j f).engines = s.engines := rfl
@[simp] theorem State.onSlot_groups (s : State) (j : Nat) (f : Slot → Slot) : (s.onSlot j f).groups = s.groups := rfl
@[simp] theorem State.onSlot_mem (s : State) (j : Nat) (f : Slot → Slot) : (s.onSlot j f).mem = s.mem := rfl
@[simp] theorem State.onSlot_full (s : State) (j : Nat) (f : Slot → Slot) : (s.onSlot j f).full = s.full := rfl
@[simp] theorem State.onSlot_tokens (s : State) (j : Nat) (f : Slot → Slot) : (s.onSlot j f).tokens = s.tokens := rfl
@[simp] theorem State.onSlot_transit (s : State) (j : Nat) (f : Slot → Slot) : (s.onSlot j f).transit = s.transit := rfl
@[simp] theorem State.onSlot_sys (s : State) (j : Nat) (f : Slot → Slot) : (s.onSlot j f).sys = s.sys := rfl
@[simp] theorem State.onSlot_fab (s : State) (j : Nat) (f : Slot → Slot) : (s.onSlot j f).fab = s.fab := rfl
@[simp] theorem State.onSlot_cairn (s : State) (j : Nat) (f : Slot → Slot) : (s.onSlot j f).cairn = s.cairn := rfl
@[simp] theorem State.onSlot_host (s : State) (j : Nat) (f : Slot → Slot) : (s.onSlot j f).host = s.host := rfl
@[simp] theorem State.onSlot_plat (s : State) (j : Nat) (f : Slot → Slot) : (s.onSlot j f).plat = s.plat := rfl
@[simp] theorem State.onSlot_cyc (s : State) (j : Nat) (f : Slot → Slot) : (s.onSlot j f).cyc = s.cyc := rfl
@[simp] theorem State.onSlot_cycle (s : State) (j : Nat) (f : Slot → Slot) : (s.onSlot j f).cycle = s.cycle := rfl
@[simp] theorem State.onSlot_devid (s : State) (j : Nat) (f : Slot → Slot) : (s.onSlot j f).devid = s.devid := rfl
@[simp] theorem State.onSlot_turn (s : State) (j : Nat) (f : Slot → Slot) : (s.onSlot j f).turn = s.turn := rfl
@[simp] theorem State.onSlot_issue (s : State) (j : Nat) (f : Slot → Slot) : (s.onSlot j f).issue = s.issue := rfl
@[simp] theorem State.onSlot_agenda (s : State) (j : Nat) (f : Slot → Slot) : (s.onSlot j f).agenda = s.agenda := rfl
@[simp] theorem State.onSlot_freeCount (s : State) (j : Nat) (f : Slot → Slot) : (s.onSlot j f).freeCount = s.freeCount := rfl
@[simp] theorem State.onSlot_granted (s : State) (j : Nat) (f : Slot → Slot) : (s.onSlot j f).granted = s.granted := rfl
@[simp] theorem State.onSlot_mapDue (s : State) (j : Nat) (f : Slot → Slot) : (s.onSlot j f).mapDue = s.mapDue := rfl
@[simp] theorem State.onSlot_serial (s : State) (j : Nat) (f : Slot → Slot) : (s.onSlot j f).serial = s.serial := rfl
@[simp] theorem State.onSlot_cycRest (s : State) (j : Nat) (f : Slot → Slot) : (s.onSlot j f).cycRest = s.cycRest := rfl
@[simp] theorem State.onSlot_deferred (s : State) (j : Nat) (f : Slot → Slot) : (s.onSlot j f).deferred = s.deferred := rfl
@[simp] theorem State.onSlot_arrived (s : State) (j : Nat) (f : Slot → Slot) : (s.onSlot j f).arrived = s.arrived := rfl
@[simp] theorem State.onSlot_semOps (s : State) (j : Nat) (f : Slot → Slot) : (s.onSlot j f).semOps = s.semOps := rfl
@[simp] theorem State.onSlot_raised (s : State) (j : Nat) (f : Slot → Slot) : (s.onSlot j f).raised = s.raised := rfl
@[simp] theorem State.onSlot_agedAt (s : State) (j : Nat) (f : Slot → Slot) : (s.onSlot j f).agedAt = s.agedAt := rfl
@[simp] theorem State.onSlot_strand (s : State) (j : Nat) (f : Slot → Slot) (k : Nat) : (s.onSlot j f).strand k = s.strand k := rfl
@[simp] theorem State.onSlot_core (s : State) (j : Nat) (f : Slot → Slot) (k : Nat) : (s.onSlot j f).core k = s.core k := rfl
@[simp] theorem State.onSlot_rope (s : State) (j : Nat) (f : Slot → Slot) (k : Nat) : (s.onSlot j f).rope k = s.rope k := rfl
@[simp] theorem State.onSlot_queue (s : State) (j : Nat) (f : Slot → Slot) (k : Nat) : (s.onSlot j f).queue k = s.queue k := rfl
@[simp] theorem State.onSlot_engine (s : State) (j : Nat) (f : Slot → Slot) (k : Nat) : (s.onSlot j f).engine k = s.engine k := rfl
@[simp] theorem State.onSlot_group (s : State) (j : Nat) (f : Slot → Slot) (k : Nat) : (s.onSlot j f).group k = s.group k := rfl
@[simp] theorem State.onSlot_byte (s : State) (j : Nat) (f : Slot → Slot) (k : Nat) : (s.onSlot j f).byte k = s.byte k := rfl

/-! ## setQueue -/

@[simp] theorem State.setQueue_strands (s : State) (j : Nat) (x : Queue) : (s.setQueue j x).strands = s.strands := rfl
@[simp] theorem State.setQueue_cores (s : State) (j : Nat) (x : Queue) : (s.setQueue j x).cores = s.cores := rfl
@[simp] theorem State.setQueue_ropes (s : State) (j : Nat) (x : Queue) : (s.setQueue j x).ropes = s.ropes := rfl
@[simp] theorem State.setQueue_slots (s : State) (j : Nat) (x : Queue) : (s.setQueue j x).slots = s.slots := rfl
@[simp] theorem State.setQueue_engines (s : State) (j : Nat) (x : Queue) : (s.setQueue j x).engines = s.engines := rfl
@[simp] theorem State.setQueue_groups (s : State) (j : Nat) (x : Queue) : (s.setQueue j x).groups = s.groups := rfl
@[simp] theorem State.setQueue_mem (s : State) (j : Nat) (x : Queue) : (s.setQueue j x).mem = s.mem := rfl
@[simp] theorem State.setQueue_full (s : State) (j : Nat) (x : Queue) : (s.setQueue j x).full = s.full := rfl
@[simp] theorem State.setQueue_tokens (s : State) (j : Nat) (x : Queue) : (s.setQueue j x).tokens = s.tokens := rfl
@[simp] theorem State.setQueue_transit (s : State) (j : Nat) (x : Queue) : (s.setQueue j x).transit = s.transit := rfl
@[simp] theorem State.setQueue_sys (s : State) (j : Nat) (x : Queue) : (s.setQueue j x).sys = s.sys := rfl
@[simp] theorem State.setQueue_fab (s : State) (j : Nat) (x : Queue) : (s.setQueue j x).fab = s.fab := rfl
@[simp] theorem State.setQueue_cairn (s : State) (j : Nat) (x : Queue) : (s.setQueue j x).cairn = s.cairn := rfl
@[simp] theorem State.setQueue_host (s : State) (j : Nat) (x : Queue) : (s.setQueue j x).host = s.host := rfl
@[simp] theorem State.setQueue_plat (s : State) (j : Nat) (x : Queue) : (s.setQueue j x).plat = s.plat := rfl
@[simp] theorem State.setQueue_cyc (s : State) (j : Nat) (x : Queue) : (s.setQueue j x).cyc = s.cyc := rfl
@[simp] theorem State.setQueue_cycle (s : State) (j : Nat) (x : Queue) : (s.setQueue j x).cycle = s.cycle := rfl
@[simp] theorem State.setQueue_devid (s : State) (j : Nat) (x : Queue) : (s.setQueue j x).devid = s.devid := rfl
@[simp] theorem State.setQueue_turn (s : State) (j : Nat) (x : Queue) : (s.setQueue j x).turn = s.turn := rfl
@[simp] theorem State.setQueue_issue (s : State) (j : Nat) (x : Queue) : (s.setQueue j x).issue = s.issue := rfl
@[simp] theorem State.setQueue_agenda (s : State) (j : Nat) (x : Queue) : (s.setQueue j x).agenda = s.agenda := rfl
@[simp] theorem State.setQueue_freeCount (s : State) (j : Nat) (x : Queue) : (s.setQueue j x).freeCount = s.freeCount := rfl
@[simp] theorem State.setQueue_granted (s : State) (j : Nat) (x : Queue) : (s.setQueue j x).granted = s.granted := rfl
@[simp] theorem State.setQueue_mapDue (s : State) (j : Nat) (x : Queue) : (s.setQueue j x).mapDue = s.mapDue := rfl
@[simp] theorem State.setQueue_serial (s : State) (j : Nat) (x : Queue) : (s.setQueue j x).serial = s.serial := rfl
@[simp] theorem State.setQueue_cycRest (s : State) (j : Nat) (x : Queue) : (s.setQueue j x).cycRest = s.cycRest := rfl
@[simp] theorem State.setQueue_deferred (s : State) (j : Nat) (x : Queue) : (s.setQueue j x).deferred = s.deferred := rfl
@[simp] theorem State.setQueue_arrived (s : State) (j : Nat) (x : Queue) : (s.setQueue j x).arrived = s.arrived := rfl
@[simp] theorem State.setQueue_semOps (s : State) (j : Nat) (x : Queue) : (s.setQueue j x).semOps = s.semOps := rfl
@[simp] theorem State.setQueue_raised (s : State) (j : Nat) (x : Queue) : (s.setQueue j x).raised = s.raised := rfl
@[simp] theorem State.setQueue_agedAt (s : State) (j : Nat) (x : Queue) : (s.setQueue j x).agedAt = s.agedAt := rfl
@[simp] theorem State.setQueue_strand (s : State) (j : Nat) (x : Queue) (k : Nat) : (s.setQueue j x).strand k = s.strand k := rfl
@[simp] theorem State.setQueue_core (s : State) (j : Nat) (x : Queue) (k : Nat) : (s.setQueue j x).core k = s.core k := rfl
@[simp] theorem State.setQueue_rope (s : State) (j : Nat) (x : Queue) (k : Nat) : (s.setQueue j x).rope k = s.rope k := rfl
@[simp] theorem State.setQueue_slot (s : State) (j : Nat) (x : Queue) (k : Nat) : (s.setQueue j x).slot k = s.slot k := rfl
@[simp] theorem State.setQueue_engine (s : State) (j : Nat) (x : Queue) (k : Nat) : (s.setQueue j x).engine k = s.engine k := rfl
@[simp] theorem State.setQueue_group (s : State) (j : Nat) (x : Queue) (k : Nat) : (s.setQueue j x).group k = s.group k := rfl
@[simp] theorem State.setQueue_byte (s : State) (j : Nat) (x : Queue) (k : Nat) : (s.setQueue j x).byte k = s.byte k := rfl

/-! ## onQueue -/

@[simp] theorem State.onQueue_strands (s : State) (j : Nat) (f : Queue → Queue) : (s.onQueue j f).strands = s.strands := rfl
@[simp] theorem State.onQueue_cores (s : State) (j : Nat) (f : Queue → Queue) : (s.onQueue j f).cores = s.cores := rfl
@[simp] theorem State.onQueue_ropes (s : State) (j : Nat) (f : Queue → Queue) : (s.onQueue j f).ropes = s.ropes := rfl
@[simp] theorem State.onQueue_slots (s : State) (j : Nat) (f : Queue → Queue) : (s.onQueue j f).slots = s.slots := rfl
@[simp] theorem State.onQueue_engines (s : State) (j : Nat) (f : Queue → Queue) : (s.onQueue j f).engines = s.engines := rfl
@[simp] theorem State.onQueue_groups (s : State) (j : Nat) (f : Queue → Queue) : (s.onQueue j f).groups = s.groups := rfl
@[simp] theorem State.onQueue_mem (s : State) (j : Nat) (f : Queue → Queue) : (s.onQueue j f).mem = s.mem := rfl
@[simp] theorem State.onQueue_full (s : State) (j : Nat) (f : Queue → Queue) : (s.onQueue j f).full = s.full := rfl
@[simp] theorem State.onQueue_tokens (s : State) (j : Nat) (f : Queue → Queue) : (s.onQueue j f).tokens = s.tokens := rfl
@[simp] theorem State.onQueue_transit (s : State) (j : Nat) (f : Queue → Queue) : (s.onQueue j f).transit = s.transit := rfl
@[simp] theorem State.onQueue_sys (s : State) (j : Nat) (f : Queue → Queue) : (s.onQueue j f).sys = s.sys := rfl
@[simp] theorem State.onQueue_fab (s : State) (j : Nat) (f : Queue → Queue) : (s.onQueue j f).fab = s.fab := rfl
@[simp] theorem State.onQueue_cairn (s : State) (j : Nat) (f : Queue → Queue) : (s.onQueue j f).cairn = s.cairn := rfl
@[simp] theorem State.onQueue_host (s : State) (j : Nat) (f : Queue → Queue) : (s.onQueue j f).host = s.host := rfl
@[simp] theorem State.onQueue_plat (s : State) (j : Nat) (f : Queue → Queue) : (s.onQueue j f).plat = s.plat := rfl
@[simp] theorem State.onQueue_cyc (s : State) (j : Nat) (f : Queue → Queue) : (s.onQueue j f).cyc = s.cyc := rfl
@[simp] theorem State.onQueue_cycle (s : State) (j : Nat) (f : Queue → Queue) : (s.onQueue j f).cycle = s.cycle := rfl
@[simp] theorem State.onQueue_devid (s : State) (j : Nat) (f : Queue → Queue) : (s.onQueue j f).devid = s.devid := rfl
@[simp] theorem State.onQueue_turn (s : State) (j : Nat) (f : Queue → Queue) : (s.onQueue j f).turn = s.turn := rfl
@[simp] theorem State.onQueue_issue (s : State) (j : Nat) (f : Queue → Queue) : (s.onQueue j f).issue = s.issue := rfl
@[simp] theorem State.onQueue_agenda (s : State) (j : Nat) (f : Queue → Queue) : (s.onQueue j f).agenda = s.agenda := rfl
@[simp] theorem State.onQueue_freeCount (s : State) (j : Nat) (f : Queue → Queue) : (s.onQueue j f).freeCount = s.freeCount := rfl
@[simp] theorem State.onQueue_granted (s : State) (j : Nat) (f : Queue → Queue) : (s.onQueue j f).granted = s.granted := rfl
@[simp] theorem State.onQueue_mapDue (s : State) (j : Nat) (f : Queue → Queue) : (s.onQueue j f).mapDue = s.mapDue := rfl
@[simp] theorem State.onQueue_serial (s : State) (j : Nat) (f : Queue → Queue) : (s.onQueue j f).serial = s.serial := rfl
@[simp] theorem State.onQueue_cycRest (s : State) (j : Nat) (f : Queue → Queue) : (s.onQueue j f).cycRest = s.cycRest := rfl
@[simp] theorem State.onQueue_deferred (s : State) (j : Nat) (f : Queue → Queue) : (s.onQueue j f).deferred = s.deferred := rfl
@[simp] theorem State.onQueue_arrived (s : State) (j : Nat) (f : Queue → Queue) : (s.onQueue j f).arrived = s.arrived := rfl
@[simp] theorem State.onQueue_semOps (s : State) (j : Nat) (f : Queue → Queue) : (s.onQueue j f).semOps = s.semOps := rfl
@[simp] theorem State.onQueue_raised (s : State) (j : Nat) (f : Queue → Queue) : (s.onQueue j f).raised = s.raised := rfl
@[simp] theorem State.onQueue_agedAt (s : State) (j : Nat) (f : Queue → Queue) : (s.onQueue j f).agedAt = s.agedAt := rfl
@[simp] theorem State.onQueue_strand (s : State) (j : Nat) (f : Queue → Queue) (k : Nat) : (s.onQueue j f).strand k = s.strand k := rfl
@[simp] theorem State.onQueue_core (s : State) (j : Nat) (f : Queue → Queue) (k : Nat) : (s.onQueue j f).core k = s.core k := rfl
@[simp] theorem State.onQueue_rope (s : State) (j : Nat) (f : Queue → Queue) (k : Nat) : (s.onQueue j f).rope k = s.rope k := rfl
@[simp] theorem State.onQueue_slot (s : State) (j : Nat) (f : Queue → Queue) (k : Nat) : (s.onQueue j f).slot k = s.slot k := rfl
@[simp] theorem State.onQueue_engine (s : State) (j : Nat) (f : Queue → Queue) (k : Nat) : (s.onQueue j f).engine k = s.engine k := rfl
@[simp] theorem State.onQueue_group (s : State) (j : Nat) (f : Queue → Queue) (k : Nat) : (s.onQueue j f).group k = s.group k := rfl
@[simp] theorem State.onQueue_byte (s : State) (j : Nat) (f : Queue → Queue) (k : Nat) : (s.onQueue j f).byte k = s.byte k := rfl

/-! ## setEngine -/

@[simp] theorem State.setEngine_strands (s : State) (j : Nat) (x : Engine) : (s.setEngine j x).strands = s.strands := rfl
@[simp] theorem State.setEngine_cores (s : State) (j : Nat) (x : Engine) : (s.setEngine j x).cores = s.cores := rfl
@[simp] theorem State.setEngine_ropes (s : State) (j : Nat) (x : Engine) : (s.setEngine j x).ropes = s.ropes := rfl
@[simp] theorem State.setEngine_slots (s : State) (j : Nat) (x : Engine) : (s.setEngine j x).slots = s.slots := rfl
@[simp] theorem State.setEngine_queues (s : State) (j : Nat) (x : Engine) : (s.setEngine j x).queues = s.queues := rfl
@[simp] theorem State.setEngine_groups (s : State) (j : Nat) (x : Engine) : (s.setEngine j x).groups = s.groups := rfl
@[simp] theorem State.setEngine_mem (s : State) (j : Nat) (x : Engine) : (s.setEngine j x).mem = s.mem := rfl
@[simp] theorem State.setEngine_full (s : State) (j : Nat) (x : Engine) : (s.setEngine j x).full = s.full := rfl
@[simp] theorem State.setEngine_tokens (s : State) (j : Nat) (x : Engine) : (s.setEngine j x).tokens = s.tokens := rfl
@[simp] theorem State.setEngine_transit (s : State) (j : Nat) (x : Engine) : (s.setEngine j x).transit = s.transit := rfl
@[simp] theorem State.setEngine_sys (s : State) (j : Nat) (x : Engine) : (s.setEngine j x).sys = s.sys := rfl
@[simp] theorem State.setEngine_fab (s : State) (j : Nat) (x : Engine) : (s.setEngine j x).fab = s.fab := rfl
@[simp] theorem State.setEngine_cairn (s : State) (j : Nat) (x : Engine) : (s.setEngine j x).cairn = s.cairn := rfl
@[simp] theorem State.setEngine_host (s : State) (j : Nat) (x : Engine) : (s.setEngine j x).host = s.host := rfl
@[simp] theorem State.setEngine_plat (s : State) (j : Nat) (x : Engine) : (s.setEngine j x).plat = s.plat := rfl
@[simp] theorem State.setEngine_cyc (s : State) (j : Nat) (x : Engine) : (s.setEngine j x).cyc = s.cyc := rfl
@[simp] theorem State.setEngine_cycle (s : State) (j : Nat) (x : Engine) : (s.setEngine j x).cycle = s.cycle := rfl
@[simp] theorem State.setEngine_devid (s : State) (j : Nat) (x : Engine) : (s.setEngine j x).devid = s.devid := rfl
@[simp] theorem State.setEngine_turn (s : State) (j : Nat) (x : Engine) : (s.setEngine j x).turn = s.turn := rfl
@[simp] theorem State.setEngine_issue (s : State) (j : Nat) (x : Engine) : (s.setEngine j x).issue = s.issue := rfl
@[simp] theorem State.setEngine_agenda (s : State) (j : Nat) (x : Engine) : (s.setEngine j x).agenda = s.agenda := rfl
@[simp] theorem State.setEngine_freeCount (s : State) (j : Nat) (x : Engine) : (s.setEngine j x).freeCount = s.freeCount := rfl
@[simp] theorem State.setEngine_granted (s : State) (j : Nat) (x : Engine) : (s.setEngine j x).granted = s.granted := rfl
@[simp] theorem State.setEngine_mapDue (s : State) (j : Nat) (x : Engine) : (s.setEngine j x).mapDue = s.mapDue := rfl
@[simp] theorem State.setEngine_serial (s : State) (j : Nat) (x : Engine) : (s.setEngine j x).serial = s.serial := rfl
@[simp] theorem State.setEngine_cycRest (s : State) (j : Nat) (x : Engine) : (s.setEngine j x).cycRest = s.cycRest := rfl
@[simp] theorem State.setEngine_deferred (s : State) (j : Nat) (x : Engine) : (s.setEngine j x).deferred = s.deferred := rfl
@[simp] theorem State.setEngine_arrived (s : State) (j : Nat) (x : Engine) : (s.setEngine j x).arrived = s.arrived := rfl
@[simp] theorem State.setEngine_semOps (s : State) (j : Nat) (x : Engine) : (s.setEngine j x).semOps = s.semOps := rfl
@[simp] theorem State.setEngine_raised (s : State) (j : Nat) (x : Engine) : (s.setEngine j x).raised = s.raised := rfl
@[simp] theorem State.setEngine_agedAt (s : State) (j : Nat) (x : Engine) : (s.setEngine j x).agedAt = s.agedAt := rfl
@[simp] theorem State.setEngine_strand (s : State) (j : Nat) (x : Engine) (k : Nat) : (s.setEngine j x).strand k = s.strand k := rfl
@[simp] theorem State.setEngine_core (s : State) (j : Nat) (x : Engine) (k : Nat) : (s.setEngine j x).core k = s.core k := rfl
@[simp] theorem State.setEngine_rope (s : State) (j : Nat) (x : Engine) (k : Nat) : (s.setEngine j x).rope k = s.rope k := rfl
@[simp] theorem State.setEngine_slot (s : State) (j : Nat) (x : Engine) (k : Nat) : (s.setEngine j x).slot k = s.slot k := rfl
@[simp] theorem State.setEngine_queue (s : State) (j : Nat) (x : Engine) (k : Nat) : (s.setEngine j x).queue k = s.queue k := rfl
@[simp] theorem State.setEngine_group (s : State) (j : Nat) (x : Engine) (k : Nat) : (s.setEngine j x).group k = s.group k := rfl
@[simp] theorem State.setEngine_byte (s : State) (j : Nat) (x : Engine) (k : Nat) : (s.setEngine j x).byte k = s.byte k := rfl

/-! ## onEngine -/

@[simp] theorem State.onEngine_strands (s : State) (j : Nat) (f : Engine → Engine) : (s.onEngine j f).strands = s.strands := rfl
@[simp] theorem State.onEngine_cores (s : State) (j : Nat) (f : Engine → Engine) : (s.onEngine j f).cores = s.cores := rfl
@[simp] theorem State.onEngine_ropes (s : State) (j : Nat) (f : Engine → Engine) : (s.onEngine j f).ropes = s.ropes := rfl
@[simp] theorem State.onEngine_slots (s : State) (j : Nat) (f : Engine → Engine) : (s.onEngine j f).slots = s.slots := rfl
@[simp] theorem State.onEngine_queues (s : State) (j : Nat) (f : Engine → Engine) : (s.onEngine j f).queues = s.queues := rfl
@[simp] theorem State.onEngine_groups (s : State) (j : Nat) (f : Engine → Engine) : (s.onEngine j f).groups = s.groups := rfl
@[simp] theorem State.onEngine_mem (s : State) (j : Nat) (f : Engine → Engine) : (s.onEngine j f).mem = s.mem := rfl
@[simp] theorem State.onEngine_full (s : State) (j : Nat) (f : Engine → Engine) : (s.onEngine j f).full = s.full := rfl
@[simp] theorem State.onEngine_tokens (s : State) (j : Nat) (f : Engine → Engine) : (s.onEngine j f).tokens = s.tokens := rfl
@[simp] theorem State.onEngine_transit (s : State) (j : Nat) (f : Engine → Engine) : (s.onEngine j f).transit = s.transit := rfl
@[simp] theorem State.onEngine_sys (s : State) (j : Nat) (f : Engine → Engine) : (s.onEngine j f).sys = s.sys := rfl
@[simp] theorem State.onEngine_fab (s : State) (j : Nat) (f : Engine → Engine) : (s.onEngine j f).fab = s.fab := rfl
@[simp] theorem State.onEngine_cairn (s : State) (j : Nat) (f : Engine → Engine) : (s.onEngine j f).cairn = s.cairn := rfl
@[simp] theorem State.onEngine_host (s : State) (j : Nat) (f : Engine → Engine) : (s.onEngine j f).host = s.host := rfl
@[simp] theorem State.onEngine_plat (s : State) (j : Nat) (f : Engine → Engine) : (s.onEngine j f).plat = s.plat := rfl
@[simp] theorem State.onEngine_cyc (s : State) (j : Nat) (f : Engine → Engine) : (s.onEngine j f).cyc = s.cyc := rfl
@[simp] theorem State.onEngine_cycle (s : State) (j : Nat) (f : Engine → Engine) : (s.onEngine j f).cycle = s.cycle := rfl
@[simp] theorem State.onEngine_devid (s : State) (j : Nat) (f : Engine → Engine) : (s.onEngine j f).devid = s.devid := rfl
@[simp] theorem State.onEngine_turn (s : State) (j : Nat) (f : Engine → Engine) : (s.onEngine j f).turn = s.turn := rfl
@[simp] theorem State.onEngine_issue (s : State) (j : Nat) (f : Engine → Engine) : (s.onEngine j f).issue = s.issue := rfl
@[simp] theorem State.onEngine_agenda (s : State) (j : Nat) (f : Engine → Engine) : (s.onEngine j f).agenda = s.agenda := rfl
@[simp] theorem State.onEngine_freeCount (s : State) (j : Nat) (f : Engine → Engine) : (s.onEngine j f).freeCount = s.freeCount := rfl
@[simp] theorem State.onEngine_granted (s : State) (j : Nat) (f : Engine → Engine) : (s.onEngine j f).granted = s.granted := rfl
@[simp] theorem State.onEngine_mapDue (s : State) (j : Nat) (f : Engine → Engine) : (s.onEngine j f).mapDue = s.mapDue := rfl
@[simp] theorem State.onEngine_serial (s : State) (j : Nat) (f : Engine → Engine) : (s.onEngine j f).serial = s.serial := rfl
@[simp] theorem State.onEngine_cycRest (s : State) (j : Nat) (f : Engine → Engine) : (s.onEngine j f).cycRest = s.cycRest := rfl
@[simp] theorem State.onEngine_deferred (s : State) (j : Nat) (f : Engine → Engine) : (s.onEngine j f).deferred = s.deferred := rfl
@[simp] theorem State.onEngine_arrived (s : State) (j : Nat) (f : Engine → Engine) : (s.onEngine j f).arrived = s.arrived := rfl
@[simp] theorem State.onEngine_semOps (s : State) (j : Nat) (f : Engine → Engine) : (s.onEngine j f).semOps = s.semOps := rfl
@[simp] theorem State.onEngine_raised (s : State) (j : Nat) (f : Engine → Engine) : (s.onEngine j f).raised = s.raised := rfl
@[simp] theorem State.onEngine_agedAt (s : State) (j : Nat) (f : Engine → Engine) : (s.onEngine j f).agedAt = s.agedAt := rfl
@[simp] theorem State.onEngine_strand (s : State) (j : Nat) (f : Engine → Engine) (k : Nat) : (s.onEngine j f).strand k = s.strand k := rfl
@[simp] theorem State.onEngine_core (s : State) (j : Nat) (f : Engine → Engine) (k : Nat) : (s.onEngine j f).core k = s.core k := rfl
@[simp] theorem State.onEngine_rope (s : State) (j : Nat) (f : Engine → Engine) (k : Nat) : (s.onEngine j f).rope k = s.rope k := rfl
@[simp] theorem State.onEngine_slot (s : State) (j : Nat) (f : Engine → Engine) (k : Nat) : (s.onEngine j f).slot k = s.slot k := rfl
@[simp] theorem State.onEngine_queue (s : State) (j : Nat) (f : Engine → Engine) (k : Nat) : (s.onEngine j f).queue k = s.queue k := rfl
@[simp] theorem State.onEngine_group (s : State) (j : Nat) (f : Engine → Engine) (k : Nat) : (s.onEngine j f).group k = s.group k := rfl
@[simp] theorem State.onEngine_byte (s : State) (j : Nat) (f : Engine → Engine) (k : Nat) : (s.onEngine j f).byte k = s.byte k := rfl

/-! ## setGroup -/

@[simp] theorem State.setGroup_strands (s : State) (j : Nat) (x : Group) : (s.setGroup j x).strands = s.strands := rfl
@[simp] theorem State.setGroup_cores (s : State) (j : Nat) (x : Group) : (s.setGroup j x).cores = s.cores := rfl
@[simp] theorem State.setGroup_ropes (s : State) (j : Nat) (x : Group) : (s.setGroup j x).ropes = s.ropes := rfl
@[simp] theorem State.setGroup_slots (s : State) (j : Nat) (x : Group) : (s.setGroup j x).slots = s.slots := rfl
@[simp] theorem State.setGroup_queues (s : State) (j : Nat) (x : Group) : (s.setGroup j x).queues = s.queues := rfl
@[simp] theorem State.setGroup_engines (s : State) (j : Nat) (x : Group) : (s.setGroup j x).engines = s.engines := rfl
@[simp] theorem State.setGroup_mem (s : State) (j : Nat) (x : Group) : (s.setGroup j x).mem = s.mem := rfl
@[simp] theorem State.setGroup_full (s : State) (j : Nat) (x : Group) : (s.setGroup j x).full = s.full := rfl
@[simp] theorem State.setGroup_tokens (s : State) (j : Nat) (x : Group) : (s.setGroup j x).tokens = s.tokens := rfl
@[simp] theorem State.setGroup_transit (s : State) (j : Nat) (x : Group) : (s.setGroup j x).transit = s.transit := rfl
@[simp] theorem State.setGroup_sys (s : State) (j : Nat) (x : Group) : (s.setGroup j x).sys = s.sys := rfl
@[simp] theorem State.setGroup_fab (s : State) (j : Nat) (x : Group) : (s.setGroup j x).fab = s.fab := rfl
@[simp] theorem State.setGroup_cairn (s : State) (j : Nat) (x : Group) : (s.setGroup j x).cairn = s.cairn := rfl
@[simp] theorem State.setGroup_host (s : State) (j : Nat) (x : Group) : (s.setGroup j x).host = s.host := rfl
@[simp] theorem State.setGroup_plat (s : State) (j : Nat) (x : Group) : (s.setGroup j x).plat = s.plat := rfl
@[simp] theorem State.setGroup_cyc (s : State) (j : Nat) (x : Group) : (s.setGroup j x).cyc = s.cyc := rfl
@[simp] theorem State.setGroup_cycle (s : State) (j : Nat) (x : Group) : (s.setGroup j x).cycle = s.cycle := rfl
@[simp] theorem State.setGroup_devid (s : State) (j : Nat) (x : Group) : (s.setGroup j x).devid = s.devid := rfl
@[simp] theorem State.setGroup_turn (s : State) (j : Nat) (x : Group) : (s.setGroup j x).turn = s.turn := rfl
@[simp] theorem State.setGroup_issue (s : State) (j : Nat) (x : Group) : (s.setGroup j x).issue = s.issue := rfl
@[simp] theorem State.setGroup_agenda (s : State) (j : Nat) (x : Group) : (s.setGroup j x).agenda = s.agenda := rfl
@[simp] theorem State.setGroup_freeCount (s : State) (j : Nat) (x : Group) : (s.setGroup j x).freeCount = s.freeCount := rfl
@[simp] theorem State.setGroup_granted (s : State) (j : Nat) (x : Group) : (s.setGroup j x).granted = s.granted := rfl
@[simp] theorem State.setGroup_mapDue (s : State) (j : Nat) (x : Group) : (s.setGroup j x).mapDue = s.mapDue := rfl
@[simp] theorem State.setGroup_serial (s : State) (j : Nat) (x : Group) : (s.setGroup j x).serial = s.serial := rfl
@[simp] theorem State.setGroup_cycRest (s : State) (j : Nat) (x : Group) : (s.setGroup j x).cycRest = s.cycRest := rfl
@[simp] theorem State.setGroup_deferred (s : State) (j : Nat) (x : Group) : (s.setGroup j x).deferred = s.deferred := rfl
@[simp] theorem State.setGroup_arrived (s : State) (j : Nat) (x : Group) : (s.setGroup j x).arrived = s.arrived := rfl
@[simp] theorem State.setGroup_semOps (s : State) (j : Nat) (x : Group) : (s.setGroup j x).semOps = s.semOps := rfl
@[simp] theorem State.setGroup_raised (s : State) (j : Nat) (x : Group) : (s.setGroup j x).raised = s.raised := rfl
@[simp] theorem State.setGroup_agedAt (s : State) (j : Nat) (x : Group) : (s.setGroup j x).agedAt = s.agedAt := rfl
@[simp] theorem State.setGroup_strand (s : State) (j : Nat) (x : Group) (k : Nat) : (s.setGroup j x).strand k = s.strand k := rfl
@[simp] theorem State.setGroup_core (s : State) (j : Nat) (x : Group) (k : Nat) : (s.setGroup j x).core k = s.core k := rfl
@[simp] theorem State.setGroup_rope (s : State) (j : Nat) (x : Group) (k : Nat) : (s.setGroup j x).rope k = s.rope k := rfl
@[simp] theorem State.setGroup_slot (s : State) (j : Nat) (x : Group) (k : Nat) : (s.setGroup j x).slot k = s.slot k := rfl
@[simp] theorem State.setGroup_queue (s : State) (j : Nat) (x : Group) (k : Nat) : (s.setGroup j x).queue k = s.queue k := rfl
@[simp] theorem State.setGroup_engine (s : State) (j : Nat) (x : Group) (k : Nat) : (s.setGroup j x).engine k = s.engine k := rfl
@[simp] theorem State.setGroup_byte (s : State) (j : Nat) (x : Group) (k : Nat) : (s.setGroup j x).byte k = s.byte k := rfl

/-! ## onGroup -/

@[simp] theorem State.onGroup_strands (s : State) (j : Nat) (f : Group → Group) : (s.onGroup j f).strands = s.strands := rfl
@[simp] theorem State.onGroup_cores (s : State) (j : Nat) (f : Group → Group) : (s.onGroup j f).cores = s.cores := rfl
@[simp] theorem State.onGroup_ropes (s : State) (j : Nat) (f : Group → Group) : (s.onGroup j f).ropes = s.ropes := rfl
@[simp] theorem State.onGroup_slots (s : State) (j : Nat) (f : Group → Group) : (s.onGroup j f).slots = s.slots := rfl
@[simp] theorem State.onGroup_queues (s : State) (j : Nat) (f : Group → Group) : (s.onGroup j f).queues = s.queues := rfl
@[simp] theorem State.onGroup_engines (s : State) (j : Nat) (f : Group → Group) : (s.onGroup j f).engines = s.engines := rfl
@[simp] theorem State.onGroup_mem (s : State) (j : Nat) (f : Group → Group) : (s.onGroup j f).mem = s.mem := rfl
@[simp] theorem State.onGroup_full (s : State) (j : Nat) (f : Group → Group) : (s.onGroup j f).full = s.full := rfl
@[simp] theorem State.onGroup_tokens (s : State) (j : Nat) (f : Group → Group) : (s.onGroup j f).tokens = s.tokens := rfl
@[simp] theorem State.onGroup_transit (s : State) (j : Nat) (f : Group → Group) : (s.onGroup j f).transit = s.transit := rfl
@[simp] theorem State.onGroup_sys (s : State) (j : Nat) (f : Group → Group) : (s.onGroup j f).sys = s.sys := rfl
@[simp] theorem State.onGroup_fab (s : State) (j : Nat) (f : Group → Group) : (s.onGroup j f).fab = s.fab := rfl
@[simp] theorem State.onGroup_cairn (s : State) (j : Nat) (f : Group → Group) : (s.onGroup j f).cairn = s.cairn := rfl
@[simp] theorem State.onGroup_host (s : State) (j : Nat) (f : Group → Group) : (s.onGroup j f).host = s.host := rfl
@[simp] theorem State.onGroup_plat (s : State) (j : Nat) (f : Group → Group) : (s.onGroup j f).plat = s.plat := rfl
@[simp] theorem State.onGroup_cyc (s : State) (j : Nat) (f : Group → Group) : (s.onGroup j f).cyc = s.cyc := rfl
@[simp] theorem State.onGroup_cycle (s : State) (j : Nat) (f : Group → Group) : (s.onGroup j f).cycle = s.cycle := rfl
@[simp] theorem State.onGroup_devid (s : State) (j : Nat) (f : Group → Group) : (s.onGroup j f).devid = s.devid := rfl
@[simp] theorem State.onGroup_turn (s : State) (j : Nat) (f : Group → Group) : (s.onGroup j f).turn = s.turn := rfl
@[simp] theorem State.onGroup_issue (s : State) (j : Nat) (f : Group → Group) : (s.onGroup j f).issue = s.issue := rfl
@[simp] theorem State.onGroup_agenda (s : State) (j : Nat) (f : Group → Group) : (s.onGroup j f).agenda = s.agenda := rfl
@[simp] theorem State.onGroup_freeCount (s : State) (j : Nat) (f : Group → Group) : (s.onGroup j f).freeCount = s.freeCount := rfl
@[simp] theorem State.onGroup_granted (s : State) (j : Nat) (f : Group → Group) : (s.onGroup j f).granted = s.granted := rfl
@[simp] theorem State.onGroup_mapDue (s : State) (j : Nat) (f : Group → Group) : (s.onGroup j f).mapDue = s.mapDue := rfl
@[simp] theorem State.onGroup_serial (s : State) (j : Nat) (f : Group → Group) : (s.onGroup j f).serial = s.serial := rfl
@[simp] theorem State.onGroup_cycRest (s : State) (j : Nat) (f : Group → Group) : (s.onGroup j f).cycRest = s.cycRest := rfl
@[simp] theorem State.onGroup_deferred (s : State) (j : Nat) (f : Group → Group) : (s.onGroup j f).deferred = s.deferred := rfl
@[simp] theorem State.onGroup_arrived (s : State) (j : Nat) (f : Group → Group) : (s.onGroup j f).arrived = s.arrived := rfl
@[simp] theorem State.onGroup_semOps (s : State) (j : Nat) (f : Group → Group) : (s.onGroup j f).semOps = s.semOps := rfl
@[simp] theorem State.onGroup_raised (s : State) (j : Nat) (f : Group → Group) : (s.onGroup j f).raised = s.raised := rfl
@[simp] theorem State.onGroup_agedAt (s : State) (j : Nat) (f : Group → Group) : (s.onGroup j f).agedAt = s.agedAt := rfl
@[simp] theorem State.onGroup_strand (s : State) (j : Nat) (f : Group → Group) (k : Nat) : (s.onGroup j f).strand k = s.strand k := rfl
@[simp] theorem State.onGroup_core (s : State) (j : Nat) (f : Group → Group) (k : Nat) : (s.onGroup j f).core k = s.core k := rfl
@[simp] theorem State.onGroup_rope (s : State) (j : Nat) (f : Group → Group) (k : Nat) : (s.onGroup j f).rope k = s.rope k := rfl
@[simp] theorem State.onGroup_slot (s : State) (j : Nat) (f : Group → Group) (k : Nat) : (s.onGroup j f).slot k = s.slot k := rfl
@[simp] theorem State.onGroup_queue (s : State) (j : Nat) (f : Group → Group) (k : Nat) : (s.onGroup j f).queue k = s.queue k := rfl
@[simp] theorem State.onGroup_engine (s : State) (j : Nat) (f : Group → Group) (k : Nat) : (s.onGroup j f).engine k = s.engine k := rfl
@[simp] theorem State.onGroup_byte (s : State) (j : Nat) (f : Group → Group) (k : Nat) : (s.onGroup j f).byte k = s.byte k := rfl

/-! ## setByte -/

@[simp] theorem State.setByte_strands (s : State) (j : Nat) (b : Byte) : (s.setByte j b).strands = s.strands := rfl
@[simp] theorem State.setByte_cores (s : State) (j : Nat) (b : Byte) : (s.setByte j b).cores = s.cores := rfl
@[simp] theorem State.setByte_ropes (s : State) (j : Nat) (b : Byte) : (s.setByte j b).ropes = s.ropes := rfl
@[simp] theorem State.setByte_slots (s : State) (j : Nat) (b : Byte) : (s.setByte j b).slots = s.slots := rfl
@[simp] theorem State.setByte_queues (s : State) (j : Nat) (b : Byte) : (s.setByte j b).queues = s.queues := rfl
@[simp] theorem State.setByte_engines (s : State) (j : Nat) (b : Byte) : (s.setByte j b).engines = s.engines := rfl
@[simp] theorem State.setByte_groups (s : State) (j : Nat) (b : Byte) : (s.setByte j b).groups = s.groups := rfl
@[simp] theorem State.setByte_full (s : State) (j : Nat) (b : Byte) : (s.setByte j b).full = s.full := rfl
@[simp] theorem State.setByte_tokens (s : State) (j : Nat) (b : Byte) : (s.setByte j b).tokens = s.tokens := rfl
@[simp] theorem State.setByte_transit (s : State) (j : Nat) (b : Byte) : (s.setByte j b).transit = s.transit := rfl
@[simp] theorem State.setByte_sys (s : State) (j : Nat) (b : Byte) : (s.setByte j b).sys = s.sys := rfl
@[simp] theorem State.setByte_fab (s : State) (j : Nat) (b : Byte) : (s.setByte j b).fab = s.fab := rfl
@[simp] theorem State.setByte_cairn (s : State) (j : Nat) (b : Byte) : (s.setByte j b).cairn = s.cairn := rfl
@[simp] theorem State.setByte_host (s : State) (j : Nat) (b : Byte) : (s.setByte j b).host = s.host := rfl
@[simp] theorem State.setByte_plat (s : State) (j : Nat) (b : Byte) : (s.setByte j b).plat = s.plat := rfl
@[simp] theorem State.setByte_cyc (s : State) (j : Nat) (b : Byte) : (s.setByte j b).cyc = s.cyc := rfl
@[simp] theorem State.setByte_cycle (s : State) (j : Nat) (b : Byte) : (s.setByte j b).cycle = s.cycle := rfl
@[simp] theorem State.setByte_devid (s : State) (j : Nat) (b : Byte) : (s.setByte j b).devid = s.devid := rfl
@[simp] theorem State.setByte_turn (s : State) (j : Nat) (b : Byte) : (s.setByte j b).turn = s.turn := rfl
@[simp] theorem State.setByte_issue (s : State) (j : Nat) (b : Byte) : (s.setByte j b).issue = s.issue := rfl
@[simp] theorem State.setByte_agenda (s : State) (j : Nat) (b : Byte) : (s.setByte j b).agenda = s.agenda := rfl
@[simp] theorem State.setByte_freeCount (s : State) (j : Nat) (b : Byte) : (s.setByte j b).freeCount = s.freeCount := rfl
@[simp] theorem State.setByte_granted (s : State) (j : Nat) (b : Byte) : (s.setByte j b).granted = s.granted := rfl
@[simp] theorem State.setByte_mapDue (s : State) (j : Nat) (b : Byte) : (s.setByte j b).mapDue = s.mapDue := rfl
@[simp] theorem State.setByte_serial (s : State) (j : Nat) (b : Byte) : (s.setByte j b).serial = s.serial := rfl
@[simp] theorem State.setByte_cycRest (s : State) (j : Nat) (b : Byte) : (s.setByte j b).cycRest = s.cycRest := rfl
@[simp] theorem State.setByte_deferred (s : State) (j : Nat) (b : Byte) : (s.setByte j b).deferred = s.deferred := rfl
@[simp] theorem State.setByte_arrived (s : State) (j : Nat) (b : Byte) : (s.setByte j b).arrived = s.arrived := rfl
@[simp] theorem State.setByte_semOps (s : State) (j : Nat) (b : Byte) : (s.setByte j b).semOps = s.semOps := rfl
@[simp] theorem State.setByte_raised (s : State) (j : Nat) (b : Byte) : (s.setByte j b).raised = s.raised := rfl
@[simp] theorem State.setByte_agedAt (s : State) (j : Nat) (b : Byte) : (s.setByte j b).agedAt = s.agedAt := rfl
@[simp] theorem State.setByte_strand (s : State) (j : Nat) (b : Byte) (k : Nat) : (s.setByte j b).strand k = s.strand k := rfl
@[simp] theorem State.setByte_core (s : State) (j : Nat) (b : Byte) (k : Nat) : (s.setByte j b).core k = s.core k := rfl
@[simp] theorem State.setByte_rope (s : State) (j : Nat) (b : Byte) (k : Nat) : (s.setByte j b).rope k = s.rope k := rfl
@[simp] theorem State.setByte_slot (s : State) (j : Nat) (b : Byte) (k : Nat) : (s.setByte j b).slot k = s.slot k := rfl
@[simp] theorem State.setByte_queue (s : State) (j : Nat) (b : Byte) (k : Nat) : (s.setByte j b).queue k = s.queue k := rfl
@[simp] theorem State.setByte_engine (s : State) (j : Nat) (b : Byte) (k : Nat) : (s.setByte j b).engine k = s.engine k := rfl
@[simp] theorem State.setByte_group (s : State) (j : Nat) (b : Byte) (k : Nat) : (s.setByte j b).group k = s.group k := rfl

/-! ## clearRange -/

@[simp] theorem State.clearRange_strands (s : State) (j n : Nat) : (s.clearRange j n).strands = s.strands := rfl
@[simp] theorem State.clearRange_cores (s : State) (j n : Nat) : (s.clearRange j n).cores = s.cores := rfl
@[simp] theorem State.clearRange_ropes (s : State) (j n : Nat) : (s.clearRange j n).ropes = s.ropes := rfl
@[simp] theorem State.clearRange_slots (s : State) (j n : Nat) : (s.clearRange j n).slots = s.slots := rfl
@[simp] theorem State.clearRange_queues (s : State) (j n : Nat) : (s.clearRange j n).queues = s.queues := rfl
@[simp] theorem State.clearRange_engines (s : State) (j n : Nat) : (s.clearRange j n).engines = s.engines := rfl
@[simp] theorem State.clearRange_groups (s : State) (j n : Nat) : (s.clearRange j n).groups = s.groups := rfl
@[simp] theorem State.clearRange_full (s : State) (j n : Nat) : (s.clearRange j n).full = s.full := rfl
@[simp] theorem State.clearRange_tokens (s : State) (j n : Nat) : (s.clearRange j n).tokens = s.tokens := rfl
@[simp] theorem State.clearRange_transit (s : State) (j n : Nat) : (s.clearRange j n).transit = s.transit := rfl
@[simp] theorem State.clearRange_sys (s : State) (j n : Nat) : (s.clearRange j n).sys = s.sys := rfl
@[simp] theorem State.clearRange_fab (s : State) (j n : Nat) : (s.clearRange j n).fab = s.fab := rfl
@[simp] theorem State.clearRange_cairn (s : State) (j n : Nat) : (s.clearRange j n).cairn = s.cairn := rfl
@[simp] theorem State.clearRange_host (s : State) (j n : Nat) : (s.clearRange j n).host = s.host := rfl
@[simp] theorem State.clearRange_plat (s : State) (j n : Nat) : (s.clearRange j n).plat = s.plat := rfl
@[simp] theorem State.clearRange_cyc (s : State) (j n : Nat) : (s.clearRange j n).cyc = s.cyc := rfl
@[simp] theorem State.clearRange_cycle (s : State) (j n : Nat) : (s.clearRange j n).cycle = s.cycle := rfl
@[simp] theorem State.clearRange_devid (s : State) (j n : Nat) : (s.clearRange j n).devid = s.devid := rfl
@[simp] theorem State.clearRange_turn (s : State) (j n : Nat) : (s.clearRange j n).turn = s.turn := rfl
@[simp] theorem State.clearRange_issue (s : State) (j n : Nat) : (s.clearRange j n).issue = s.issue := rfl
@[simp] theorem State.clearRange_agenda (s : State) (j n : Nat) : (s.clearRange j n).agenda = s.agenda := rfl
@[simp] theorem State.clearRange_freeCount (s : State) (j n : Nat) : (s.clearRange j n).freeCount = s.freeCount := rfl
@[simp] theorem State.clearRange_granted (s : State) (j n : Nat) : (s.clearRange j n).granted = s.granted := rfl
@[simp] theorem State.clearRange_mapDue (s : State) (j n : Nat) : (s.clearRange j n).mapDue = s.mapDue := rfl
@[simp] theorem State.clearRange_serial (s : State) (j n : Nat) : (s.clearRange j n).serial = s.serial := rfl
@[simp] theorem State.clearRange_cycRest (s : State) (j n : Nat) : (s.clearRange j n).cycRest = s.cycRest := rfl
@[simp] theorem State.clearRange_deferred (s : State) (j n : Nat) : (s.clearRange j n).deferred = s.deferred := rfl
@[simp] theorem State.clearRange_arrived (s : State) (j n : Nat) : (s.clearRange j n).arrived = s.arrived := rfl
@[simp] theorem State.clearRange_semOps (s : State) (j n : Nat) : (s.clearRange j n).semOps = s.semOps := rfl
@[simp] theorem State.clearRange_raised (s : State) (j n : Nat) : (s.clearRange j n).raised = s.raised := rfl
@[simp] theorem State.clearRange_agedAt (s : State) (j n : Nat) : (s.clearRange j n).agedAt = s.agedAt := rfl
@[simp] theorem State.clearRange_strand (s : State) (j n : Nat) (k : Nat) : (s.clearRange j n).strand k = s.strand k := rfl
@[simp] theorem State.clearRange_core (s : State) (j n : Nat) (k : Nat) : (s.clearRange j n).core k = s.core k := rfl
@[simp] theorem State.clearRange_rope (s : State) (j n : Nat) (k : Nat) : (s.clearRange j n).rope k = s.rope k := rfl
@[simp] theorem State.clearRange_slot (s : State) (j n : Nat) (k : Nat) : (s.clearRange j n).slot k = s.slot k := rfl
@[simp] theorem State.clearRange_queue (s : State) (j n : Nat) (k : Nat) : (s.clearRange j n).queue k = s.queue k := rfl
@[simp] theorem State.clearRange_engine (s : State) (j n : Nat) (k : Nat) : (s.clearRange j n).engine k = s.engine k := rfl
@[simp] theorem State.clearRange_group (s : State) (j n : Nat) (k : Nat) : (s.clearRange j n).group k = s.group k := rfl

/-! ## onMe -/

@[simp] theorem State.onMe_cores (s : State) (f : Strand → Strand) : (s.onMe f).cores = s.cores := rfl
@[simp] theorem State.onMe_ropes (s : State) (f : Strand → Strand) : (s.onMe f).ropes = s.ropes := rfl
@[simp] theorem State.onMe_slots (s : State) (f : Strand → Strand) : (s.onMe f).slots = s.slots := rfl
@[simp] theorem State.onMe_queues (s : State) (f : Strand → Strand) : (s.onMe f).queues = s.queues := rfl
@[simp] theorem State.onMe_engines (s : State) (f : Strand → Strand) : (s.onMe f).engines = s.engines := rfl
@[simp] theorem State.onMe_groups (s : State) (f : Strand → Strand) : (s.onMe f).groups = s.groups := rfl
@[simp] theorem State.onMe_mem (s : State) (f : Strand → Strand) : (s.onMe f).mem = s.mem := rfl
@[simp] theorem State.onMe_full (s : State) (f : Strand → Strand) : (s.onMe f).full = s.full := rfl
@[simp] theorem State.onMe_tokens (s : State) (f : Strand → Strand) : (s.onMe f).tokens = s.tokens := rfl
@[simp] theorem State.onMe_transit (s : State) (f : Strand → Strand) : (s.onMe f).transit = s.transit := rfl
@[simp] theorem State.onMe_sys (s : State) (f : Strand → Strand) : (s.onMe f).sys = s.sys := rfl
@[simp] theorem State.onMe_fab (s : State) (f : Strand → Strand) : (s.onMe f).fab = s.fab := rfl
@[simp] theorem State.onMe_cairn (s : State) (f : Strand → Strand) : (s.onMe f).cairn = s.cairn := rfl
@[simp] theorem State.onMe_host (s : State) (f : Strand → Strand) : (s.onMe f).host = s.host := rfl
@[simp] theorem State.onMe_plat (s : State) (f : Strand → Strand) : (s.onMe f).plat = s.plat := rfl
@[simp] theorem State.onMe_cyc (s : State) (f : Strand → Strand) : (s.onMe f).cyc = s.cyc := rfl
@[simp] theorem State.onMe_cycle (s : State) (f : Strand → Strand) : (s.onMe f).cycle = s.cycle := rfl
@[simp] theorem State.onMe_devid (s : State) (f : Strand → Strand) : (s.onMe f).devid = s.devid := rfl
@[simp] theorem State.onMe_turn (s : State) (f : Strand → Strand) : (s.onMe f).turn = s.turn := rfl
@[simp] theorem State.onMe_issue (s : State) (f : Strand → Strand) : (s.onMe f).issue = s.issue := rfl
@[simp] theorem State.onMe_agenda (s : State) (f : Strand → Strand) : (s.onMe f).agenda = s.agenda := rfl
@[simp] theorem State.onMe_freeCount (s : State) (f : Strand → Strand) : (s.onMe f).freeCount = s.freeCount := rfl
@[simp] theorem State.onMe_granted (s : State) (f : Strand → Strand) : (s.onMe f).granted = s.granted := rfl
@[simp] theorem State.onMe_mapDue (s : State) (f : Strand → Strand) : (s.onMe f).mapDue = s.mapDue := rfl
@[simp] theorem State.onMe_serial (s : State) (f : Strand → Strand) : (s.onMe f).serial = s.serial := rfl
@[simp] theorem State.onMe_cycRest (s : State) (f : Strand → Strand) : (s.onMe f).cycRest = s.cycRest := rfl
@[simp] theorem State.onMe_deferred (s : State) (f : Strand → Strand) : (s.onMe f).deferred = s.deferred := rfl
@[simp] theorem State.onMe_arrived (s : State) (f : Strand → Strand) : (s.onMe f).arrived = s.arrived := rfl
@[simp] theorem State.onMe_semOps (s : State) (f : Strand → Strand) : (s.onMe f).semOps = s.semOps := rfl
@[simp] theorem State.onMe_raised (s : State) (f : Strand → Strand) : (s.onMe f).raised = s.raised := rfl
@[simp] theorem State.onMe_agedAt (s : State) (f : Strand → Strand) : (s.onMe f).agedAt = s.agedAt := rfl
@[simp] theorem State.onMe_core (s : State) (f : Strand → Strand) (k : Nat) : (s.onMe f).core k = s.core k := rfl
@[simp] theorem State.onMe_rope (s : State) (f : Strand → Strand) (k : Nat) : (s.onMe f).rope k = s.rope k := rfl
@[simp] theorem State.onMe_slot (s : State) (f : Strand → Strand) (k : Nat) : (s.onMe f).slot k = s.slot k := rfl
@[simp] theorem State.onMe_queue (s : State) (f : Strand → Strand) (k : Nat) : (s.onMe f).queue k = s.queue k := rfl
@[simp] theorem State.onMe_engine (s : State) (f : Strand → Strand) (k : Nat) : (s.onMe f).engine k = s.engine k := rfl
@[simp] theorem State.onMe_group (s : State) (f : Strand → Strand) (k : Nat) : (s.onMe f).group k = s.group k := rfl
@[simp] theorem State.onMe_byte (s : State) (f : Strand → Strand) (k : Nat) : (s.onMe f).byte k = s.byte k := rfl

/-! ## onIssue -/

@[simp] theorem State.onIssue_strands (s : State) (f : Issue → Issue) : (s.onIssue f).strands = s.strands := rfl
@[simp] theorem State.onIssue_cores (s : State) (f : Issue → Issue) : (s.onIssue f).cores = s.cores := rfl
@[simp] theorem State.onIssue_ropes (s : State) (f : Issue → Issue) : (s.onIssue f).ropes = s.ropes := rfl
@[simp] theorem State.onIssue_slots (s : State) (f : Issue → Issue) : (s.onIssue f).slots = s.slots := rfl
@[simp] theorem State.onIssue_queues (s : State) (f : Issue → Issue) : (s.onIssue f).queues = s.queues := rfl
@[simp] theorem State.onIssue_engines (s : State) (f : Issue → Issue) : (s.onIssue f).engines = s.engines := rfl
@[simp] theorem State.onIssue_groups (s : State) (f : Issue → Issue) : (s.onIssue f).groups = s.groups := rfl
@[simp] theorem State.onIssue_mem (s : State) (f : Issue → Issue) : (s.onIssue f).mem = s.mem := rfl
@[simp] theorem State.onIssue_full (s : State) (f : Issue → Issue) : (s.onIssue f).full = s.full := rfl
@[simp] theorem State.onIssue_tokens (s : State) (f : Issue → Issue) : (s.onIssue f).tokens = s.tokens := rfl
@[simp] theorem State.onIssue_transit (s : State) (f : Issue → Issue) : (s.onIssue f).transit = s.transit := rfl
@[simp] theorem State.onIssue_sys (s : State) (f : Issue → Issue) : (s.onIssue f).sys = s.sys := rfl
@[simp] theorem State.onIssue_fab (s : State) (f : Issue → Issue) : (s.onIssue f).fab = s.fab := rfl
@[simp] theorem State.onIssue_cairn (s : State) (f : Issue → Issue) : (s.onIssue f).cairn = s.cairn := rfl
@[simp] theorem State.onIssue_host (s : State) (f : Issue → Issue) : (s.onIssue f).host = s.host := rfl
@[simp] theorem State.onIssue_plat (s : State) (f : Issue → Issue) : (s.onIssue f).plat = s.plat := rfl
@[simp] theorem State.onIssue_cyc (s : State) (f : Issue → Issue) : (s.onIssue f).cyc = s.cyc := rfl
@[simp] theorem State.onIssue_cycle (s : State) (f : Issue → Issue) : (s.onIssue f).cycle = s.cycle := rfl
@[simp] theorem State.onIssue_devid (s : State) (f : Issue → Issue) : (s.onIssue f).devid = s.devid := rfl
@[simp] theorem State.onIssue_turn (s : State) (f : Issue → Issue) : (s.onIssue f).turn = s.turn := rfl
@[simp] theorem State.onIssue_agenda (s : State) (f : Issue → Issue) : (s.onIssue f).agenda = s.agenda := rfl
@[simp] theorem State.onIssue_freeCount (s : State) (f : Issue → Issue) : (s.onIssue f).freeCount = s.freeCount := rfl
@[simp] theorem State.onIssue_granted (s : State) (f : Issue → Issue) : (s.onIssue f).granted = s.granted := rfl
@[simp] theorem State.onIssue_mapDue (s : State) (f : Issue → Issue) : (s.onIssue f).mapDue = s.mapDue := rfl
@[simp] theorem State.onIssue_serial (s : State) (f : Issue → Issue) : (s.onIssue f).serial = s.serial := rfl
@[simp] theorem State.onIssue_cycRest (s : State) (f : Issue → Issue) : (s.onIssue f).cycRest = s.cycRest := rfl
@[simp] theorem State.onIssue_deferred (s : State) (f : Issue → Issue) : (s.onIssue f).deferred = s.deferred := rfl
@[simp] theorem State.onIssue_arrived (s : State) (f : Issue → Issue) : (s.onIssue f).arrived = s.arrived := rfl
@[simp] theorem State.onIssue_semOps (s : State) (f : Issue → Issue) : (s.onIssue f).semOps = s.semOps := rfl
@[simp] theorem State.onIssue_raised (s : State) (f : Issue → Issue) : (s.onIssue f).raised = s.raised := rfl
@[simp] theorem State.onIssue_agedAt (s : State) (f : Issue → Issue) : (s.onIssue f).agedAt = s.agedAt := rfl
@[simp] theorem State.onIssue_strand (s : State) (f : Issue → Issue) (k : Nat) : (s.onIssue f).strand k = s.strand k := rfl
@[simp] theorem State.onIssue_core (s : State) (f : Issue → Issue) (k : Nat) : (s.onIssue f).core k = s.core k := rfl
@[simp] theorem State.onIssue_rope (s : State) (f : Issue → Issue) (k : Nat) : (s.onIssue f).rope k = s.rope k := rfl
@[simp] theorem State.onIssue_slot (s : State) (f : Issue → Issue) (k : Nat) : (s.onIssue f).slot k = s.slot k := rfl
@[simp] theorem State.onIssue_queue (s : State) (f : Issue → Issue) (k : Nat) : (s.onIssue f).queue k = s.queue k := rfl
@[simp] theorem State.onIssue_engine (s : State) (f : Issue → Issue) (k : Nat) : (s.onIssue f).engine k = s.engine k := rfl
@[simp] theorem State.onIssue_group (s : State) (f : Issue → Issue) (k : Nat) : (s.onIssue f).group k = s.group k := rfl
@[simp] theorem State.onIssue_byte (s : State) (f : Issue → Issue) (k : Nat) : (s.onIssue f).byte k = s.byte k := rfl

/-! ## raise -/

@[simp] theorem State.raise_strands (s : State) (m : Nat) : (s.raise m).strands = s.strands := rfl
@[simp] theorem State.raise_cores (s : State) (m : Nat) : (s.raise m).cores = s.cores := rfl
@[simp] theorem State.raise_ropes (s : State) (m : Nat) : (s.raise m).ropes = s.ropes := rfl
@[simp] theorem State.raise_slots (s : State) (m : Nat) : (s.raise m).slots = s.slots := rfl
@[simp] theorem State.raise_queues (s : State) (m : Nat) : (s.raise m).queues = s.queues := rfl
@[simp] theorem State.raise_engines (s : State) (m : Nat) : (s.raise m).engines = s.engines := rfl
@[simp] theorem State.raise_groups (s : State) (m : Nat) : (s.raise m).groups = s.groups := rfl
@[simp] theorem State.raise_mem (s : State) (m : Nat) : (s.raise m).mem = s.mem := rfl
@[simp] theorem State.raise_full (s : State) (m : Nat) : (s.raise m).full = s.full := rfl
@[simp] theorem State.raise_tokens (s : State) (m : Nat) : (s.raise m).tokens = s.tokens := rfl
@[simp] theorem State.raise_transit (s : State) (m : Nat) : (s.raise m).transit = s.transit := rfl
@[simp] theorem State.raise_sys (s : State) (m : Nat) : (s.raise m).sys = s.sys := rfl
@[simp] theorem State.raise_fab (s : State) (m : Nat) : (s.raise m).fab = s.fab := rfl
@[simp] theorem State.raise_cairn (s : State) (m : Nat) : (s.raise m).cairn = s.cairn := rfl
@[simp] theorem State.raise_host (s : State) (m : Nat) : (s.raise m).host = s.host := rfl
@[simp] theorem State.raise_plat (s : State) (m : Nat) : (s.raise m).plat = s.plat := rfl
@[simp] theorem State.raise_cyc (s : State) (m : Nat) : (s.raise m).cyc = s.cyc := rfl
@[simp] theorem State.raise_cycle (s : State) (m : Nat) : (s.raise m).cycle = s.cycle := rfl
@[simp] theorem State.raise_devid (s : State) (m : Nat) : (s.raise m).devid = s.devid := rfl
@[simp] theorem State.raise_turn (s : State) (m : Nat) : (s.raise m).turn = s.turn := rfl
@[simp] theorem State.raise_agenda (s : State) (m : Nat) : (s.raise m).agenda = s.agenda := rfl
@[simp] theorem State.raise_freeCount (s : State) (m : Nat) : (s.raise m).freeCount = s.freeCount := rfl
@[simp] theorem State.raise_granted (s : State) (m : Nat) : (s.raise m).granted = s.granted := rfl
@[simp] theorem State.raise_mapDue (s : State) (m : Nat) : (s.raise m).mapDue = s.mapDue := rfl
@[simp] theorem State.raise_serial (s : State) (m : Nat) : (s.raise m).serial = s.serial := rfl
@[simp] theorem State.raise_cycRest (s : State) (m : Nat) : (s.raise m).cycRest = s.cycRest := rfl
@[simp] theorem State.raise_deferred (s : State) (m : Nat) : (s.raise m).deferred = s.deferred := rfl
@[simp] theorem State.raise_arrived (s : State) (m : Nat) : (s.raise m).arrived = s.arrived := rfl
@[simp] theorem State.raise_semOps (s : State) (m : Nat) : (s.raise m).semOps = s.semOps := rfl
@[simp] theorem State.raise_raised (s : State) (m : Nat) : (s.raise m).raised = s.raised := rfl
@[simp] theorem State.raise_agedAt (s : State) (m : Nat) : (s.raise m).agedAt = s.agedAt := rfl
@[simp] theorem State.raise_strand (s : State) (m : Nat) (k : Nat) : (s.raise m).strand k = s.strand k := rfl
@[simp] theorem State.raise_core (s : State) (m : Nat) (k : Nat) : (s.raise m).core k = s.core k := rfl
@[simp] theorem State.raise_rope (s : State) (m : Nat) (k : Nat) : (s.raise m).rope k = s.rope k := rfl
@[simp] theorem State.raise_slot (s : State) (m : Nat) (k : Nat) : (s.raise m).slot k = s.slot k := rfl
@[simp] theorem State.raise_queue (s : State) (m : Nat) (k : Nat) : (s.raise m).queue k = s.queue k := rfl
@[simp] theorem State.raise_engine (s : State) (m : Nat) (k : Nat) : (s.raise m).engine k = s.engine k := rfl
@[simp] theorem State.raise_group (s : State) (m : Nat) (k : Nat) : (s.raise m).group k = s.group k := rfl
@[simp] theorem State.raise_byte (s : State) (m : Nat) (k : Nat) : (s.raise m).byte k = s.byte k := rfl

/-! ## Reading back -/

@[simp] theorem State.setStrand_strand (s : State) (k : Nat) (x : Strand) : (s.setStrand k x).strand k = x := Table.get_set_same _ _ _ _

theorem State.setStrand_strand_other (s : State) (k j : Nat) (x : Strand) (h : j ≠ k) : (s.setStrand k x).strand j = s.strand j :=
  Table.get_set_other _ _ _ _ _ h

@[simp] theorem State.onStrand_strand (s : State) (k : Nat) (f : Strand → Strand) : (s.onStrand k f).strand k = f (s.strand k) :=
  State.setStrand_strand _ _ _

theorem State.onStrand_strand_other (s : State) (k j : Nat) (f : Strand → Strand) (h : j ≠ k) : (s.onStrand k f).strand j = s.strand j :=
  State.setStrand_strand_other _ _ _ _ h

@[simp] theorem State.setCore_core (s : State) (k : Nat) (x : Core) : (s.setCore k x).core k = x := Table.get_set_same _ _ _ _

theorem State.setCore_core_other (s : State) (k j : Nat) (x : Core) (h : j ≠ k) : (s.setCore k x).core j = s.core j :=
  Table.get_set_other _ _ _ _ _ h

@[simp] theorem State.onCore_core (s : State) (k : Nat) (f : Core → Core) : (s.onCore k f).core k = f (s.core k) :=
  State.setCore_core _ _ _

theorem State.onCore_core_other (s : State) (k j : Nat) (f : Core → Core) (h : j ≠ k) : (s.onCore k f).core j = s.core j :=
  State.setCore_core_other _ _ _ _ h

@[simp] theorem State.setRope_rope (s : State) (k : Nat) (x : Rope) : (s.setRope k x).rope k = x := Table.get_set_same _ _ _ _

theorem State.setRope_rope_other (s : State) (k j : Nat) (x : Rope) (h : j ≠ k) : (s.setRope k x).rope j = s.rope j :=
  Table.get_set_other _ _ _ _ _ h

@[simp] theorem State.onRope_rope (s : State) (k : Nat) (f : Rope → Rope) : (s.onRope k f).rope k = f (s.rope k) :=
  State.setRope_rope _ _ _

theorem State.onRope_rope_other (s : State) (k j : Nat) (f : Rope → Rope) (h : j ≠ k) : (s.onRope k f).rope j = s.rope j :=
  State.setRope_rope_other _ _ _ _ h

@[simp] theorem State.setSlot_slot (s : State) (k : Nat) (x : Slot) : (s.setSlot k x).slot k = x := Table.get_set_same _ _ _ _

theorem State.setSlot_slot_other (s : State) (k j : Nat) (x : Slot) (h : j ≠ k) : (s.setSlot k x).slot j = s.slot j :=
  Table.get_set_other _ _ _ _ _ h

@[simp] theorem State.onSlot_slot (s : State) (k : Nat) (f : Slot → Slot) : (s.onSlot k f).slot k = f (s.slot k) :=
  State.setSlot_slot _ _ _

theorem State.onSlot_slot_other (s : State) (k j : Nat) (f : Slot → Slot) (h : j ≠ k) : (s.onSlot k f).slot j = s.slot j :=
  State.setSlot_slot_other _ _ _ _ h

@[simp] theorem State.setQueue_queue (s : State) (k : Nat) (x : Queue) : (s.setQueue k x).queue k = x := Table.get_set_same _ _ _ _

theorem State.setQueue_queue_other (s : State) (k j : Nat) (x : Queue) (h : j ≠ k) : (s.setQueue k x).queue j = s.queue j :=
  Table.get_set_other _ _ _ _ _ h

@[simp] theorem State.onQueue_queue (s : State) (k : Nat) (f : Queue → Queue) : (s.onQueue k f).queue k = f (s.queue k) :=
  State.setQueue_queue _ _ _

theorem State.onQueue_queue_other (s : State) (k j : Nat) (f : Queue → Queue) (h : j ≠ k) : (s.onQueue k f).queue j = s.queue j :=
  State.setQueue_queue_other _ _ _ _ h

@[simp] theorem State.setEngine_engine (s : State) (k : Nat) (x : Engine) : (s.setEngine k x).engine k = x := Table.get_set_same _ _ _ _

theorem State.setEngine_engine_other (s : State) (k j : Nat) (x : Engine) (h : j ≠ k) : (s.setEngine k x).engine j = s.engine j :=
  Table.get_set_other _ _ _ _ _ h

@[simp] theorem State.onEngine_engine (s : State) (k : Nat) (f : Engine → Engine) : (s.onEngine k f).engine k = f (s.engine k) :=
  State.setEngine_engine _ _ _

theorem State.onEngine_engine_other (s : State) (k j : Nat) (f : Engine → Engine) (h : j ≠ k) : (s.onEngine k f).engine j = s.engine j :=
  State.setEngine_engine_other _ _ _ _ h

@[simp] theorem State.setGroup_group (s : State) (k : Nat) (x : Group) : (s.setGroup k x).group k = x := Table.get_set_same _ _ _ _

theorem State.setGroup_group_other (s : State) (k j : Nat) (x : Group) (h : j ≠ k) : (s.setGroup k x).group j = s.group j :=
  Table.get_set_other _ _ _ _ _ h

@[simp] theorem State.onGroup_group (s : State) (k : Nat) (f : Group → Group) : (s.onGroup k f).group k = f (s.group k) :=
  State.setGroup_group _ _ _

theorem State.onGroup_group_other (s : State) (k j : Nat) (f : Group → Group) (h : j ≠ k) : (s.onGroup k f).group j = s.group j :=
  State.setGroup_group_other _ _ _ _ h

/-! ## The issuing strand -/

@[simp] theorem State.onMe_me (s : State) (f : Strand → Strand) : (s.onMe f).me = f s.me := State.onStrand_strand _ _ _

theorem State.onMe_strand_other (s : State) (f : Strand → Strand) (k : Nat) (h : k ≠ s.issue.strand) :
    (s.onMe f).strand k = s.strand k := State.onStrand_strand_other _ _ _ _ h

@[simp] theorem State.onIssue_issue (s : State) (f : Issue → Issue) : (s.onIssue f).issue = f s.issue := rfl

theorem State.onIssue_me (s : State) (f : Issue → Issue) (h : (f s.issue).strand = s.issue.strand) :
    (s.onIssue f).me = s.me := by
  simp only [State.me, State.onIssue_issue, h]; rfl

@[simp] theorem State.raise_me (s : State) (m : Nat) : (s.raise m).me = s.me := rfl

@[simp] theorem State.setByte_me (s : State) (l : Nat) (b : Byte) : (s.setByte l b).me = s.me := rfl

@[simp] theorem State.clearRange_me (s : State) (l n : Nat) : (s.clearRange l n).me = s.me := rfl

@[simp] theorem State.setCore_me (s : State) (k : Nat) (x : Core) : (s.setCore k x).me = s.me := rfl

@[simp] theorem State.onCore_me (s : State) (k : Nat) (f : Core → Core) : (s.onCore k f).me = s.me := rfl

@[simp] theorem State.setRope_me (s : State) (k : Nat) (x : Rope) : (s.setRope k x).me = s.me := rfl

@[simp] theorem State.onRope_me (s : State) (k : Nat) (f : Rope → Rope) : (s.onRope k f).me = s.me := rfl

@[simp] theorem State.setSlot_me (s : State) (k : Nat) (x : Slot) : (s.setSlot k x).me = s.me := rfl

@[simp] theorem State.onSlot_me (s : State) (k : Nat) (f : Slot → Slot) : (s.onSlot k f).me = s.me := rfl

@[simp] theorem State.setQueue_me (s : State) (k : Nat) (x : Queue) : (s.setQueue k x).me = s.me := rfl

@[simp] theorem State.onQueue_me (s : State) (k : Nat) (f : Queue → Queue) : (s.onQueue k f).me = s.me := rfl

@[simp] theorem State.setEngine_me (s : State) (k : Nat) (x : Engine) : (s.setEngine k x).me = s.me := rfl

@[simp] theorem State.onEngine_me (s : State) (k : Nat) (f : Engine → Engine) : (s.onEngine k f).me = s.me := rfl

@[simp] theorem State.setGroup_me (s : State) (k : Nat) (x : Group) : (s.setGroup k x).me = s.me := rfl

@[simp] theorem State.onGroup_me (s : State) (k : Nat) (f : Group → Group) : (s.onGroup k f).me = s.me := rfl

theorem State.onStrand_me_other (s : State) (k : Nat) (f : Strand → Strand) (h : s.issue.strand ≠ k) :
    (s.onStrand k f).me = s.me := State.onStrand_strand_other _ _ _ _ h

/-! ## Registers of a strand (R51, R52) -/

@[simp] theorem Strand.get_s0 (x : Strand) : x.get (.s 0) = 0 := rfl

@[simp] theorem Strand.get_p0 (x : Strand) : x.get (.p 0) = 2 ^ 128 - 1 := rfl

/-- A write to a fixed register changes nothing. -/
theorem Strand.put_fixed (x : Strand) (d : Dest) (v : Nat) (h : d.fixed = true) : x.put d v = x := by
  match d with
  | .s 0 | .p 0 | .tile _ => rfl

end Sys2Proof.Machine
end

