-- ==== Sys2Proof/Laws/Gate.lean ====
section
/-! SUPPORT. What performing stores, releasing a gate and opening a bundle can change. -/

namespace Sys2Proof.Machine

/-! ## Waits that a write meets -/

theorem Strand.Noted.refl (x : Strand) : x.Noted x := ⟨x.met, rfl⟩

theorem Strand.Noted.trans {x y z : Strand} (h : x.Noted y) (k : y.Noted z) : x.Noted z := by
  obtain ⟨_, rfl⟩ := h
  obtain ⟨m, rfl⟩ := k
  exact ⟨m, rfl⟩

theorem Slot.Noted.refl (x : Slot) : x.Noted x := ⟨id, by cases x; simp⟩

theorem Slot.Noted.trans {x y z : Slot} (h : x.Noted y) (k : y.Noted z) : x.Noted z := by
  obtain ⟨m, rfl⟩ := h
  obtain ⟨n, rfl⟩ := k
  exact ⟨n ∘ m, by cases x; simp [Option.map_map, Function.comp_def]⟩

/-! ## Performing stores -/

/-- The second state differs from the first in cores, groups, memory, caches, the protected-state units and the host
interface, and in notes of waits that are met. -/
def Stored (s t : State) : Prop :=
  (∃ x l c g m y a h, t = { s with strands := x, slots := l, cores := c, groups := g, mem := m, sys := y, cairn := a, host := h }) ∧
    (∀ k, (s.strand k).Noted (t.strand k)) ∧ ∀ h, (s.slot h).Noted (t.slot h)

/-- A state with other cores, groups, memory, caches, protected-state units or host interface. -/
theorem Stored.of_rest {s t : State} (hs : t.strands = s.strands) (hl : t.slots = s.slots)
    (h : ∃ x l c g m y a h, t = { s with strands := x, slots := l, cores := c, groups := g, mem := m, sys := y, cairn := a, host := h }) :
    Stored s t := by
  refine ⟨h, fun k => ?_, fun k => ?_⟩
  · unfold State.strand; rw [hs]; exact .refl _
  · unfold State.slot; rw [hl]; exact .refl _

theorem Stored.refl (s : State) : Stored s s := .of_rest rfl rfl ⟨_, _, _, _, _, _, _, _, rfl⟩

theorem Stored.trans {s t u : State} (h : Stored s t) (k : Stored t u) : Stored s u := by
  refine ⟨?_, fun i => (h.2.1 i).trans (k.2.1 i), fun i => (h.2.2 i).trans (k.2.2 i)⟩
  obtain ⟨⟨x, l, c, g, m, y, a, o, rfl⟩, -⟩ := h
  obtain ⟨⟨x, l, c, g, m, y, a, o, rfl⟩, -⟩ := k
  exact ⟨_, _, _, _, _, _, _, _, rfl⟩

theorem Stored.foldl {α : Type} (f : State → α → State) (h : ∀ s a, Stored s (f s a)) (l : List α) (s : State) :
    Stored s (l.foldl f s) := by
  induction l generalizing s with
  | nil => exact .refl s
  | cons a l ih => exact (h s a).trans (ih _)

/-- A write is told to those that wait: notes of waits that are met change (R263, R307). -/
theorem State.recount_stored (s : State) : Stored s s.recount := by
  refine ⟨⟨_, _, _, _, _, _, _, _, rfl⟩, fun k => ?_, fun h => ?_⟩
  · have e := Table.get_mapVal (fun k (x : Strand) => if s.countMet k x then { x with met := some 0 } else x) s.strands {} k
    unfold State.strand
    rw [show Table.get s.recount.strands {} k = _ from e]
    unfold Table.get
    cases Table.find s.strands k with
    | none => exact .refl _
    | some x =>
      simp only [Option.elim_some, Option.getD_some]
      split
      · exact ⟨_, rfl⟩
      · exact .refl _
  · have e := Table.get_mapVal (fun _ (x : Slot) => { x with gang := x.gang.map (fun g =>
      if s.depNow g then { g with depMet := true } else g) }) s.slots {} h
    unfold State.slot
    rw [show Table.get s.recount.slots {} h = _ from e]
    unfold Table.get
    cases Table.find s.slots h with
    | none => exact .refl _
    | some x =>
      obtain ⟨q, g, a, e⟩ := x
      simp only [Option.elim_some, Option.getD_some]
      cases g with
      | none => exact .refl _
      | some g =>
        simp only [Option.map_some]
        split
        · exact ⟨fun _ => true, rfl⟩
        · exact .refl _

theorem State.onCore_stored (s : State) (c : Nat) (f : Core → Core) : Stored s (s.onCore c f) :=
  .of_rest rfl rfl ⟨_, _, _, _, _, _, _, _, rfl⟩

theorem State.setSys_stored (s : State) (y : Mem) : Stored s { s with sys := y } :=
  .of_rest rfl rfl ⟨_, _, _, _, _, _, _, _, rfl⟩

theorem State.setCairn_stored (s : State) (y : Cairn) : Stored s { s with cairn := y } :=
  .of_rest rfl rfl ⟨_, _, _, _, _, _, _, _, rfl⟩

theorem State.setGroup_stored (s : State) (g : Nat) (x : Group) : Stored s (s.setGroup g x) :=
  .of_rest rfl rfl ⟨_, _, _, _, _, _, _, _, rfl⟩

theorem State.setByte_stored (s : State) (l : Nat) (b : Byte) : Stored s (s.setByte l b) :=
  .of_rest rfl rfl ⟨_, _, _, _, _, _, _, _, rfl⟩

theorem State.setBytes_stored (s : State) (l : List (Nat × Byte)) : Stored s (s.setBytes l) := by
  induction l generalizing s with
  | nil => exact .refl s
  | cons e l ih => exact (s.setByte_stored e.1 e.2).trans (ih _)

theorem State.setNum_stored (s : State) (l n v : Nat) : Stored s (s.setNum l n v) := s.setBytes_stored _

theorem State.msix_stored (s : State) (v : Nat) : Stored s (s.msix v) := by
  unfold State.msix; split
  · exact .refl s
  split <;> exact .of_rest rfl rfl ⟨_, _, _, _, _, _, _, _, rfl⟩

theorem State.postEvent_stored (s : State) (k q d : Nat) : Stored s (s.postEvent k q d) := by
  unfold State.postEvent
  split
  · exact .refl s
  · refine Stored.trans ?_ (State.msix_stored _ _)
    refine Stored.trans ?_ (State.setNum_stored _ _ _ _)
    refine Stored.trans ?_ (State.setNum_stored _ _ _ _)
    refine Stored.trans ?_ (State.setNum_stored _ _ _ _)
    refine Stored.trans ?_ (State.setNum_stored _ _ _ _)
    refine Stored.trans ?_ (State.setNum_stored _ _ _ _)
    exact .of_rest rfl rfl ⟨_, _, _, _, _, _, _, _, rfl⟩

theorem State.openEntry_stored (s : State) (g o e b w : Nat) (l : List Byte) : Stored s (s.openEntry g o e b w l) := by
  unfold State.openEntry
  dsimp only
  refine Stored.trans ?_ (State.setSys_stored _ _)
  exact (s.setNum_stored _ _ _).trans (State.setBytes_stored _ _)

theorem State.capture_stored (s : State) (line : Nat) : Stored s (s.capture line) := by
  unfold State.capture
  split
  · exact .refl s
  · dsimp only
    split
    · exact .refl s
    · split
      · exact s.setGroup_stored _ _
      · have h : ∀ (g : Nat) (x : Group) (e : Undo) (b : Nat) (line : Nat) (l : List Byte) (y : Cairn),
            Stored s ({ (s.setGroup g x).openEntry g e.reg e.place b line l with cairn := y } : State) :=
          fun g x e b line l y =>
            ((s.setGroup_stored g x).trans (State.openEntry_stored _ _ _ _ _ _ _)).trans (State.setCairn_stored _ _)
        split
        · exact (h _ _ _ _ _ _ _).trans (State.postEvent_stored _ _ _ _)
        · exact h _ _ _ _ _ _ _

theorem State.captureFor_stored (s : State) (l : List Nat) : Stored s (s.captureFor l) := by
  unfold State.captureFor
  split
  · exact .refl s
  · exact Stored.foldl _ State.capture_stored _ s

theorem State.evictL2_stored (s : State) (i line : Nat) : Stored s (s.evictL2 i line) := s.setSys_stored _

theorem State.useL2_stored (s : State) (sec ev : Nat) : Stored s (s.useL2 sec ev) := by
  unfold State.useL2
  dsimp only
  split
  · exact .refl s
  · refine Stored.trans ?_ (State.setSys_stored _ _)
    split
    · exact .refl s
    · split
      · exact s.evictL2_stored _ _
      · exact .refl s

theorem State.dirtyL2_stored (s : State) (sec ev : Nat) : Stored s (s.dirtyL2 sec ev) := by
  unfold State.dirtyL2
  refine (s.useL2_stored sec ev).trans ?_
  generalize s.useL2 sec ev = t
  dsimp only
  cases Table.find t.sys.below sec with
  | some _ => exact .refl t
  | none =>
    dsimp only
    split
    · exact .refl t
    · exact t.setSys_stored _

theorem State.putBytes_stored (s : State) (cells : List (Nat × Byte)) : Stored s (s.putBytes cells) :=
  (s.setBytes_stored cells).trans (State.setSys_stored _ _)

theorem State.writeHome_stored (s : State) (cells : List (Nat × Byte)) (l : List Nat) (ev : Nat) :
    Stored s (s.writeHome cells l ev) := by
  unfold State.writeHome
  refine Stored.trans ?_ (State.recount_stored _)
  refine Stored.trans ?_ (State.putBytes_stored _ _)
  exact (s.captureFor_stored _).trans (Stored.foldl _ (fun s _ => s.dirtyL2_stored _ _) _ _)

theorem State.cleanL1_stored (s : State) (c sec : Nat) : Stored s (s.cleanL1 c sec) := by
  unfold State.cleanL1
  split
  · exact (s.writeHome_stored _ _ _).trans (State.onCore_stored _ _ _)
  · exact .refl s

theorem State.evictL1_stored (s : State) (c line : Nat) : Stored s (s.evictL1 c line) :=
  (Stored.foldl _ (fun s _ => s.cleanL1_stored _ _) _ s).trans (State.onCore_stored _ _ _)

theorem State.useL1_stored (s : State) (c sec ev : Nat) : Stored s (s.useL1 c sec ev) := by
  unfold State.useL1
  dsimp only
  refine Stored.trans ?_ (State.onCore_stored _ _ _)
  split
  · exact .refl s
  · split
    · exact s.evictL1_stored _ _
    · exact .refl s

theorem State.sendHome_stored (s : State) (x : Store) : Stored s (s.sendHome x) := by
  unfold State.sendHome
  split
  · exact .refl s
  · split
    · exact s.setSys_stored _
    · exact s.writeHome_stored _ _ _

/-- A store that performs changes cores, groups, memory, caches, undo entries, the host interface and notes of waits at
most. -/
theorem State.perform_stored (s : State) (x : Store) : Stored s (s.perform x) := by
  unfold State.perform
  generalize (if (s.core x.core).hasL1 = true then x else { x with held := [], cached := x.cached ++ x.held }) = x
  dsimp only
  refine Stored.trans ?_ (State.onCore_stored _ _ _)
  refine Stored.trans ?_ (State.sendHome_stored _ _)
  have h : Stored s (x.held.foldl (fun s sec => (s.useL1 x.core sec x.ev).onCore x.core (fun c =>
      let old := (Table.find c.l1 sec).getD (s.homeSector sec)
      { c with l1 := Table.set c.l1 sec (patchSector sec old x.cells)
               l1Dirty := if c.l1Dirty.contains sec then c.l1Dirty else sec :: c.l1Dirty }))
      (x.cached.foldl (fun s sec =>
        if (Table.find (s.core x.core).l1 sec).isSome then s.useL1 x.core sec x.ev else s) s)) := by
    refine Stored.trans (Stored.foldl _ (fun s sec => ?_) _ s)
      (Stored.foldl _ (fun s _ => (s.useL1_stored _ _ _).trans (State.onCore_stored _ _ _)) _ _)
    split
    · exact s.useL1_stored _ _ _
    · exact .refl s
  split
  · exact h
  · exact h.trans (State.recount_stored _)

/-- The same, and the agenda: a store to a device register is a posted write. -/
def Released (s t : State) : Prop :=
  (∃ x l c g m y a h e, t = { s with strands := x, slots := l, cores := c, groups := g, mem := m, sys := y, cairn := a, host := h
                                     agenda := e }) ∧
    (∀ k, (s.strand k).Noted (t.strand k)) ∧ ∀ h, (s.slot h).Noted (t.slot h)

theorem Stored.released {s t : State} (h : Stored s t) : Released s t := by
  refine ⟨?_, h.2⟩
  obtain ⟨⟨x, l, c, g, m, y, a, o, rfl⟩, -⟩ := h
  exact ⟨_, _, _, _, _, _, _, _, _, rfl⟩

theorem Released.refl (s : State) : Released s s := (Stored.refl s).released

theorem Released.trans {s t u : State} (h : Released s t) (k : Released t u) : Released s u := by
  refine ⟨?_, fun i => (h.2.1 i).trans (k.2.1 i), fun i => (h.2.2 i).trans (k.2.2 i)⟩
  obtain ⟨⟨x, l, c, g, m, y, a, o, e, rfl⟩, -⟩ := h
  obtain ⟨⟨x, l, c, g, m, y, a, o, e, rfl⟩, -⟩ := k
  exact ⟨_, _, _, _, _, _, _, _, _, rfl⟩

theorem State.release_released (s : State) (x : Store) : Released s (s.release x) := by
  unfold State.release
  split
  · exact ⟨⟨_, _, _, _, _, _, _, _, _, rfl⟩, fun _ => .refl _, fun _ => .refl _⟩
  · exact (s.perform_stored x).released

theorem State.releaseAll_released (l : List Store) (s : State) : Released s (l.foldl (fun s x => s.release x) s) := by
  induction l generalizing s with
  | nil => exact .refl s
  | cons a l ih => exact (s.release_released a).trans (ih _)

/-- Releasing the gate of a strand empties it, and otherwise changes no strand (R39). -/
theorem State.releaseGate_released (s : State) (k : Nat) :
    Released (s.onStrand k (fun x => { x with gate := [] })) (s.releaseGate k) :=
  State.releaseAll_released _ _

end Sys2Proof.Machine
end

