-- ==== Sys2Proof/Laws/Memory.lean ====
section
/-! SUPPORT. Memory: reading a byte after a write, and the canonical form, which every memory operation keeps. -/

namespace Sys2Proof.Machine

/-! ## Reading after writing -/

@[simp] theorem State.byte_setByte_same (s : State) (l : Nat) (b : Byte) : (s.setByte l b).byte l = b :=
  Table.get_put_same s.mem Memory.empty l b

theorem State.byte_setByte_other (s : State) (l a : Nat) (b : Byte) (h : a ≠ l) : (s.setByte l b).byte a = s.byte a :=
  Table.get_put_other s.mem Memory.empty l a b h

/-- A byte that no cell of a write names reads as it did. -/
theorem State.byte_setBytes_other (l : List (Nat × Byte)) (s : State) (a : Nat) (h : ∀ c ∈ l, c.1 ≠ a) :
    (s.setBytes l).byte a = s.byte a := by
  induction l generalizing s with
  | nil => rfl
  | cons c l ih =>
    obtain ⟨k, b⟩ := c
    rw [State.setBytes, ih _ (fun c hc => h c (List.mem_cons_of_mem _ hc)),
      State.byte_setByte_other _ _ _ _ (Ne.symm (h (k, b) List.mem_cons_self))]

/-- Where the cells of a write name distinct locations, each holds its byte afterwards. -/
theorem State.byte_setBytes_mem (l : List (Nat × Byte)) (s : State) (h : (l.map (·.1)).Nodup) (c : Nat × Byte)
    (hc : c ∈ l) : (s.setBytes l).byte c.1 = c.2 := by
  induction l generalizing s with
  | nil => simp at hc
  | cons d l ih =>
    obtain ⟨k, b⟩ := d
    simp only [List.map_cons, List.nodup_cons] at h
    rw [State.setBytes]
    rcases List.mem_cons.mp hc with rfl | hc
    · rw [State.byte_setBytes_other l _ k (fun e he hk => h.1 (hk ▸ List.mem_map_of_mem he)), State.byte_setByte_same]
    · exact ih _ h.2 hc

/-- Two states whose memories are canonical hold equal memories as soon as every byte reads alike. -/
theorem State.mem_ext (s t : State) (hs : Memory.wf s.mem = true) (ht : Memory.wf t.mem = true)
    (h : ∀ a, s.byte a = t.byte a) : s.mem = t.mem := Table.canon_ext s.mem t.mem Memory.empty hs ht h

/-! ## The canonical form -/

/-- Canonical memory stays canonical. -/
structure CanonKept (s t : State) : Prop where
  kept : Memory.wf s.mem = true → Memory.wf t.mem = true

theorem CanonKept.refl (s : State) : CanonKept s s := ⟨id⟩

theorem CanonKept.of_eq {s t : State} (h : t.mem = s.mem) : CanonKept s t := ⟨fun hs => h ▸ hs⟩

theorem CanonKept.trans {s t u : State} (h : CanonKept s t) (k : CanonKept t u) : CanonKept s u :=
  ⟨fun hs => k.kept (h.kept hs)⟩

theorem CanonKept.foldl {α : Type} (f : State → α → State) (h : ∀ s a, CanonKept s (f s a)) (l : List α) (s : State) :
    CanonKept s (l.foldl f s) := by
  induction l generalizing s with
  | nil => exact .refl s
  | cons a l ih => exact (h s a).trans (ih _)

theorem State.onCore_canon (s : State) (c : Nat) (f : Core → Core) : CanonKept s (s.onCore c f) := .of_eq rfl

theorem State.onStrand_canon (s : State) (k : Nat) (f : Strand → Strand) : CanonKept s (s.onStrand k f) := .of_eq rfl

theorem State.setGroup_canon (s : State) (g : Nat) (x : Group) : CanonKept s (s.setGroup g x) := .of_eq rfl

theorem State.setSys_canon (s : State) (y : Mem) : CanonKept s { s with sys := y } := .of_eq rfl

theorem State.setByte_canon (s : State) (l : Nat) (b : Byte) : CanonKept s (s.setByte l b) :=
  ⟨Table.canon_put s.mem Memory.empty l b⟩

theorem State.setBytes_canon (l : List (Nat × Byte)) (s : State) : CanonKept s (s.setBytes l) := by
  induction l generalizing s with
  | nil => exact .refl s
  | cons c l ih => exact (s.setByte_canon c.1 c.2).trans (ih _)

theorem State.setNum_canon (s : State) (l n v : Nat) : CanonKept s (s.setNum l n v) := State.setBytes_canon _ s

theorem State.clearRange_canon (s : State) (lo n : Nat) : CanonKept s (s.clearRange lo n) :=
  ⟨Table.canon_filter s.mem Memory.empty _⟩

theorem State.setSector_canon (s : State) (sec : Nat) (v : Sector) : CanonKept s (s.setSector sec v) := s.setNum_canon _ _ _

theorem State.msix_canon (s : State) (v : Nat) : CanonKept s (s.msix v) := by
  unfold State.msix; split
  · exact .refl s
  split <;> exact .of_eq rfl

theorem State.postEvent_canon (s : State) (k q d : Nat) : CanonKept s (s.postEvent k q d) := by
  unfold State.postEvent
  split
  · exact .refl s
  · refine CanonKept.trans ?_ (State.msix_canon _ _)
    refine CanonKept.trans ?_ (State.setNum_canon _ _ _ _)
    refine CanonKept.trans ?_ (State.setNum_canon _ _ _ _)
    refine CanonKept.trans ?_ (State.setNum_canon _ _ _ _)
    refine CanonKept.trans ?_ (State.setNum_canon _ _ _ _)
    refine CanonKept.trans ?_ (State.setNum_canon _ _ _ _)
    exact .of_eq rfl

theorem State.openEntry_canon (s : State) (g o e b w : Nat) (l : List Byte) : CanonKept s (s.openEntry g o e b w l) := by
  unfold State.openEntry
  dsimp only
  refine CanonKept.trans ?_ (State.setSys_canon _ _)
  exact (s.setNum_canon _ _ _).trans (State.setBytes_canon _ _)

theorem State.capture_canon (s : State) (line : Nat) : CanonKept s (s.capture line) := by
  unfold State.capture
  split
  · exact .refl s
  · dsimp only
    split
    · exact .refl s
    · split
      · exact s.setGroup_canon _ _
      · have h : ∀ (g : Nat) (x : Group) (e : Undo) (b : Nat) (line : Nat) (l : List Byte) (y : Cairn),
            CanonKept s ({ (s.setGroup g x).openEntry g e.reg e.place b line l with cairn := y } : State) :=
          fun g x e b line l y =>
            ((s.setGroup_canon g x).trans (State.openEntry_canon _ _ _ _ _ _ _)).trans (.of_eq rfl)
        split
        · exact (h _ _ _ _ _ _ _).trans (State.postEvent_canon _ _ _ _)
        · exact h _ _ _ _ _ _ _

theorem State.captureFor_canon (s : State) (l : List Nat) : CanonKept s (s.captureFor l) := by
  unfold State.captureFor
  split
  · exact .refl s
  · exact CanonKept.foldl _ State.capture_canon _ s

theorem State.recount_canon (s : State) : CanonKept s s.recount := .of_eq rfl

theorem State.useL2_canon (s : State) (sec ev : Nat) : CanonKept s (s.useL2 sec ev) := by
  unfold State.useL2
  dsimp only
  split
  · exact .refl s
  · refine CanonKept.trans ?_ (State.setSys_canon _ _)
    split
    · exact .refl s
    · split
      · exact s.setSys_canon _
      · exact .refl s

theorem State.dirtyL2_canon (s : State) (sec ev : Nat) : CanonKept s (s.dirtyL2 sec ev) := by
  unfold State.dirtyL2
  refine (s.useL2_canon sec ev).trans ?_
  generalize s.useL2 sec ev = t
  dsimp only
  cases Table.find t.sys.below sec with
  | some _ => exact .refl t
  | none =>
    dsimp only
    split
    · exact .refl t
    · exact t.setSys_canon _

theorem State.putBytes_canon (s : State) (cells : List (Nat × Byte)) : CanonKept s (s.putBytes cells) :=
  (State.setBytes_canon cells s).trans (State.setSys_canon _ _)

/-- Writing bytes at their home keeps the form (R112, R339). -/
theorem State.writeHome_canon (s : State) (cells : List (Nat × Byte)) (l : List Nat) (ev : Nat) :
    CanonKept s (s.writeHome cells l ev) := by
  unfold State.writeHome
  refine CanonKept.trans ?_ (State.recount_canon _)
  refine CanonKept.trans ?_ (State.putBytes_canon _ _)
  exact (s.captureFor_canon _).trans (CanonKept.foldl _ (fun s _ => s.dirtyL2_canon _ _) _ _)

theorem State.cleanL1_canon (s : State) (c sec : Nat) : CanonKept s (s.cleanL1 c sec) := by
  unfold State.cleanL1
  split
  · exact (s.writeHome_canon _ _ _).trans (State.onCore_canon _ _ _)
  · exact .refl s

theorem State.cleanL2_canon (s : State) (sec : Nat) : CanonKept s (s.cleanL2 sec) := .of_eq rfl

theorem State.cleanCore_canon (s : State) (c : Nat) : CanonKept s (s.cleanCore c) :=
  .foldl _ (fun s sec => s.cleanL1_canon c sec) _ s

theorem State.dropL1_canon (s : State) (c : Nat) : CanonKept s (s.dropL1 c) :=
  (s.cleanCore_canon c).trans (State.onCore_canon _ _ _)

theorem State.evictL1_canon (s : State) (c line : Nat) : CanonKept s (s.evictL1 c line) :=
  (CanonKept.foldl _ (fun s _ => s.cleanL1_canon _ _) _ s).trans (State.onCore_canon _ _ _)

theorem State.useL1_canon (s : State) (c sec ev : Nat) : CanonKept s (s.useL1 c sec ev) := by
  unfold State.useL1
  dsimp only
  refine CanonKept.trans ?_ (State.onCore_canon _ _ _)
  split
  · exact .refl s
  · split
    · exact s.evictL1_canon _ _
    · exact .refl s

theorem State.closeEntry_canon (s : State) (g r i : Nat) : CanonKept s (s.closeEntry g r i) := by
  unfold State.closeEntry
  dsimp only
  exact s.setNum_canon _ _ _

theorem State.uncapture_canon (s : State) (line : Nat) : CanonKept s (s.uncapture line) := by
  unfold State.uncapture
  cases s.regionOf line with
  | none => exact .refl s
  | some r =>
    dsimp only
    generalize s.cairn.undo.find? _ = u
    cases u with
    | none => exact .refl s
    | some u =>
      dsimp only
      have h := s.closeEntry_canon u.grp u.reg u.place
      generalize s.closeEntry u.grp u.reg u.place = t at h ⊢
      generalize s.imageOfUndo u = a
      generalize (locsFrom (line * 256) 256).map s.byte = b
      split
      · exact h.trans (.of_eq rfl)
      · exact .refl s

theorem State.dropL2_canon (s : State) (sec : Nat) : CanonKept s (s.dropL2 sec) := by
  unfold State.dropL2
  dsimp only
  split
  · exact .of_eq rfl
  · refine CanonKept.trans ?_ (State.uncapture_canon _ _)
    refine CanonKept.trans ?_ (State.cleanL2_canon _ _)
    refine CanonKept.trans ?_ (State.setSector_canon _ _ _)
    exact .of_eq rfl

theorem State.dropSector_canon (s : State) (c sec : Nat) : CanonKept s (s.dropSector c sec) :=
  (s.onCore_canon _ _).trans (State.dropL2_canon _ _)

theorem State.sendHome_canon (s : State) (x : Store) : CanonKept s (s.sendHome x) := by
  unfold State.sendHome
  split
  · exact .refl s
  · split
    · exact s.setSys_canon _
    · exact s.writeHome_canon _ _ _

/-- Performing a store keeps the form (R112, R123). -/
theorem State.perform_canon (s : State) (x : Store) : CanonKept s (s.perform x) := by
  unfold State.perform
  generalize (if (s.core x.core).hasL1 = true then x else { x with held := [], cached := x.cached ++ x.held }) = x
  dsimp only
  refine CanonKept.trans ?_ (State.onCore_canon _ _ _)
  refine CanonKept.trans ?_ (State.sendHome_canon _ _)
  have h : CanonKept s (x.held.foldl (fun s sec => (s.useL1 x.core sec x.ev).onCore x.core (fun c =>
      let old := (Table.find c.l1 sec).getD (s.homeSector sec)
      { c with l1 := Table.set c.l1 sec (patchSector sec old x.cells)
               l1Dirty := if c.l1Dirty.contains sec then c.l1Dirty else sec :: c.l1Dirty }))
      (x.cached.foldl (fun s sec =>
        if (Table.find (s.core x.core).l1 sec).isSome then s.useL1 x.core sec x.ev else s) s)) := by
    refine CanonKept.trans (CanonKept.foldl _ (fun s sec => ?_) _ s)
      (CanonKept.foldl _ (fun s _ => (s.useL1_canon _ _ _).trans (State.onCore_canon _ _ _)) _ _)
    split
    · exact s.useL1_canon _ _ _
    · exact .refl s
  split
  · exact h
  · exact h.trans (State.recount_canon _)

theorem State.release_canon (s : State) (x : Store) : CanonKept s (s.release x) := by
  unfold State.release
  split
  · exact .of_eq rfl
  · exact s.perform_canon x

/-- Releasing a restart gate keeps the form (R39). -/
theorem State.releaseGate_canon (s : State) (k : Nat) : CanonKept s (s.releaseGate k) := by
  unfold State.releaseGate
  dsimp only
  refine CanonKept.trans (t := s.onStrand k (fun x => { x with gate := [] })) (s.onStrand_canon k _) ?_
  exact .foldl _ (fun s x => s.release_canon x) _ _

end Sys2Proof.Machine
end

