-- ==== Sys2Proof/Laws/Slots.lean ====
section
/-! SUPPORT. Running one slot: what opening its bundle and committing it can change, and the result that it delivers. -/

namespace Sys2Proof.Machine

/-! ## Opening a bundle (R39 to R41) -/

/-- The strand differs in its gate, its shadows, its restart point and the note of a wait at most. -/
def Strand.Reopened (x y : Strand) : Prop :=
  ∃ ga sh ep p b r so m, y = { x with gate := ga, shadows := sh, epoch := ep, restartPc := p, restartBank := b,
                                      restartX := r, softErrs := so, met := m }

theorem Strand.get_reopened {x y : Strand} (h : x.Reopened y) (d : Dest) : y.get d = x.get d := by
  obtain ⟨_, _, _, _, _, _, _, _, rfl⟩ := h
  match d with
  | .s 0 | .s (_ + 1) | .a _ | .v _ | .p 0 | .p (_ + 1) | .push _ _ | .tile _ => rfl

/-- The states agree but for cores, groups, memory, caches, protected-state units, host interface, agenda, notes of waits
that are met, and the issuing strand's gate, shadows and restart point. -/
structure Opened (s t : State) : Prop where
  me : s.me.Reopened t.me
  other : ∀ k, k ≠ s.issue.strand → (s.strand k).Noted (t.strand k)
  slots : ∀ h, (s.slot h).Noted (t.slot h)
  ropes : t.ropes = s.ropes
  queues : t.queues = s.queues
  engines : t.engines = s.engines
  full : t.full = s.full
  tokens : t.tokens = s.tokens
  transit : t.transit = s.transit
  fab : t.fab = s.fab
  plat : t.plat = s.plat
  cyc : t.cyc = s.cyc
  cycle : t.cycle = s.cycle
  devid : t.devid = s.devid
  turn : t.turn = s.turn
  freeCount : t.freeCount = s.freeCount
  granted : t.granted = s.granted
  semOps : t.semOps = s.semOps
  mapDue : t.mapDue = s.mapDue
  serial : t.serial = s.serial

theorem State.mark_opened (s : State) : Opened s s.mark ∧ s.mark.issue = s.issue := by
  have hrel := s.releaseGate_released s.issue.strand
  have hm : s.mark = (s.releaseGate s.issue.strand).onMe (fun x => x.restartAt s.issue.pc s.issue.bank x.lastX) := rfl
  have hi : (s.releaseGate s.issue.strand).issue = s.issue := by
    obtain ⟨⟨_, _, _, _, _, _, _, _, _, hr⟩, -⟩ := hrel
    rw [hr]; rfl
  obtain ⟨hx, hs, hl⟩ := hrel
  obtain ⟨n, hn⟩ := hs s.issue.strand
  refine ⟨⟨?_, ?_, ?_, ?_, ?_, ?_, ?_, ?_, ?_, ?_, ?_, ?_, ?_, ?_, ?_, ?_, ?_, ?_, ?_, ?_⟩, ?_⟩
  · rw [hm]
    have h1 : ((s.releaseGate s.issue.strand).onMe (fun x => x.restartAt s.issue.pc s.issue.bank x.lastX)).me =
        (s.releaseGate s.issue.strand).me.restartAt s.issue.pc s.issue.bank (s.releaseGate s.issue.strand).me.lastX :=
      State.onMe_me _ _
    rw [h1]
    have h2 : (s.releaseGate s.issue.strand).me = { s.me with gate := [], met := n } := by
      unfold State.me; rw [hi, hn, State.onStrand_strand]
    rw [h2]
    exact ⟨_, _, _, _, _, _, _, _, rfl⟩
  · intro k hk
    obtain ⟨m, hk'⟩ := hs k
    rw [hm, State.onMe_strand_other _ _ _ (by rw [hi]; exact hk), hk', State.onStrand_strand_other _ _ _ _ hk]
    exact ⟨m, rfl⟩
  · intro h
    have := hl h
    exact this
  all_goals (obtain ⟨_, _, _, _, _, _, _, _, _, hr⟩ := hx; rw [hm, hr]; rfl)

theorem State.openBundle_issue (s : State) (is : List Instr) :
    (s.openBundle is).issue = { s.issue with sealed_ := is.any Instr.irrevocable } := by
  unfold State.openBundle
  rw [State.onIssue_issue]
  split
  · rw [s.mark_opened.2]
  · rfl

/-- Opening a bundle releases the gate at most, and moves the restart point. -/
theorem State.openBundle_opened (s : State) (is : List Instr) : Opened s (s.openBundle is) := by
  have hid : Opened s s :=
    ⟨⟨_, _, _, _, _, _, _, _, rfl⟩, fun _ _ => .refl _, fun _ => .refl _, rfl, rfl, rfl, rfl, rfl, rfl, rfl, rfl, rfl,
      rfl, rfl, rfl, rfl, rfl, rfl, rfl, rfl⟩
  have key : ∀ t : State, Opened s t → t.issue = s.issue → ∀ b, Opened s (t.onIssue (fun i => { i with sealed_ := b })) := by
    intro t h ht b
    exact ⟨by rw [State.onIssue_me _ _ rfl]; exact h.me, fun k hk => h.other k hk, h.slots, h.ropes, h.queues, h.engines,
      h.full, h.tokens, h.transit, h.fab, h.plat, h.cyc, h.cycle, h.devid, h.turn, h.freeCount, h.granted, h.semOps,
      h.mapDue, h.serial⟩
  unfold State.openBundle
  split
  · exact key _ s.mark_opened.1 s.mark_opened.2 _
  · exact key _ hid rfl _

theorem State.opened_get (s : State) (i : Instr) (d : Dest) : (s.opened i).me.get d = s.me.get d :=
  Strand.get_reopened (s.openBundle_opened [i]).me d

theorem State.opened_pre (s : State) (i : Instr) : (s.opened i).issue.pre = s.issue.pre := by
  unfold State.opened; rw [State.openBundle_issue]

theorem State.opened_rd (s : State) (i : Instr) (d : Dest) : (s.opened i).rd d = s.rd d := by
  unfold State.rd
  rw [State.opened_pre, show (s.opened i).freeCount = s.freeCount from (s.openBundle_opened [i]).freeCount,
    show (s.opened i).issue.x = s.issue.x by unfold State.opened; rw [State.openBundle_issue]]

@[simp] theorem State.opened_rs (s : State) (i : Instr) (n : Nat) : (s.opened i).rs n = s.rs n := s.opened_rd i _

@[simp] theorem State.opened_ra (s : State) (i : Instr) (n : Nat) : (s.opened i).ra n = s.ra n := s.opened_rd i _

/-! ## Committing -/

/-- The strand differs at most in what cycle G settles: its resumption, its replay buffer and marks of results in
flight. -/
theorem State.endResume_strand (s : State) (k j : Nat) (h : j ≠ k) : (s.endResume k).strand j = s.strand j := by
  unfold State.endResume
  dsimp only
  split
  · rw [State.onCore_strand, State.onStrand_strand_other _ _ _ _ h]; rfl
  · rfl

theorem State.endResume_same (s : State) (k : Nat) :
    ∃ r f b l, (s.endResume k).strand k =
      { s.strand k with resumed := r, frozenAt := f, replayBuf := b, inflight := (s.strand k).inflight.map l } ∧
      (∀ e, (l e).dest = e.dest ∧ (l e).value = e.value ∧ (l e).due = e.due ∧ (l e).lands = e.lands ∧
        (l e).dead = e.dead) := by
  unfold State.endResume
  dsimp only
  split
  · refine ⟨false, none, [], fun e => { e with replayed := false }, ?_, fun e => ⟨rfl, rfl, rfl, rfl, rfl⟩⟩
    rw [State.onCore_strand, State.onStrand_strand]; rfl
  · exact ⟨(s.strand k).resumed, (s.strand k).frozenAt, (s.strand k).replayBuf, id, by rw [List.map_id], fun e => ⟨rfl, rfl, rfl, rfl, rfl⟩⟩

/-- The states agree but for strands, cores and engines. -/
def Resumed (s t : State) : Prop := ∃ x c e, t = { s with strands := x, cores := c, engines := e }

theorem State.endResume_resumed (s : State) (k : Nat) : Resumed s (s.endResume k) := by
  unfold State.endResume
  dsimp only
  split <;> exact ⟨_, _, _, rfl⟩

/-- A commit with no special register to write and no trap to follow, in one record. -/
theorem State.commit_eq (s : State) (h : s.issue.Plain) :
    s.commit = ((s.endResume s.issue.strand).onMe (fun x =>
      { x with flags := x.flags ||| (s.issue.flags ||| s.issue.pre.mxFlags), mxFlags := 0, met := none, redo := false, found := [] })).onIssue
        (fun i => { i with committed := true, flags := 0, special := none }) := by
  have hi : (s.endResume s.issue.strand).issue = s.issue := by
    obtain ⟨x, c, e, h⟩ := s.endResume_resumed s.issue.strand
    rw [h]
  unfold State.commit
  have hs : (s.endResume s.issue.strand).writeSpecial = s.endResume s.issue.strand := by
    unfold State.writeSpecial; rw [hi, h.2.1]
  rw [hs]
  dsimp only
  have : (((s.endResume s.issue.strand).onMe (fun x =>
      { x with flags := x.flags ||| (s.issue.flags ||| s.issue.pre.mxFlags), mxFlags := 0, met := none, redo := false, found := [] })).onIssue
        (fun i => { i with committed := true, flags := 0, special := none })).issue.after = none := by
    show (s.endResume s.issue.strand).issue.after = none
    rw [hi]; exact h.1
  rw [this]
  have hx : (((s.endResume s.issue.strand).onMe (fun x =>
      { x with flags := x.flags ||| (s.issue.flags ||| s.issue.pre.mxFlags), mxFlags := 0, met := none, redo := false, found := [] })).onIssue
        (fun i => { i with committed := true, flags := 0, special := none })).issue.exits = false := by
    show (s.endResume s.issue.strand).issue.exits = false
    rw [hi]; exact h.2.2
  rw [hx]
  rfl

theorem State.commit_issue (s : State) (h : s.issue.Plain) :
    s.commit.issue = { s.issue with committed := true, flags := 0, special := none } := by
  have hi : (s.endResume s.issue.strand).issue = s.issue := by
    obtain ⟨x, c, e, h⟩ := s.endResume_resumed s.issue.strand
    rw [h]
  rw [s.commit_eq h]
  show ({ (s.endResume s.issue.strand).issue with committed := true, flags := 0, special := none } : Issue) = _
  rw [hi]

theorem State.commit_me (s : State) (h : s.issue.Plain) :
    s.commit.me = { (s.endResume s.issue.strand).strand s.issue.strand with
      flags := ((s.endResume s.issue.strand).strand s.issue.strand).flags ||| (s.issue.flags ||| s.issue.pre.mxFlags)
      mxFlags := 0
      met := none
      redo := false
      found := [] } := by
  have hi : (s.endResume s.issue.strand).issue = s.issue := by
    obtain ⟨x, c, e, h⟩ := s.endResume_resumed s.issue.strand
    rw [h]
  rw [s.commit_eq h, State.onIssue_me _ _ rfl, State.onMe_me]
  unfold State.me
  rw [hi]

/-- The strand after a commit: flags are raised, and a first bundle after a freeze spends its replay buffer. -/
theorem State.commit_strand (s : State) (h : s.issue.Plain) :
    ∃ r f b l, s.commit.me = { s.me with resumed := r, frozenAt := f, replayBuf := b, inflight := s.me.inflight.map l
                                         flags := s.me.flags ||| (s.issue.flags ||| s.issue.pre.mxFlags), mxFlags := 0
                                         met := none, redo := false, found := [] } ∧
      (∀ e, (l e).dest = e.dest ∧ (l e).value = e.value ∧ (l e).due = e.due ∧ (l e).lands = e.lands ∧
        (l e).dead = e.dead) := by
  obtain ⟨r, f, b, l, he, hl⟩ := s.endResume_same s.issue.strand
  refine ⟨r, f, b, l, ?_, hl⟩
  rw [s.commit_me h, he]
  rfl

theorem State.commit_get (s : State) (h : s.issue.Plain) (d : Dest) :
    s.commit.me.get d = s.me.get d := by
  obtain ⟨r, f, b, l, he, -⟩ := s.commit_strand h
  rw [he]
  match d with
  | .s 0 | .s (_ + 1) | .a _ | .v _ | .p 0 | .p (_ + 1) | .push _ _ | .tile _ => rfl

theorem State.commit_flags (s : State) (h : s.issue.Plain) :
    s.commit.me.flags = s.me.flags ||| (s.issue.flags ||| s.issue.pre.mxFlags) := by
  obtain ⟨r, f, b, l, he, -⟩ := s.commit_strand h
  rw [he]

theorem State.commit_other (s : State) (h : s.issue.Plain) (k : Nat)
    (hk : k ≠ s.issue.strand) : s.commit.strand k = s.strand k := by
  have hi : (s.endResume s.issue.strand).issue = s.issue := by
    obtain ⟨x, c, e, h⟩ := s.endResume_resumed s.issue.strand
    rw [h]
  rw [s.commit_eq h, State.onIssue_strand, State.onMe_strand_other _ _ _ (by rw [hi]; exact hk)]
  exact s.endResume_strand _ _ hk

/-- What a commit leaves beyond the issue, strands, cores and engines. -/
theorem State.commit_rest (s : State) (h : s.issue.Plain) :
    s.commit.mem = s.mem ∧ s.commit.ropes = s.ropes ∧ s.commit.slots = s.slots ∧ s.commit.queues = s.queues ∧
    s.commit.groups = s.groups ∧ s.commit.cycle = s.cycle ∧ s.commit.full = s.full ∧ s.commit.tokens = s.tokens ∧
    s.commit.agenda = s.agenda ∧ s.commit.sys = s.sys ∧ s.commit.cairn = s.cairn ∧ s.commit.fab = s.fab ∧
    s.commit.host = s.host ∧ s.commit.semOps = s.semOps := by
  rw [s.commit_eq h]
  obtain ⟨x, c, e, he⟩ := s.endResume_resumed s.issue.strand
  rw [he]
  exact ⟨rfl, rfl, rfl, rfl, rfl, rfl, rfl, rfl, rfl, rfl, rfl, rfl, rfl, rfl⟩

/-! ## One slot -/

/-- Alone in its bundle with nothing in its way, a slot instruction acts in the opened state and its bundle commits. -/
theorem runSlotWith_ready (i : Instr) (more : State → List Dest) (value : State → Option Hurdle) (act : State → State)
    (s : State) (hp : s.issue.phase = .lone) (hh : s.slotHurdle i (more s) (value s) = none)
    (hw : s.bundleWait [i] = none) : runSlotWith i more value act s = .next (act (s.opened i)).commit := by
  unfold runSlotWith
  rw [hp]
  dsimp only
  rw [hh, hw]
  rfl

/-! ## Results (R34, R52, R195) -/

theorem Strand.get_keep (x : Strand) (d e : Dest) : (x.keep d).get e = x.get e := by
  unfold Strand.keep
  split
  · rfl
  · match e with
    | .s 0 | .s (_ + 1) | .a _ | .v _ | .p 0 | .p (_ + 1) | .push _ _ | .tile _ => rfl

theorem Strand.get_put_same (x : Strand) (d : Dest) (v : Nat) (hf : d.fixed = false) (hp : ∀ q n, d ≠ .push q n) :
    (x.put d v).get d = v % 2 ^ destWidth d := by
  match d with
  | .s (n + 1) => simp [Strand.put, Strand.get, destWidth]
  | .a n => simp [Strand.put, Strand.get, destWidth]
  | .v n => simp [Strand.put, Strand.get, destWidth]
  | .p (n + 1) => simp [Strand.put, Strand.get, destWidth]
  | .s 0 => simp [Dest.fixed] at hf
  | .p 0 => simp [Dest.fixed] at hf
  | .push q n => exact absurd rfl (hp q n)
  | .tile n => simp [Dest.fixed] at hf

theorem Strand.get_put_other (x : Strand) (d e : Dest) (v : Nat) (h : e ≠ d) : (x.put d v).get e = x.get e := by
  match d with
  | .s 0 | .p 0 | .push _ _ | .tile _ => rfl
  | .s (n + 1) =>
    match e with
    | .s 0 | .a _ | .v _ | .p 0 | .p (_ + 1) | .push _ _ | .tile _ => rfl
    | .s (m + 1) =>
      have : m + 1 ≠ n + 1 := fun he => h (by rw [he])
      simp only [Strand.put, Strand.get, Table.get_set_other _ _ _ _ _ this]
  | .a n =>
    match e with
    | .s 0 | .s (_ + 1) | .v _ | .p 0 | .p (_ + 1) | .push _ _ | .tile _ => rfl
    | .a m =>
      have : m ≠ n := fun he => h (by rw [he])
      simp only [Strand.put, Strand.get, Table.get_set_other _ _ _ _ _ this]
  | .v n =>
    match e with
    | .s 0 | .s (_ + 1) | .a _ | .p 0 | .p (_ + 1) | .push _ _ | .tile _ => rfl
    | .v m =>
      have : m ≠ n := fun he => h (by rw [he])
      simp only [Strand.put, Strand.get, Table.get_set_other _ _ _ _ _ this]
  | .p (n + 1) =>
    match e with
    | .s 0 | .s (_ + 1) | .a _ | .v _ | .p 0 | .push _ _ | .tile _ => rfl
    | .p (m + 1) =>
      have : m + 1 ≠ n + 1 := fun he => h (by rw [he])
      simp only [Strand.put, Strand.get, Table.get_set_other _ _ _ _ _ this]

theorem Strand.get_write_same (x : Strand) (d : Dest) (v : Nat) (hf : d.fixed = false) (hp : ∀ q n, d ≠ .push q n) :
    (x.write d v).get d = v % 2 ^ destWidth d := by
  unfold Strand.write
  rw [hf]
  show ({ (x.keep d).put d v with inflight := _ } : Strand).get d = _
  have : ∀ (y : Strand) (l : List InFlight) (e : Dest), ({ y with inflight := l } : Strand).get e = y.get e := by
    intro y l e
    match e with
    | .s 0 | .s (_ + 1) | .a _ | .v _ | .p 0 | .p (_ + 1) | .push _ _ | .tile _ => rfl
  rw [this]
  exact Strand.get_put_same _ d v hf hp

theorem Strand.get_write_other (x : Strand) (d e : Dest) (v : Nat) (h : e ≠ d) : (x.write d v).get e = x.get e := by
  unfold Strand.write
  split
  · rfl
  · have : ∀ (y : Strand) (l : List InFlight) (e : Dest), ({ y with inflight := l } : Strand).get e = y.get e := by
      intro y l e
      match e with
      | .s 0 | .s (_ + 1) | .a _ | .v _ | .p 0 | .p (_ + 1) | .push _ _ | .tile _ => rfl
    rw [this, Strand.get_put_other _ _ _ _ h, Strand.get_keep]

theorem State.result_issue (s : State) (d : Dest) (v lat : Nat) : (s.result d v lat).issue = s.issue := by
  unfold State.result
  split
  · rfl
  · split <;> rfl

/-- A result that is delivered and committed has reached its destination, or is in flight to it. -/
theorem State.result_hasResult (o : State) (d : Dest) (v lat : Nat) (ha : o.issue.Plain) (hp : lat ≤ 1 → ∀ q n, d ≠ .push q n) : HasResult o (o.result d v lat).commit d v lat := by
  have ha' : (o.result d v lat).issue.Plain := by rw [State.result_issue]; exact ha
  unfold HasResult
  split
  · rename_i hf
    intro e
    rw [State.commit_get _ ha']
    simp [State.result, hf]
  · rename_i hf
    have hf : d.fixed = false := by simpa using hf
    split
    · rename_i hl
      rw [State.commit_get _ ha']
      simp only [State.result, hf, hl, if_true, Bool.false_eq_true, if_false, State.onMe_me]
      exact Strand.get_write_same _ d v hf (hp hl)
    · rename_i hl
      obtain ⟨r, f, b, l, he, hm⟩ := State.commit_strand _ ha'
      rw [he]
      simp only [State.result, hf, hl, if_false, Bool.false_eq_true, State.onMe_me]
      refine ⟨l { dest := d, value := some v, source := .fixed, exposed := o.issue.x, due := o.cycle + lat,
                  lands := some (o.cycle + lat), epoch := o.me.epoch }, ?_, ?_⟩
      · rw [List.map_append]
        exact List.mem_append_right _ (List.mem_singleton.mpr rfl)
      · exact hm _

end Sys2Proof.Machine
end

