-- ==== Sys2Proof/Laws/Results.lean ====
section
/-! SUPPORT. Results of the shared operations: a pending result, and what a delivered result leaves. -/

namespace Sys2Proof.Machine

/-! ## Events (R15, R383) -/

theorem happens_true {c : Bool} {s t : State} (h : c = true) : happens c s t = .next t := by simp [happens, h]

theorem happens_false {c : Bool} {s t : State} (h : c = false) : happens c s t = .next s := by simp [happens, h]

/-! ## Results of variable latency (R34) -/

theorem State.later_issue (s : State) (d : Dest) (v : Option Nat) (src : Source) (lat tag : Nat) :
    (s.later d v src lat tag).issue = s.issue := by
  unfold State.later; split <;> rfl

/-- Registers do not change while a result is pending. -/
theorem State.later_get (s : State) (d e : Dest) (v : Option Nat) (src : Source) (lat tag : Nat) :
    (s.later d v src lat tag).me.get e = s.me.get e := by
  unfold State.later
  split
  · rfl
  · simp only [State.onMe_me]
    match e with
    | .s 0 | .s (_ + 1) | .a _ | .v _ | .p 0 | .p (_ + 1) | .push _ _ | .tile _ => rfl

/-- A pending result of a committed bundle is in flight, due at its bound. -/
theorem State.later_pending (o : State) (d : Dest) (v : Option Nat) (src : Source) (lat tag : Nat)
    (ha : o.issue.Plain) : Pending o (o.later d v src lat tag).commit d v lat := by
  have ha' : (o.later d v src lat tag).issue.Plain := by rw [State.later_issue]; exact ha
  unfold Pending
  split
  · rename_i hf
    intro e
    rw [State.commit_get _ ha', State.later_get]
  · rename_i hf
    have hf : d.fixed = false := by simpa using hf
    obtain ⟨r, f, b, l, he, hm⟩ := State.commit_strand _ ha'
    rw [he]
    simp only [State.later, hf, if_false, Bool.false_eq_true, State.onMe_me]
    refine ⟨l { dest := d, value := v, source := src, exposed := o.issue.x, due := o.cycle + latBound lat,
                lands := if o.issue.x && v.isSome then some (o.cycle + latBound lat) else none,
                epoch := o.me.epoch, tag := tag }, ?_, ?_⟩
    · rw [List.map_append]
      exact List.mem_append_right _ (List.mem_singleton.mpr rfl)
    · exact ⟨(hm _).1, (hm _).2.1, (hm _).2.2.1, (hm _).2.2.2.2⟩

/-! ## Frames of results (R34, R62) -/

/-- A delivered result changes no other register. -/
theorem State.result_get_other (o : State) (d e : Dest) (v lat : Nat) (h : e ≠ d) :
    (o.result d v lat).me.get e = o.me.get e := by
  unfold State.result
  split
  · rfl
  · split
    · rw [State.onMe_me, Strand.get_write_other _ _ _ _ h]
    · simp only [State.onMe_me]
      match e with
      | .s 0 | .s (_ + 1) | .a _ | .v _ | .p 0 | .p (_ + 1) | .push _ _ | .tile _ => rfl

/-- A delivered result and its commit leave every other register. -/
theorem State.result_regsKept (o : State) (d : Dest) (v lat : Nat) (ha : o.issue.Plain) :
    RegsKept o (o.result d v lat).commit [d] := by
  intro e he
  have ha' : (o.result d v lat).issue.Plain := by rw [State.result_issue]; exact ha
  rw [State.commit_get _ ha', State.result_get_other _ _ _ _ _ (fun h => he (by simp [h]))]

/-- Equal memories read alike. -/
theorem MemoryKept.of_mem {o t : State} (h : t.mem = o.mem) (l : List Nat) : MemoryKept o t l := by
  intro a _
  unfold State.byte
  rw [h]

theorem State.result_memoryKept (o : State) (d : Dest) (v lat : Nat) (ha : o.issue.Plain) (l : List Nat) :
    MemoryKept o (o.result d v lat).commit l := by
  have ha' : (o.result d v lat).issue.Plain := by rw [State.result_issue]; exact ha
  refine .of_mem ?_ l
  rw [(State.commit_rest _ ha').1]
  unfold State.result
  split
  · rfl
  · split <;> rfl

theorem State.later_memoryKept (o : State) (d : Dest) (v : Option Nat) (src : Source) (lat tag : Nat)
    (ha : o.issue.Plain) (l : List Nat) : MemoryKept o (o.later d v src lat tag).commit l := by
  have ha' : (o.later d v src lat tag).issue.Plain := by rw [State.later_issue]; exact ha
  refine .of_mem ?_ l
  rw [(State.commit_rest _ ha').1]
  unfold State.later
  split <;> rfl

/-! ## Strands in turn -/

/-- Changing strands in turn changes strands alone. -/
theorem foldStrands (key : Nat → Nat) (f : Nat → Strand → Strand) (l : List Nat) (s : State) :
    ∃ t, l.foldl (fun s p => s.onStrand (key p) (f p)) s = { s with strands := t } := by
  induction l generalizing s with
  | nil => exact ⟨s.strands, rfl⟩
  | cons a l ih =>
    obtain ⟨t, ht⟩ := ih (s.onStrand (key a) (f a))
    exact ⟨t, by rw [List.foldl_cons, ht]; rfl⟩

theorem foldStrands_other (key : Nat → Nat) (f : Nat → Strand → Strand) (l : List Nat) (s : State) (k : Nat)
    (h : ∀ p ∈ l, key p ≠ k) : (l.foldl (fun s p => s.onStrand (key p) (f p)) s).strand k = s.strand k := by
  induction l generalizing s with
  | nil => rfl
  | cons a l ih =>
    rw [List.foldl_cons, ih _ (fun p hp => h p (List.mem_cons_of_mem _ hp)),
      State.onStrand_strand_other _ _ _ _ (fun e => h a List.mem_cons_self e.symm)]

theorem strandAt_inj (r c p q : Nat) (h : strandAt r c p = strandAt r c q) : p = q := by
  simp only [strandAt] at h; omega

end Sys2Proof.Machine
end

