-- ==== Sys2Proof/Tests/Slice0.lean ====
section
/-! SUPPORT. Tests: the spec's words and worked examples, refusals of ill-formed instructions, and for each obligation a
state and operands that meet its hypotheses. -/

set_option maxRecDepth 20000
set_option exponentiation.threshold 2048

namespace Sys2Proof.Tests
open Sys2Proof Sys2Proof.Machine

/-! ## Decoding: words written out from the encodings of R152 to R166, one for every slot instruction -/

/-- Every word decodes to its instruction, which is well formed and encodes to that word. -/
def reads (k : SlotKind) (l : List (Nat × Instr)) : Bool :=
  l.all (fun e => match decodeSlot k e.1 with
    | .ok i => decide (i = e.2) && i.wf && i.isSlot && decide (i.slotKind = some k) && decide (i.encode = e.1)
    | .error _ => false)

theorem test_decode_ctl_1 :
    reads .ctl [
     (0x000000000000, .nop),
     (0x0000FEFABC01, .br { word := 31420, cc := 5, ss := 63 }),
     (0x000000555502, .jmp { word := 21845 }),
     (0x000000001103, .jmpr { tgt := 17, lk := 0 }),
     (0x00000F400104, .call { word := 16385, lk := 30 }),
     (0x00000002C905, .callr { tgt := 9, lk := 22 }),
     (0x000000001F06, .ret { tgt := 31, lk := 0 }),
     (0x0000A6F00107, .loop { last := 28673, lv := 5, ss := 41 }),
     (0x0000002AAA08, .bswap { word := 10922 }),
     (0x00000000A509, .join { mask := 165 }),
     (0x00000000000A, .detach),
     (0x00000000000B, .ifence),
     (0x00000000000C, .ypoint),
     (0x00000000000D, .yield),
     (0x00000000000E, .exit),
     (0x000000C0010F, .hold { imm := 49153 }),
     (0x000000800310, .trap { imm := 32771 }),
     (0x000000000011, .rtt),
     (0x000000400512, .bkpt { imm := 16389 }),
     (0x000000000013, .svcNull),
     (0x000000000113, .svcEvent),
     (0x000000000213, .svcAbort),
     (0x000000000313, .svcReside),
     (0x000000000413, .svcGroupinfo)] = true := by decide

theorem test_decode_ctl_2 :
    reads .ctl [
     (0x000000FFFF13, .svcUnassigned { imm := 65535 })] = true := by decide

theorem test_decode_alu_1 :
    reads .alu [
     (0x000003216100, .add { d := 33, a := 5, b := 50, f := 0, c := 0 }),
     (0x00000084E302, .sub { d := 35, a := 19, b := 8, f := 0, c := 0 }),
     (0x00000136A403, .mul { d := 36, a := 26, b := 19, f := 0, c := 0 }),
     (0x000001E86504, .mulh { d := 37, a := 33, b := 30, f := 0, c := 0 }),
     (0x0000029A2605, .mulhn { d := 38, a := 40, b := 41, f := 0, c := 0 }),
     (0x0000034BE706, .div { d := 39, a := 47, b := 52, f := 0, c := 0 }),
     (0x000003FDA807, .divn { d := 40, a := 54, b := 63, f := 0, c := 0 }),
     (0x000000AF6908, .rem { d := 41, a := 61, b := 10, f := 0, c := 0 }),
     (0x000001512A09, .remn { d := 42, a := 4, b := 21, f := 0, c := 0 }),
     (0x00000202EB0A, .and { d := 43, a := 11, b := 32, f := 0, c := 0 }),
     (0x000002B4AC0B, .or { d := 44, a := 18, b := 43, f := 0, c := 0 }),
     (0x000003666D0C, .xor { d := 45, a := 25, b := 54, f := 0, c := 0 }),
     (0x000000182E0D, .andn { d := 46, a := 32, b := 1, f := 0, c := 0 }),
     (0x000000C9EF0E, .shl { d := 47, a := 39, b := 12, f := 0, c := 0 }),
     (0x0000017BB00F, .shr { d := 48, a := 46, b := 23, f := 0, c := 0 }),
     (0x0000022D7110, .sar { d := 49, a := 53, b := 34, f := 0, c := 0 }),
     (0x000002DF3211, .rol { d := 50, a := 60, b := 45, f := 0, c := 0 }),
     (0x00000380F312, .min { d := 51, a := 3, b := 56, f := 0, c := 0 }),
     (0x00000032B413, .max { d := 52, a := 10, b := 3, f := 0, c := 0 }),
     (0x000000E47514, .minn { d := 53, a := 17, b := 14, f := 0, c := 0 }),
     (0x000001963615, .maxn { d := 54, a := 24, b := 25, f := 0, c := 0 }),
     (0xFFFFFFE56801, .addi { d := 40, a := 21, imm := -2 }),
     (0x0000161F8116, .cmp { d := 1, a := 62, b := 33, f := 5, c := 0 }),
     (0x000E42C33D17, .sel { d := 61, a := 12, b := 44, f := 0, c := 57 })] = true := by decide

theorem test_decode_alu_2 :
    reads .alu [
     (0x0000000E8518, .mov { d := 5, a := 58, b := 0, f := 0, c := 0 }),
     (0x3FFFFFFF8319, .movi { d := 3, imm := 4294967294 }),
     (0x0000048D031A, .movhi { d := 3, imm := 4660 }),
     (0x00000003721B, .clz { d := 50, a := 13, b := 0, f := 0, c := 0 }),
     (0x00000003B11C, .ctz { d := 49, a := 14, b := 0, f := 0, c := 0 }),
     (0x00000003F01D, .popc { d := 48, a := 15, b := 0, f := 0, c := 0 }),
     (0x000000042F1E, .brev { d := 47, a := 16, b := 0, f := 0, c := 0 }),
     (0x00001CC1C31F, .bext { d := 3, a := 7, pos := 12, len := 7 }),
     (0x0000FC086C20, .bins { d := 44, a := 33, pos := 0, len := 63 }),
     (0x00003E845E21, .lea { d := 30, a := 17, b := 40, f := 15, c := 0 }),
     (0x000002949D22, .adda { d := 29, a := 18, b := 41, f := 0, c := 0 }),
     (0x0000000A9C23, .movaToAddress { d := 28, a := 42, b := 0, f := 0, c := 0 }),
     (0x00000406EB23, .movaToScalar { d := 43, a := 27, b := 0, f := 1, c := 0 }),
     (0x000000081524, .mfs { s := 21, reg := 32 }),
     (0x00000005D625, .mts { s := 22, reg := 23 }),
     (0x000000003F26, .rdcyc { d := 63, a := 0, b := 0, f := 0, c := 0 })] = true := by decide

theorem test_decode_vec_1 :
    reads .vec [
     (0x0060F00320037F00, .vadd { d := 383, a := 1, b := 200, c := 0, p := 15, fmt := 0, rm := 3, xf := 0 }),
     (0x0041100192FE0201, .vsub { d := 2, a := 383, b := 100, c := 0, p := 1, fmt := 1, rm := 2, xf := 0 }),
     (0x00220005FDFF0002, .vmul { d := 256, a := 255, b := 383, c := 0, p := 0, fmt := 2, rm := 1, xf := 0 }),
     (0x0000006830160A03, .vfma { d := 10, a := 11, b := 12, c := 13, p := 0, fmt := 0, rm := 0, xf := 0 }),
     (0x00010BF8582A1404, .vfms { d := 20, a := 21, b := 22, c := 383, p := 0, fmt := 1, rm := 0, xf := 0 }),
     (0x00020800803E1E05, .vfnma { d := 30, a := 31, b := 32, c := 256, p := 0, fmt := 2, rm := 0, xf := 0 }),
     (0x000000000C040106, .vmin { d := 1, a := 2, b := 3, c := 0, p := 0, fmt := 0, rm := 0, xf := 0 }),
     (0x00010000180A0407, .vmax { d := 4, a := 5, b := 6, c := 0, p := 0, fmt := 1, rm := 0, xf := 0 }),
     (0x0002000000100708, .vabs { d := 7, a := 8, b := 0, c := 0, p := 0, fmt := 2, rm := 0, xf := 0 }),
     (0x0000000000140909, .vneg { d := 9, a := 10, b := 0, c := 0, p := 0, fmt := 0, rm := 0, xf := 0 }),
     (0x0000707034180B0A, .vclamp { d := 11, a := 12, b := 13, c := 14, p := 7, fmt := 0, rm := 0, xf := 0 }),
     (0x0000000000200F10, .vrcp { d := 15, a := 16, b := 0, c := 0, p := 0, fmt := 0, rm := 0, xf := 0 }),
     (0x0000000000241111, .vrsq { d := 17, a := 18, b := 0, c := 0, p := 0, fmt := 0, rm := 0, xf := 0 }),
     (0x0000000000281312, .vsqrt { d := 19, a := 20, b := 0, c := 0, p := 0, fmt := 0, rm := 0, xf := 0 }),
     (0x00000000002C1513, .vexp2 { d := 21, a := 22, b := 0, c := 0, p := 0, fmt := 0, rm := 0, xf := 0 }),
     (0x0000000000301714, .vlog2 { d := 23, a := 24, b := 0, c := 0, p := 0, fmt := 0, rm := 0, xf := 0 }),
     (0x00080004B1906420, .viadd { d := 100, a := 200, b := 300, c := 0, p := 0, fmt := 8, rm := 0, xf := 0 }),
     (0x00091004B5926521, .visub { d := 101, a := 201, b := 301, c := 0, p := 1, fmt := 9, rm := 0, xf := 0 }),
     (0x000A2004B9946622, .vimul { d := 102, a := 202, b := 302, c := 0, p := 2, fmt := 10, rm := 0, xf := 0 }),
     (0x000C3AF4BD966723, .vimad { d := 103, a := 203, b := 303, c := 350, p := 3, fmt := 12, rm := 0, xf := 0 }),
     (0x000D4004C1986824, .vimin { d := 104, a := 204, b := 304, c := 0, p := 4, fmt := 13, rm := 0, xf := 0 }),
     (0x000E5004C59A6925, .vimax { d := 105, a := 205, b := 305, c := 0, p := 5, fmt := 14, rm := 0, xf := 0 }),
     (0x00086004C99C6A26, .vand { d := 106, a := 206, b := 306, c := 0, p := 6, fmt := 8, rm := 0, xf := 0 }),
     (0x00097004CD9E6B27, .vor { d := 107, a := 207, b := 307, c := 0, p := 7, fmt := 9, rm := 0, xf := 0 })] = true := by decide

theorem test_decode_vec_2 :
    reads .vec [
     (0x000A8004D1A06C28, .vxor { d := 108, a := 208, b := 308, c := 0, p := 8, fmt := 10, rm := 0, xf := 0 }),
     (0x000C9004D5A26D29, .vshl { d := 109, a := 209, b := 309, c := 0, p := 9, fmt := 12, rm := 0, xf := 0 }),
     (0x000DA004D9A46E2A, .vshr { d := 110, a := 210, b := 310, c := 0, p := 10, fmt := 13, rm := 0, xf := 0 }),
     (0x000EB004DDA66F2B, .vsar { d := 111, a := 211, b := 311, c := 0, p := 11, fmt := 14, rm := 0, xf := 0 }),
     (0x07003004BA5A0F30, .vcmp { d := 15, a := 301, b := 302, c := 0, p := 3, fmt := 0, rm := 0, xf := 7 }),
     (0x00089004C6612F31, .vsel { d := 303, a := 304, b := 305, c := 0, p := 9, fmt := 8, rm := 0, xf := 0 }),
     (0x000A200002673240, .vmov { d := 306, a := 307, b := 0, c := 0, p := 2, fmt := 10, rm := 0, xf := 0 }),
     (0x037AB6FBBD573441, .vmovi { d := 308, p := 11, fmt := 10, imm := 3735928559 }),
     (0x000E000000140B42, .vbcast { d := 11, a := 10, b := 0, c := 0, p := 0, fmt := 14, rm := 0, xf := 0 }),
     (0x7F080000007F3543, .vins { d := 309, a := 63, b := 0, c := 0, p := 0, fmt := 8, rm := 0, xf := 127 }),
     (0x640C0000026C3E44, .vext { d := 62, a := 310, b := 0, c := 0, p := 0, fmt := 12, rm := 0, xf := 100 }),
     (0x000C0004E6713745, .vperm { d := 311, a := 312, b := 313, c := 0, p := 0, fmt := 12, rm := 0, xf := 0 }),
     (0x800C0004F2773A46, .vslide { d := 314, a := 315, b := 316, c := 0, p := 0, fmt := 12, rm := 0, xf := 128 }),
     (0x010D0004FE7D3D47, .vzip { d := 317, a := 318, b := 319, c := 0, p := 0, fmt := 13, rm := 0, xf := 1 }),
     (0x010D00050A834048, .vunzip { d := 320, a := 321, b := 322, c := 0, p := 0, fmt := 13, rm := 0, xf := 1 }),
     (0x0300500002894350, .vred { d := 323, a := 324, b := 0, c := 0, p := 5, fmt := 0, rm := 0, xf := 3 }),
     (0x06086000028D4551, .vscan { d := 325, a := 326, b := 0, c := 0, p := 6, fmt := 8, rm := 0, xf := 6 }),
     (0x0013074200522860, .vcvt { d := 40, a := 41, sfmt := 0, dfmt := 4, rm := 4, pw := 0, sb := 7, n := 19 }),
     (0xFFFF3F4082914761, .vsrnd { d := 327, a := 328, sfmt := 0, dfmt := 1, rm := 4, pw := 0, sb := 63, n := 65535 }),
     (0x0000008A02937E62, .vblock { d := 382, a := 329, sfmt := 0, dfmt := 20, rm := 0, pw := 1, sb := 0, n := 0 }),
     (0x0000003052FD4A63, .vunblock { d := 330, a := 382, sfmt := 20, dfmt := 0, rm := 3, pw := 0, sb := 0, n := 0 }),
     (0x0000070700000A90, .vrand { d := 10, a := 0, sfmt := 0, dfmt := 14, rm := 0, pw := 0, sb := 7, n := 0 }),
     (0x00000A6802994B70, .vcompress { d := 331, a := 332, b := 0, c := 333, p := 0, fmt := 0, rm := 0, xf := 0 }),
     (0x00000005429F4E71, .vexpand { d := 334, a := 335, b := 336, c := 0, p := 0, fmt := 0, rm := 0, xf := 0 })] = true := by decide

theorem test_decode_vec_3 :
    reads .vec [
     (0x00080000001C3D80, .vpcnt { d := 61, a := 14, b := 0, c := 0, p := 0, fmt := 8, rm := 0, xf := 0 }),
     (0x000000001C1C0181, .pand { d := 1, a := 14, b := 7, c := 0, p := 0, fmt := 0, rm := 0, xf := 0 }),
     (0x00000000201A0282, .por { d := 2, a := 13, b := 8, c := 0, p := 0, fmt := 0, rm := 0, xf := 0 }),
     (0x0000000024180383, .pxor { d := 3, a := 12, b := 9, c := 0, p := 0, fmt := 0, rm := 0, xf := 0 }),
     (0x0000000000160484, .pnot { d := 4, a := 11, b := 0, c := 0, p := 0, fmt := 0, rm := 0, xf := 0 })] = true := by decide

theorem test_decode_mem_1 :
    reads .mem [
     (0xFFF7E7BE003E3F00, .ld { d := 63, ab := 31, off := -2048, fmt := 15, at_ := ⟨15, 0, 7, 7, 6, 1023⟩ }),
     (0x001DE4A1FFFC3E01, .st { d := 62, ab := 30, off := 2047, fmt := 8, at_ := ⟨9, 0, 7, 5, 3, 0⟩ }),
     (0x09C0018010061402, .vld { d := 20, ab := 3, off := 64, fmt := 0, at_ := ⟨3, 0, 0, 0, 0, 39⟩ }),
     (0x001DE483FFFB7F03, .vst { d := 383, ab := 29, off := -1, fmt := 0, at_ := ⟨9, 0, 7, 5, 3, 0⟩ }),
     (0xFFF7E787FFF97E04, .vldt { d := 382, sx := 60, tid := 4095, at_ := ⟨15, 0, 7, 7, 6, 1023⟩ }),
     (0x001DE48400F77D05, .vstt { d := 381, sx := 59, tid := 2049, at_ := ⟨9, 0, 7, 5, 3, 0⟩ }),
     (0xFFF7E7805EF97C06, .vgath { d := 380, ab := 28, ix := 379, fmt := 0, at_ := ⟨15, 0, 7, 7, 6, 1023⟩ }),
     (0x001DE4AC5E777A07, .vscat { d := 378, ab := 27, ix := 377, fmt := 11, at_ := ⟨9, 0, 7, 5, 3, 0⟩ }),
     (0x5540000002040110, .ldf { d := 1, ab := 2, off := 8, fmt := 0, at_ := ⟨0, 0, 0, 0, 0, 341⟩ }),
     (0x55400003FE080311, .ldfk { d := 3, ab := 4, off := -8, fmt := 0, at_ := ⟨0, 0, 0, 0, 0, 341⟩ }),
     (0x00000000000C0512, .ste { d := 5, ab := 6, off := 0, fmt := 0, at_ := ⟨0, 0, 0, 0, 0, 0⟩ }),
     (0x0000000000100713, .feset { d := 7, ab := 8, off := 0, fmt := 0, at_ := ⟨0, 0, 0, 0, 0, 0⟩ }),
     (0x5540000000140914, .feprobe { d := 9, ab := 10, off := 0, fmt := 0, at_ := ⟨0, 0, 0, 0, 0, 341⟩ }),
     (0x58C0B12C01CA0320, .atom { d := 3, ab := 5, sb := 7, k := 0, fmt := 11, at_ := ⟨2, 2, 5, 0, 0, 355⟩ }),
     (0x58C0B13FF1CA0321, .atomcas { d := 3, ab := 5, sb := 7, k := 63, fmt := 15, at_ := ⟨2, 2, 5, 0, 0, 355⟩ }),
     (0x0000D279FFFFFF22, .semadd { sem := 63, core := 255, dev := 1023, far := 1, sn := 60, at_ := ⟨4, 2, 6, 0, 0, 0⟩ }),
     (0x0000B00600008123, .semset { sem := 1, core := 2, dev := 0, far := 0, sn := 3, at_ := ⟨0, 2, 5, 0, 0, 0⟩ }),
     (0x0000A85800002124, .semwait { sem := 33, core := 0, dev := 0, far := 0, sn := 44, at_ := ⟨0, 1, 5, 0, 0, 0⟩ }),
     (0xAA80005A00002225, .semrd { sem := 34, core := 0, dev := 0, far := 0, sn := 45, at_ := ⟨0, 0, 0, 0, 0, 682⟩ }),
     (0x0000C8000001C430, .cntwait { s := 4, ab := 7, q := 0, dir := 0, at_ := ⟨0, 1, 6, 0, 0, 0⟩ }),
     (0x0000B00000000631, .fence { mask := 6, at_ := ⟨0, 2, 5, 0, 0, 0⟩ }),
     (0x000000000003FF32, .tokacq { tok := 1023, core := 0, ad := 0, ring := 0, at_ := ⟨0, 0, 0, 0, 0, 0⟩ }),
     (0x0000000000241133, .tokpass { tok := 17, core := 9, ad := 0, ring := 0, at_ := ⟨0, 0, 0, 0, 0, 0⟩ }),
     (0x0440000124000034, .bufacq { tok := 0, core := 0, ad := 9, ring := 2, at_ := ⟨0, 0, 0, 0, 0, 17⟩ })] = true := by decide

theorem test_decode_mem_2 :
    reads .mem [
     (0x0000000780000035, .bufrel { tok := 0, core := 0, ad := 0, ring := 15, at_ := ⟨0, 0, 0, 0, 0, 0⟩ }),
     (0x0000200010020040, .discard { d := 0, ab := 1, off := 64, fmt := 0, at_ := ⟨0, 0, 1, 0, 0, 0⟩ }),
     (0x0000C00000060641, .wback { d := 6, ab := 3, off := 0, fmt := 0, at_ := ⟨0, 0, 6, 0, 0, 0⟩ }),
     (0x0000A00000080742, .inval { d := 7, ab := 4, off := 0, fmt := 0, at_ := ⟨0, 0, 5, 0, 0, 0⟩ }),
     (0x00006000000A0843, .iinval { d := 8, ab := 5, off := 0, fmt := 0, at_ := ⟨0, 0, 3, 0, 0, 0⟩ }),
     (0x00102000000C0944, .pref { d := 9, ab := 6, off := 0, fmt := 0, at_ := ⟨0, 0, 1, 0, 2, 0⟩ }),
     (0xFFC000AC04163C50, .rld { d := 60, ab := 11, off := 16, fmt := 11, at_ := ⟨1, 0, 0, 0, 0, 1023⟩ }),
     (0x000000BFFC183D51, .rst { d := 61, ab := 12, off := -16, fmt := 15, at_ := ⟨1, 0, 0, 0, 0, 0⟩ }),
     (0xFFC000AC9F9A3A52, .ratom { d := 58, ab := 13, sb := 62, k := 9, fmt := 11, at_ := ⟨1, 0, 0, 0, 0, 1023⟩ }),
     (0x0840000000003953, .tickwait { s := 57, ab := 0, q := 0, dir := 0, at_ := ⟨0, 0, 0, 0, 0, 33⟩ }),
     (0x0000000000000054, .replay { s := 0, ab := 0, q := 0, dir := 0, at_ := ⟨0, 0, 0, 0, 0, 0⟩ }),
     (0x0000038001190060, .sbind { s := 0, ab := 4, q := 3, dir := 1, at_ := ⟨7, 0, 0, 0, 0, 0⟩ }),
     (0x0000000000180061, .sdone { s := 0, ab := 0, q := 3, dir := 0, at_ := ⟨0, 0, 0, 0, 0, 0⟩ }),
     (0x0000A10004998C70, .haul { s := 12, ab := 6, eng := 3, rpt := 1, rv := 1, s2 := 0, at_ := ⟨2, 0, 5, 0, 0, 0⟩ }),
     (0x0000A1000079CD71, .haulg { s := 13, ab := 7, eng := 15, rpt := 0, rv := 0, s2 := 0, at_ := ⟨2, 0, 5, 0, 0, 0⟩ }),
     (0x0000A10007820E72, .hgath { s := 14, ab := 8, eng := 0, rpt := 7, rv := 1, s2 := 0, at_ := ⟨2, 0, 5, 0, 0, 0⟩ }),
     (0x0000A100000A4F73, .hscat { s := 15, ab := 9, eng := 1, rpt := 0, rv := 0, s2 := 0, at_ := ⟨2, 0, 5, 0, 0, 0⟩ }),
     (0x0C40000000183874, .hstat { s := 56, ab := 0, eng := 3, rpt := 0, rv := 0, s2 := 0, at_ := ⟨0, 0, 0, 0, 0, 49⟩ }),
     (0x0000000028008480, .protect { s := 4, ab := 2, eng := 0, rpt := 0, rv := 0, s2 := 5, at_ := ⟨0, 0, 0, 0, 0, 0⟩ }),
     (0x00000001F8008481, .unprotect { s := 4, ab := 2, eng := 0, rpt := 0, rv := 0, s2 := 63, at_ := ⟨0, 0, 0, 0, 0, 0⟩ }),
     (0x0000000000000082, .belay { s := 0, ab := 0, eng := 0, rpt := 0, rv := 0, s2 := 0, at_ := ⟨0, 0, 0, 0, 0, 0⟩ }),
     (0x10400001B0003783, .bwait { s := 55, ab := 0, eng := 0, rpt := 0, rv := 0, s2 := 54, at_ := ⟨0, 0, 0, 0, 0, 65⟩ }),
     (0x1440000000003584, .pitchrd { s := 53, ab := 0, eng := 0, rpt := 0, rv := 0, s2 := 0, at_ := ⟨0, 0, 0, 0, 0, 81⟩ })] = true := by decide

theorem test_decode_mx :
    reads .mx [
     (0x00004B3FF3291000, .mlatch { w := 2, aa := 4, sc := 5, wb := 3, kb := 7, cols := 127, lat := 300 }),
     (0x05197FFBF9B99001, .mop { acc := 0, w := 2, aa := 6, wa := 7, wb := 3, kb := 127, rows := 127, cols := 95, lat := 652, am := 0 }),
     (0xFFFF7BF1F8FA7F02, .mops { acc := 7, w := 7, aa := 9, wa := 15, wb := 1, kb := 63, rows := 126, cols := 94, lat := 1023, am := 31 }),
     (0x0001FFFBF9BB8003, .mopr { acc := 0, w := 0, aa := 14, wa := 7, wb := 3, kb := 127, rows := 127, cols := 127, lat := 0, am := 0 }),
     (0x00C8FFFC40904104, .mrank1 { acc := 1, vx := 8, vy := 9, fmt := 2, rows := 127, cols := 127, lat := 200 }),
     (0x0000000000020205, .mzero { acc := 2, s := 0, opt := 1, lat := 0 }),
     (0x0000000000001D06, .mloss { acc := 5, s := 3, opt := 0, lat := 0 }),
     (0x0000000000000607, .mdrain { acc := 6, s := 0, opt := 0, lat := 0 }),
     (0x000000009A010C08, .mstat { acc := 4, s := 33, opt := 0, lat := 77 }),
     (0x0000000000402A10, .oread { acc := 2, v := 5, s := 4, fmt := 0, lat := 0 }),
     (0x0000000003FBF311, .owrite { acc := 3, v := 382, s := 63, fmt := 0, lat := 0 }),
     (0x0001478224031012, .omom { acc := 0, aw := 2, am1 := 3, am2 := 0, sh := 9, wfmt := 2, rm := 4, sb := 7, n := 5 }),
     (0x00000002358B5113, .oadam { acc := 1, aw := 10, am1 := 11, am2 := 12, sh := 13, wfmt := 2, rm := 0, sb := 0, n := 0 }),
     (0x000000000000C420, .pusht { aa := 4, s := 6, opt := 0, lat := 0 }),
     (0x000000000008C421, .popt { aa := 4, s := 6, opt := 1, lat := 0 }),
     (0x00000000480E8022, .tstk { aa := 0, s := 52, opt := 1, lat := 9 })] = true := by decide

/-- Words that the spec writes out: OMOM of R297, VBCAST of R301, OREAD and MZERO of R374, HAUL and PROTECT of R289. -/
theorem test_spec_words :
    reads .mx [
      (0x00000000D419C012, .omom { acc := 0, aw := 24, am1 := 25, am2 := 0, sh := 53, wfmt := 0, rm := 0, sb := 0, n := 0 }),
      (0x0000000000402A10, .oread { acc := 2, v := 5, s := 4, fmt := 0, lat := 0 }),
      (0x0000000000020205, .mzero { acc := 2, s := 0, opt := 1, lat := 0 })] = true ∧
    reads .vec [(0x000E000000140B42, .vbcast { d := 11, a := 10, b := 0, c := 0, p := 0, fmt := 14, rm := 0, xf := 0 })] = true ∧
    reads .mem [
      (0x0000A10004998C70, .haul { s := 12, ab := 6, eng := 3, rpt := 1, rv := 1, s2 := 0, at_ := { cls := 2, ord := 0, sc := 5, nm := 0, ev := 0, lat := 0 } }),
      (0x0000000028008480, .protect { s := 4, ab := 2, eng := 0, rpt := 0, rv := 0, s2 := 5, at_ := { cls := 0, ord := 0, sc := 0, nm := 0, ev := 0, lat := 0 } })] = true := by decide

/-- The bundle worked to the bit in spec/07: its header, its slots and its 48 bytes. -/
def workedBundle : Nat := 0x00000096 + 0x000004014501 * 2 ^ 80 + 0x0000006830160A03 * 2 ^ 128 + 0x09C0018010061402 * 2 ^ 256

theorem test_bundle_bytes :
    natsOf (toBytes 48 workedBundle) =
      [0x96, 0, 0, 0, 0, 0, 0, 0, 0, 0, 0x01, 0x45, 0x01, 0x04, 0, 0, 0x03, 0x0A, 0x16, 0x30, 0x68, 0, 0, 0,
       0, 0, 0, 0, 0, 0, 0, 0, 0x02, 0x14, 0x06, 0x10, 0x80, 0x01, 0xC0, 0x09, 0, 0, 0, 0, 0, 0, 0, 0] := by decide

theorem test_bundle_slots :
    bundleSlots workedBundle = [
      (1, 0x000004014501, .ok (.addi { d := 5, a := 5, imm := 64 })),
      (2, 0x0000006830160A03, .ok (.vfma { d := 10, a := 11, b := 12, c := 13, p := 0, fmt := 0, rm := 0, xf := 0 })),
      (4, 0x09C0018010061402, .ok (.vld { d := 20, ab := 3, off := 0x40, fmt := 0, at_ := { cls := 3, ord := 0, sc := 0, nm := 0, ev := 0, lat := 39 } }))] ∧
    (headerOf workedBundle).x = true ∧ (headerOf workedBundle).rest = 0 := by decide

/-- The hold bundle's index word, and a step that fetches it after reset. -/
theorem test_hold_word : decodeTableWord 16 0xFFFE = some .holdBundle ∧
    (match step (State.reset.withFetchWord 16 0xFFFE) with
      | .next _ => true
      | _ => false) = true := by decide

/-! ## Ill-formed instructions and refused words -/

/-- Every word of the list is refused with the cause. -/
def refuses (c : Cause) (l : List (SlotKind × Nat)) : Bool :=
  l.all (fun e => match decodeSlot e.1 e.2 with
    | .ok _ => false
    | .error d => decide (d = c))

/-- The opcodes that a slot answers cause 0x02 to are those of the ranges, whatever its other bits (R390). -/
def unassigned (k : SlotKind) (l : List (Nat × Nat)) : Bool :=
  (List.range 256).all (fun op => [0, 0x123456789A].all (fun rest =>
    (match decodeSlot k (op + 256 * rest) with
      | .error .unassignedOpcode => true
      | _ => false) == l.any (fun r => decide (r.1 ≤ op) && decide (op ≤ r.2))))

/-- One field one past its width, for every field of every format (R152 to R165). -/
theorem test_wf_refuses_wide_fields : ([
    .br { word := 32768, cc := 5, ss := 63 },
    .br { word := 31420, cc := 8, ss := 63 },
    .br { word := 31420, cc := 5, ss := 64 },
    .jmp { word := 32768 },
    .jmpr { tgt := 32, lk := 0 },
    .jmpr { tgt := 17, lk := 32 },
    .call { word := 32768, lk := 30 },
    .call { word := 16385, lk := 32 },
    .loop { last := 32768, lv := 5, ss := 41 },
    .loop { last := 28673, lv := 8, ss := 41 },
    .loop { last := 28673, lv := 5, ss := 64 },
    .join { mask := 256 },
    .hold { imm := 65536 },
    .add { d := 64, a := 5, b := 50, f := 0, c := 0 },
    .add { d := 33, a := 64, b := 50, f := 0, c := 0 },
    .add { d := 33, a := 5, b := 64, f := 0, c := 0 },
    .add { d := 33, a := 5, b := 50, f := 16, c := 0 },
    .add { d := 33, a := 5, b := 50, f := 0, c := 64 },
    .addi { d := 64, a := 21, imm := -2 },
    .addi { d := 40, a := 64, imm := -2 },
    .addi { d := 40, a := 21, imm := 134217728 },
    .addi { d := 40, a := 21, imm := -134217729 },
    .movi { d := 64, imm := 4294967294 },
    .movi { d := 3, imm := 4294967296 },
    .bext { d := 64, a := 7, pos := 12, len := 7 },
    .bext { d := 3, a := 64, pos := 12, len := 7 },
    .bext { d := 3, a := 7, pos := 64, len := 7 },
    .bext { d := 3, a := 7, pos := 12, len := 64 },
    .mfs { s := 64, reg := 32 },
    .mfs { s := 21, reg := 256 },
    .vadd { d := 512, a := 1, b := 200, c := 0, p := 15, fmt := 0, rm := 3, xf := 0 },
    .vadd { d := 383, a := 512, b := 200, c := 0, p := 15, fmt := 0, rm := 3, xf := 0 },
    .vadd { d := 383, a := 1, b := 512, c := 0, p := 15, fmt := 0, rm := 3, xf := 0 },
    .vadd { d := 383, a := 1, b := 200, c := 512, p := 15, fmt := 0, rm := 3, xf := 0 },
    .vadd { d := 383, a := 1, b := 200, c := 0, p := 16, fmt := 0, rm := 3, xf := 0 },
    .vadd { d := 383, a := 1, b := 200, c := 0, p := 15, fmt := 32, rm := 3, xf := 0 },
    .vadd { d := 383, a := 1, b := 200, c := 0, p := 15, fmt := 0, rm := 8, xf := 0 },
    .vadd { d := 383, a := 1, b := 200, c := 0, p := 15, fmt := 0, rm := 3, xf := 256 },
    .vmovi { d := 512, p := 11, fmt := 10, imm := 3735928559 },
    .vmovi { d := 308, p := 16, fmt := 10, imm := 3735928559 },
    .vmovi { d := 308, p := 11, fmt := 32, imm := 3735928559 },
    .vmovi { d := 308, p := 11, fmt := 10, imm := 4294967296 },
    .vcvt { d := 512, a := 41, sfmt := 0, dfmt := 4, rm := 4, pw := 0, sb := 7, n := 19 },
    .vcvt { d := 40, a := 512, sfmt := 0, dfmt := 4, rm := 4, pw := 0, sb := 7, n := 19 },
    .vcvt { d := 40, a := 41, sfmt := 32, dfmt := 4, rm := 4, pw := 0, sb := 7, n := 19 },
    .vcvt { d := 40, a := 41, sfmt := 0, dfmt := 32, rm := 4, pw := 0, sb := 7, n := 19 },
    .vcvt { d := 40, a := 41, sfmt := 0, dfmt := 4, rm := 8, pw := 0, sb := 7, n := 19 },
    .vcvt { d := 40, a := 41, sfmt := 0, dfmt := 4, rm := 4, pw := 2, sb := 7, n := 19 },
    .vcvt { d := 40, a := 41, sfmt := 0, dfmt := 4, rm := 4, pw := 0, sb := 64, n := 19 },
    .vcvt { d := 40, a := 41, sfmt := 0, dfmt := 4, rm := 4, pw := 0, sb := 7, n := 65536 },
    .ld { d := 512, ab := 31, off := -2048, fmt := 15, at_ := ⟨15, 0, 7, 7, 6, 1023⟩ },
    .ld { d := 63, ab := 32, off := -2048, fmt := 15, at_ := ⟨15, 0, 7, 7, 6, 1023⟩ },
    .ld { d := 63, ab := 31, off := 2048, fmt := 15, at_ := ⟨15, 0, 7, 7, 6, 1023⟩ },
    .ld { d := 63, ab := 31, off := -2049, fmt := 15, at_ := ⟨15, 0, 7, 7, 6, 1023⟩ },
    .ld { d := 63, ab := 31, off := -2048, fmt := 32, at_ := ⟨15, 0, 7, 7, 6, 1023⟩ },
    .vldt { d := 512, sx := 60, tid := 4095, at_ := ⟨15, 0, 7, 7, 6, 1023⟩ },
    .vldt { d := 382, sx := 64, tid := 4095, at_ := ⟨15, 0, 7, 7, 6, 1023⟩ },
    .vldt { d := 382, sx := 60, tid := 4096, at_ := ⟨15, 0, 7, 7, 6, 1023⟩ },
    .vgath { d := 512, ab := 28, ix := 379, fmt := 0, at_ := ⟨15, 0, 7, 7, 6, 1023⟩ },
    .vgath { d := 380, ab := 32, ix := 379, fmt := 0, at_ := ⟨15, 0, 7, 7, 6, 1023⟩ },
    .vgath { d := 380, ab := 28, ix := 512, fmt := 0, at_ := ⟨15, 0, 7, 7, 6, 1023⟩ },
    .vgath { d := 380, ab := 28, ix := 379, fmt := 32, at_ := ⟨15, 0, 7, 7, 6, 1023⟩ },
    .atom { d := 64, ab := 5, sb := 7, k := 0, fmt := 11, at_ := ⟨2, 2, 5, 0, 0, 355⟩ },
    .atom { d := 3, ab := 32, sb := 7, k := 0, fmt := 11, at_ := ⟨2, 2, 5, 0, 0, 355⟩ },
    .atom { d := 3, ab := 5, sb := 64, k := 0, fmt := 11, at_ := ⟨2, 2, 5, 0, 0, 355⟩ },
    .atom { d := 3, ab := 5, sb := 7, k := 64, fmt := 11, at_ := ⟨2, 2, 5, 0, 0, 355⟩ },
    .atom { d := 3, ab := 5, sb := 7, k := 0, fmt := 32, at_ := ⟨2, 2, 5, 0, 0, 355⟩ },
    .atom { d := 3, ab := 5, sb := 7, k := 0, fmt := 11, at_ := ⟨16, 2, 5, 0, 0, 355⟩ },
    .atom { d := 3, ab := 5, sb := 7, k := 0, fmt := 11, at_ := ⟨2, 4, 5, 0, 0, 355⟩ },
    .atom { d := 3, ab := 5, sb := 7, k := 0, fmt := 11, at_ := ⟨2, 2, 8, 0, 0, 355⟩ },
    .atom { d := 3, ab := 5, sb := 7, k := 0, fmt := 11, at_ := ⟨2, 2, 5, 8, 0, 355⟩ },
    .atom { d := 3, ab := 5, sb := 7, k := 0, fmt := 11, at_ := ⟨2, 2, 5, 0, 8, 355⟩ },
    .atom { d := 3, ab := 5, sb := 7, k := 0, fmt := 11, at_ := ⟨2, 2, 5, 0, 0, 1024⟩ },
    .semadd { sem := 64, core := 255, dev := 1023, far := 1, sn := 60, at_ := ⟨4, 2, 6, 0, 0, 0⟩ },
    .semadd { sem := 63, core := 256, dev := 1023, far := 1, sn := 60, at_ := ⟨4, 2, 6, 0, 0, 0⟩ },
    .semadd { sem := 63, core := 255, dev := 1024, far := 1, sn := 60, at_ := ⟨4, 2, 6, 0, 0, 0⟩ },
    .semadd { sem := 63, core := 255, dev := 1023, far := 2, sn := 60, at_ := ⟨4, 2, 6, 0, 0, 0⟩ },
    .semadd { sem := 63, core := 255, dev := 1023, far := 1, sn := 64, at_ := ⟨4, 2, 6, 0, 0, 0⟩ },
    .cntwait { s := 64, ab := 7, q := 0, dir := 0, at_ := ⟨0, 1, 6, 0, 0, 0⟩ },
    .cntwait { s := 4, ab := 32, q := 0, dir := 0, at_ := ⟨0, 1, 6, 0, 0, 0⟩ },
    .cntwait { s := 4, ab := 7, q := 32, dir := 0, at_ := ⟨0, 1, 6, 0, 0, 0⟩ },
    .cntwait { s := 4, ab := 7, q := 0, dir := 2, at_ := ⟨0, 1, 6, 0, 0, 0⟩ },
    .fence { mask := 65536, at_ := ⟨0, 2, 5, 0, 0, 0⟩ },
    .tokacq { tok := 1024, core := 0, ad := 0, ring := 0, at_ := ⟨0, 0, 0, 0, 0, 0⟩ },
    .tokacq { tok := 1023, core := 256, ad := 0, ring := 0, at_ := ⟨0, 0, 0, 0, 0, 0⟩ },
    .tokacq { tok := 1023, core := 0, ad := 32, ring := 0, at_ := ⟨0, 0, 0, 0, 0, 0⟩ },
    .tokacq { tok := 1023, core := 0, ad := 0, ring := 16, at_ := ⟨0, 0, 0, 0, 0, 0⟩ },
    .haul { s := 64, ab := 6, eng := 3, rpt := 1, rv := 1, s2 := 0, at_ := ⟨2, 0, 5, 0, 0, 0⟩ },
    .haul { s := 12, ab := 32, eng := 3, rpt := 1, rv := 1, s2 := 0, at_ := ⟨2, 0, 5, 0, 0, 0⟩ },
    .haul { s := 12, ab := 6, eng := 16, rpt := 1, rv := 1, s2 := 0, at_ := ⟨2, 0, 5, 0, 0, 0⟩ },
    .haul { s := 12, ab := 6, eng := 3, rpt := 8, rv := 1, s2 := 0, at_ := ⟨2, 0, 5, 0, 0, 0⟩ },
    .haul { s := 12, ab := 6, eng := 3, rpt := 1, rv := 2, s2 := 0, at_ := ⟨2, 0, 5, 0, 0, 0⟩ },
    .haul { s := 12, ab := 6, eng := 3, rpt := 1, rv := 1, s2 := 64, at_ := ⟨2, 0, 5, 0, 0, 0⟩ },
    .mlatch { w := 8, aa := 4, sc := 5, wb := 3, kb := 7, cols := 127, lat := 300 },
    .mlatch { w := 2, aa := 32, sc := 5, wb := 3, kb := 7, cols := 127, lat := 300 },
    .mlatch { w := 2, aa := 4, sc := 32, wb := 3, kb := 7, cols := 127, lat := 300 },
    .mlatch { w := 2, aa := 4, sc := 5, wb := 16, kb := 7, cols := 127, lat := 300 },
    .mlatch { w := 2, aa := 4, sc := 5, wb := 3, kb := 8, cols := 127, lat := 300 },
    .mlatch { w := 2, aa := 4, sc := 5, wb := 3, kb := 7, cols := 128, lat := 300 },
    .mlatch { w := 2, aa := 4, sc := 5, wb := 3, kb := 7, cols := 127, lat := 1024 },
    .mop { acc := 8, w := 2, aa := 6, wa := 7, wb := 3, kb := 127, rows := 127, cols := 95, lat := 652, am := 0 },
    .mop { acc := 0, w := 8, aa := 6, wa := 7, wb := 3, kb := 127, rows := 127, cols := 95, lat := 652, am := 0 },
    .mop { acc := 0, w := 2, aa := 32, wa := 7, wb := 3, kb := 127, rows := 127, cols := 95, lat := 652, am := 0 },
    .mop { acc := 0, w := 2, aa := 6, wa := 16, wb := 3, kb := 127, rows := 127, cols := 95, lat := 652, am := 0 },
    .mop { acc := 0, w := 2, aa := 6, wa := 7, wb := 16, kb := 127, rows := 127, cols := 95, lat := 652, am := 0 },
    .mop { acc := 0, w := 2, aa := 6, wa := 7, wb := 3, kb := 256, rows := 127, cols := 95, lat := 652, am := 0 },
    .mop { acc := 0, w := 2, aa := 6, wa := 7, wb := 3, kb := 127, rows := 128, cols := 95, lat := 652, am := 0 },
    .mop { acc := 0, w := 2, aa := 6, wa := 7, wb := 3, kb := 127, rows := 127, cols := 128, lat := 652, am := 0 },
    .mop { acc := 0, w := 2, aa := 6, wa := 7, wb := 3, kb := 127, rows := 127, cols := 95, lat := 1024, am := 0 },
    .mop { acc := 0, w := 2, aa := 6, wa := 7, wb := 3, kb := 127, rows := 127, cols := 95, lat := 652, am := 32 },
    .mrank1 { acc := 8, vx := 8, vy := 9, fmt := 2, rows := 127, cols := 127, lat := 200 },
    .mrank1 { acc := 1, vx := 512, vy := 9, fmt := 2, rows := 127, cols := 127, lat := 200 },
    .mrank1 { acc := 1, vx := 8, vy := 512, fmt := 2, rows := 127, cols := 127, lat := 200 },
    .mrank1 { acc := 1, vx := 8, vy := 9, fmt := 32, rows := 127, cols := 127, lat := 200 },
    .mrank1 { acc := 1, vx := 8, vy := 9, fmt := 2, rows := 128, cols := 127, lat := 200 },
    .mrank1 { acc := 1, vx := 8, vy := 9, fmt := 2, rows := 127, cols := 128, lat := 200 },
    .mrank1 { acc := 1, vx := 8, vy := 9, fmt := 2, rows := 127, cols := 127, lat := 1024 },
    .mzero { acc := 8, s := 0, opt := 1, lat := 0 },
    .mzero { acc := 2, s := 64, opt := 1, lat := 0 },
    .mzero { acc := 2, s := 0, opt := 256, lat := 0 },
    .mzero { acc := 2, s := 0, opt := 1, lat := 1024 },
    .oread { acc := 8, v := 5, s := 4, fmt := 0, lat := 0 },
    .oread { acc := 2, v := 512, s := 4, fmt := 0, lat := 0 },
    .oread { acc := 2, v := 5, s := 64, fmt := 0, lat := 0 },
    .oread { acc := 2, v := 5, s := 4, fmt := 32, lat := 0 },
    .oread { acc := 2, v := 5, s := 4, fmt := 0, lat := 1024 },
    .omom { acc := 8, aw := 2, am1 := 3, am2 := 0, sh := 9, wfmt := 2, rm := 4, sb := 7, n := 5 },
    .omom { acc := 0, aw := 32, am1 := 3, am2 := 0, sh := 9, wfmt := 2, rm := 4, sb := 7, n := 5 },
    .omom { acc := 0, aw := 2, am1 := 32, am2 := 0, sh := 9, wfmt := 2, rm := 4, sb := 7, n := 5 },
    .omom { acc := 0, aw := 2, am1 := 3, am2 := 32, sh := 9, wfmt := 2, rm := 4, sb := 7, n := 5 },
    .omom { acc := 0, aw := 2, am1 := 3, am2 := 0, sh := 64, wfmt := 2, rm := 4, sb := 7, n := 5 },
    .omom { acc := 0, aw := 2, am1 := 3, am2 := 0, sh := 9, wfmt := 32, rm := 4, sb := 7, n := 5 },
    .omom { acc := 0, aw := 2, am1 := 3, am2 := 0, sh := 9, wfmt := 2, rm := 8, sb := 7, n := 5 },
    .omom { acc := 0, aw := 2, am1 := 3, am2 := 0, sh := 9, wfmt := 2, rm := 4, sb := 64, n := 5 },
    .omom { acc := 0, aw := 2, am1 := 3, am2 := 0, sh := 9, wfmt := 2, rm := 4, sb := 7, n := 65536 },
    .pusht { aa := 32, s := 6, opt := 0, lat := 0 },
    .pusht { aa := 4, s := 64, opt := 0, lat := 0 },
    .pusht { aa := 4, s := 6, opt := 256, lat := 0 },
    .pusht { aa := 4, s := 6, opt := 0, lat := 1024 }] : List Instr).all (fun i => !i.fits && !i.wf) = true := by decide

/-- Words whose register fields name nothing that the instruction admits: cause 0x03 (R389, R55, R146, R198). -/
theorem test_illegal_operands : refuses .illegalOperand [
    (.alu, 0x00001FC1C31F),
    (.alu, 0x000007F86C20),
    (.alu, 0x00003E846021),
    (.alu, 0x000004082B23),
    (.vec, 0x0060F0032003B800),
    (.vec, 0x0060F00323817F00),
    (.vec, 0x07003004BA5A1030),
    (.vec, 0x000E000000800B42),
    (.vec, 0x0000008A02937F62),
    (.vec, 0x0000003052FF4A63),
    (.vec, 0x00000A5802994B70),
    (.vec, 0x00000000401C0181),
    (.vec, 0x00080000001C4080),
    (.mem, 0xFFF7E7BE003E4000),
    (.mem, 0xFFF7E78060397C06),
    (.mem, 0xFFC000AC9FDA3A52),
    (.mx, 0x05197FFBF9BFD001),
    (.mx, 0x00C8FFFC409BF904),
    (.mx, 0x00000000004DC210),
    (.mx, 0x00000002F98B5113)] = true := by decide

/-- Words with another field outside the set it admits, or with a non-zero bit marked zero: cause 0x04 (R389, R250). -/
theorem test_reserved_fields : refuses .reservedField [
    (.ctl, 0x0000FF7ABC01),
    (.ctl, 0x0000A7700107),
    (.ctl, 0x000000003103),
    (.alu, 0x000043216100),
    (.alu, 0x00001A1F8116),
    (.alu, 0x00000001D524),
    (.vec, 0x0080F00320037F00),
    (.vec, 0x0068F00320037F00),
    (.vec, 0x00000004B1906420),
    (.vec, 0x0002000004100708),
    (.vec, 0x0400500002894350),
    (.vec, 0x80080000007F3543),
    (.vec, 0x0013075200522860),
    (.vec, 0x0013070200522860),
    (.vec, 0x020D0004FE7D3D47),
    (.vec, 0x0000070080000A90),
    (.mem, 0xFFF7F7BE003E3F00),
    (.mem, 0x001DECA1FFFC3E01),
    (.mem, 0x005DE4A1FFFC3E01),
    (.mem, 0x5540200002040110),
    (.mem, 0x09C0018410061402),
    (.mem, 0x58C0B12C91CA0320),
    (.mem, 0x0000A85800006124),
    (.mem, 0x0000D278FFFFFF22),
    (.mem, 0xFFC0A8AC04163C50),
    (.mem, 0x0000A1000C998C70),
    (.mem, 0x0008000000000082),
    (.mx, 0x05197FFBF9819001),
    (.mx, 0x0D197FFBF9B99001),
    (.mx, 0x0000000000040205),
    (.mx, 0x000000000010C421),
    (.mx, 0x00000000482E8022),
    (.mx, 0x0001478224231012),
    (.mx, 0x0000000014402A10),
    (.ctl, 0x000000000100), (.ctl, 0x000001800002), (.alu, 0x001000000026)] = true := by decide

theorem test_unassigned_opcodes_ctl : unassigned .ctl [(0x14, 0xFF)] = true := by decide

theorem test_unassigned_opcodes_alu : unassigned .alu [(0x27, 0xFF)] = true := by decide

theorem test_unassigned_opcodes_vec : unassigned .vec [(0x0B, 0x0F), (0x15, 0x1F), (0x2C, 0x2F), (0x32, 0x3F), (0x49, 0x4F), (0x52, 0x5F), (0x64, 0x6F), (0x72, 0x7F), (0x85, 0x8F), (0x91, 0xFF)] = true := by decide

theorem test_unassigned_opcodes_mem : unassigned .mem [(0x08, 0x0F), (0x15, 0x1F), (0x26, 0x2F), (0x36, 0x3F), (0x45, 0x4F), (0x55, 0x5F), (0x62, 0x6F), (0x75, 0x7F), (0x85, 0xFF)] = true := by decide

theorem test_unassigned_opcodes_mx : unassigned .mx [(0x09, 0x0F), (0x14, 0x1F), (0x23, 0xFF)] = true := by decide

/-! ## Witnesses: encodings -/

/-- Every word of the decode tests above is a case of the first three statements; here one at the edge of its fields. -/
theorem witness_EncodedSlotsDecode :
    (Instr.atom { d := 63, ab := 31, sb := 63, k := 8, fmt := 15, at_ := { cls := 15, ord := 3, sc := 7, nm := 7, ev := 7, lat := 1023 } }).slotKind =
      some .mem ∧
    (Instr.atom { d := 63, ab := 31, sb := 63, k := 8, fmt := 15, at_ := { cls := 15, ord := 3, sc := 7, nm := 7, ev := 7, lat := 1023 } }).wf =
      true := by decide

theorem witness_EncodedBundlesDecode : (Instr.nop).isSlot = true ∧ (Instr.nop).wf = true ∧
    (Instr.popt { aa := 31, s := 63, opt := 1, lat := 0 }).isSlot = true ∧ (Instr.popt { aa := 31, s := 63, opt := 1, lat := 0 }).wf = true := by
  decide

theorem witness_DecodedSlotsAreTheWord : decodeSlot .ctl 0 = .ok .nop ∧ decodeSlot .mx 0x09 = .error .unassignedOpcode := by decide

/-! ## States of the witnesses, and the completion of every slot instruction (ready_…) -/

/-- Plain attributes: class 1. -/
def at0 : Attr := { cls := 1, ord := 0, sc := 0, nm := 0, ev := 0, lat := 39 }

/-- A kernel whose slot 0 has two tiles, latches 0 to 3, a token region and a tensor table. -/
def benchDesc : Desc :=
  { smask := 15, split := 4, acc := [4, 0, 0, 0], latch := [255, 0, 0, 0], hshare := 16, ttab := 0x100800
    regions := [{ tok := 3, die := 0, holder := 0, base := 0x180000, size := 0x10000 }] }

def numCells (l n v : Nat) : List (Nat × Byte) := ((locsFrom l n).zip (toBytes n v)).filter (fun e => e.2 != 0)
/-- A tensor of 40 i32 elements whose first tile lies in page 16. -/
def tensorCells : List (Nat × Byte) := numCells 0x200800 32 (10 + 5 * 2 ^ 12 + 2 ^ 29 + 0x100C00 * 2 ^ 64 + 40 * 2 ^ 128) ++
  numCells 0x200C00 16 ((1 + 0x10 * 2 ^ 16) + (1 + 0x10 * 2 ^ 16) * 2 ^ 64)
/-- A descriptor of a stream of 4 vectors, and a copy command's block. -/
def blockCells : List (Nat × Byte) :=
  numCells (2 ^ 48 + 0x1000) 64 (0x8000000000004000 + 2 * 2 ^ 64 + 4 * 2 ^ 128 + 128 * 2 ^ 160) ++
  numCells (2 ^ 48 + 0x1080) 64 (0 + 0x8000000000004000 * 2 ^ 64 + 0x8000000000006000 * 2 ^ 128 + 64 * 2 ^ 192 + 2 ^ 224) ++
  numCells (2 ^ 48 + 0x1100) 72 (10 * 2 ^ 35 + 1 * 2 ^ 40 + 0x8000000000004000 * 2 ^ 64 + 0x8000000000006000 * 2 ^ 128 + (3 * 2 ^ 60 + 4 * 2 ^ 32) * 2 ^ 512) ++
  numCells (2 ^ 48 + 0x1180) 64 (10 * 2 ^ 35 + 0x8000000000004000 * 2 ^ 64 + 0x8000000000006000 * 2 ^ 128 + 4 * 2 ^ 192 + 2 * 2 ^ 224 + 0x8000000000005000 * 2 ^ 256)

/-- Rope 0 runs a gang of queue 5 in slot 2; page 16 is in HBM, page 17 is not cached. -/
def bench : State :=
  { State.reset with
    ropes := [(0, { res := .busy 2, ready := true })]
    slots := [(2, { queue := some 5, gang := some { desc := benchDesc, phase := .running, ropes := [0], ready := [0] } })]
    queues := [(5, { en := true, xlat := 0x8000 })]
    tokens := [(3, 0)]
    sys := { State.reset.sys with
      tlb := [{ die := 0, root := 0x8000, page := 0x10, mask := 1, pte := 0x200005 }, { die := 0, root := 0x8000, page := 0x11, mask := 2, pte := 0x210025 }] }
    groups := [(1, { regs := [(0, 0x8000000000000000), (0x10, 8), (0x18, 0x8000000000000005)] })]
    fab := { State.reset.fab with egress := [(9, 2), (1024 + 9, 2)] }
    mem := [(0x200004, 0x77)] ++ tensorCells ++ [(0x210000, 5)] ++ blockCells
    cores := [(0, { rings := [(2, 2 ^ 63 + 2 ^ 56 + 2 * 2 ^ 37 + 2 ^ 23 + 0x20 * 2 ^ 8)], sems := [(4, 9)] })] }

def runner : Strand :=
  { st := .detached, s := [(4, 6), (5, 7), (9, 0x10000), (10, 1), (11, 3)], a := [(1, 0x100000), (2, 0x110000), (3, 0x8000000000002000), (4, 0x8000000000003000), (5, 0x80), (6, 0x8000000000001000), (7, 0x4009000000000100), (8, 0x8000000000001080), (9, 0x8000000000001100), (10, 0x8000000000001180)], v := [(2, 0x0505), (3, 0x55)],
    stkbase := 0x2000, stklim := 0x4000 }

def lone (s : State) (x : Strand) : State :=
  { s.setStrand 0 x with issue := { strand := 0, pc := 0x10, succ := 0x12, pre := x } }

def b0 : State := lone bench runner

def atS : Attr := { cls := 1, ord := 0, sc := 0, nm := 0, ev := 0, lat := 0 }
def atL : Attr := { cls := 0, ord := 0, sc := 0, nm := 0, ev := 0, lat := 39 }
def atN : Attr := { cls := 0, ord := 0, sc := 0, nm := 0, ev := 0, lat := 0 }
def ls (d ab : Nat) (fmt : Nat) : LA := ⟨d, ab, 0, fmt, atS⟩
def lt (d ab : Nat) (fmt : Nat) : LA := ⟨d, ab, 0, fmt, atL⟩
def ln (d ab : Nat) (fmt : Nat) : LA := ⟨d, ab, 0, fmt, atN⟩
def la (d ab : Nat) (fmt : Nat) : LA := ⟨d, ab, 0, fmt, at0⟩
def cases0 : List Instr := [
 .nop, .br ⟨0x40,1,4⟩, .jmp ⟨0x40⟩, .jmpr ⟨5, 0⟩, .call ⟨0x40,3⟩, .callr ⟨5,3⟩, .ret ⟨5,0⟩, .loop ⟨0x20, 1, 4⟩, .bswap ⟨0x40⟩, .join ⟨1⟩,
 .detach, .ifence, .ypoint, .yield, .exit, .hold ⟨3⟩, .trap ⟨3⟩, .bkpt ⟨3⟩, .svcNull, .svcEvent, .svcAbort, .svcReside, .svcGroupinfo, .svcUnassigned ⟨77⟩]
def ar : AR := ⟨6,4,5,0,0⟩
def v3 (fmt : Nat) : V3 := ⟨6,2,3,0,0,fmt,0,0⟩
def cases1 : List Instr := [
 .add ar, .addi ⟨6,4,-1⟩, .sub ar, .mul ar, .mulh ar, .mulhn ar, .div ar, .divn ar, .rem ar, .remn ar, .and ar, .or ar, .xor ar, .andn ar, .shl ar, .shr ar, .sar ar, .rol ar, .min ar, .max ar, .minn ar, .maxn ar,
 .cmp ⟨6,4,5,2,0⟩, .sel ⟨6,4,5,0,4⟩, .mov ⟨6,4,0,0,0⟩, .movi ⟨6, 3⟩, .movhi ⟨6,3⟩, .clz ⟨6,4,0,0,0⟩, .ctz ⟨6,4,0,0,0⟩, .popc ⟨6,4,0,0,0⟩, .brev ⟨6,4,0,0,0⟩,
 .bext ⟨6,4,1,3⟩, .bins ⟨6,4,1,3⟩, .lea ⟨6,1,4,2,0⟩, .adda ⟨6,1,4,0,0⟩, .movaToAddress ⟨6,4,0,0,0⟩, .movaToScalar ⟨6,1,0,1,0⟩, .mfs ⟨6,0x20⟩, .mts ⟨4,0x17⟩, .rdcyc ⟨6,0,0,0,0⟩]
def cases2 : List Instr := [
 .vadd (v3 0), .vsub (v3 0), .vmul (v3 1), .vfma (v3 0), .vfms (v3 2), .vfnma (v3 0), .vmin (v3 0), .vmax (v3 0), .vabs {v3 0 with b := 0}, .vneg {v3 0 with b := 0}, .vclamp (v3 0), .vrcp {v3 0 with b := 0}, .vrsq {v3 0 with b := 0}, .vsqrt {v3 0 with b := 0}, .vexp2 {v3 0 with b := 0}, .vlog2 {v3 0 with b := 0},
 .viadd (v3 8), .visub (v3 8), .vimul (v3 9), .vimad (v3 10), .vimin (v3 8), .vimax (v3 12), .vand (v3 12), .vor (v3 12), .vxor (v3 12), .vshl (v3 12), .vshr (v3 12), .vsar (v3 12), .vcmp (v3 8), .vsel (v3 8), .vmov {v3 8 with b := 0}, .vmovi ⟨6,0,8,5⟩, .vbcast {v3 8 with a := 4, b := 0}, .vins {v3 8 with a := 4, b := 0, xf := 2}, .vext {v3 8 with b := 0, xf := 1}, .vperm (v3 12), .vslide (v3 12), .vzip (v3 12), .vunzip (v3 12), .vred {v3 0 with b := 0}, .vscan {v3 8 with b := 0},
 .vcvt ⟨6,2,0,1,0,0,0,0⟩, .vsrnd ⟨6,2,0,1,0,0,0,0⟩, .vblock ⟨6,2,0,20,0,0,0,0⟩, .vunblock ⟨6,2,20,0,0,0,0,0⟩, .vcompress {v3 8 with b := 0, c := 7}, .vexpand (v3 8), .vpcnt {v3 8 with a := 1, b := 0}, .pand ⟨2,1,3,0,0,0,0,0⟩, .por ⟨2,1,3,0,0,0,0,0⟩, .pxor ⟨2,1,3,0,0,0,0,0⟩, .pnot ⟨2,1,0,0,0,0,0,0⟩, .vrand ⟨6,0,0,14,0,0,4,0⟩]
def lx (k fmt : Nat) : LX := ⟨6,1,4,k,fmt,at0⟩
def cases3 : List Instr := [
 .ld (la 6 1 10), .st (ls 4 1 10), .vld (la 6 1 0), .vst (ls 2 1 0), .vldt ⟨6,11,0,at0⟩, .vstt ⟨2,11,0,atS⟩, .vgath ⟨6,1,2,10,at0⟩, .vscat ⟨3,1,2,10,atS⟩,
 .ste (ln 4 3 0), .feset (ln 4 3 0), .feprobe (lt 6 3 0), .atom (lx 0 11), .atomcas (lx 5 11),
 .semadd ⟨4,0,0,0,4,atS⟩, .semset ⟨4,0,0,0,4,atS⟩, .semwait ⟨4,0,0,0,4,atS⟩, .semrd ⟨4,0,0,0,6,at0⟩, .cntwait ⟨0,1,0,0,atS⟩, .fence ⟨0xFFFF,{atN with ord := 2, sc := 5}⟩, .tokacq ⟨3,0,0,0,atN⟩, .tokpass ⟨3,7,0,0,atN⟩, .bufacq ⟨0,0,6,2,atL⟩, .bufrel ⟨0,0,0,2,atN⟩,
 .discard (ls 4 1 0), .wback (ls 4 1 0), .inval (ls 4 1 0), .iinval (ls 4 1 0), .pref (ls 4 1 0), .rld (la 6 7 11), .rst (ls 4 7 11), .ratom ⟨6,7,4,0,11,at0⟩, .tickwait ⟨6,0,0,0,atL⟩, .replay ⟨0,0,0,0,atN⟩, .sbind ⟨0,6,1,0,atS⟩, .sdone ⟨0,0,1,0,atN⟩,
 .haul ⟨0,8,2,0,0,0,atS⟩, .haulg ⟨0,9,2,0,0,0,atS⟩, .hgath ⟨0,10,2,0,0,0,atS⟩, .hscat ⟨0,10,2,0,0,0,atS⟩, .hstat ⟨6,0,2,0,0,0,atL⟩, .bwait ⟨6,0,0,0,0,0,atL⟩, .pitchrd ⟨6,0,0,0,0,0,atL⟩]
def mm : MM := ⟨0,0,3,1,1,0,0,0,5,0⟩
def cases4 : List Instr := [
 .mlatch ⟨0,1,3,1,0,0,5⟩, .mop mm, .mops {mm with am := 3}, .mrank1 ⟨0,2,3,0,0,0,5⟩, .mzero ⟨0,0,0,5⟩, .mloss ⟨0,4,0,5⟩, .mdrain ⟨0,0,0,0⟩, .mstat ⟨0,6,0,5⟩, .oread ⟨0,6,0,0,5⟩, .owrite ⟨0,2,0,0,5⟩, .omom ⟨0,3,3,0,4,0,0,0,0⟩, .oadam ⟨0,3,3,3,4,0,0,0,0⟩, .pusht ⟨3,4,0,0⟩, .tstk ⟨0,6,0,5⟩]
def tagged : State := { bench with full := [(2 ^ 48 + 0x2000) / 8] }
def region : Region := { queue := 5, base := 0x110000, size := 0x10000, grp := 1, st := .joining, unit := 0, frames := [0x21], pitch := 1 }
def guarded : State := { bench with cairn := { bench.cairn with regions := [region] } }
def cases5 : List (Instr × State) := [
 (.ldf (lt 6 3 0), lone tagged runner), (.ldfk (lt 6 3 0), lone tagged runner), (.protect ⟨9,2,0,0,0,10,atN⟩, lone bench { runner with registering := some true }),
 (.unprotect ⟨9,2,0,0,0,10,atN⟩, lone guarded { runner with registering := some true }), (.belay ⟨0,0,0,0,0,0,atN⟩, lone guarded runner),
 (.mopr mm, lone bench { runner with st := .attached }), (.popt ⟨3,4,0,0⟩, lone bench { runner with sizes := [6], depth := 512 }),
 (.rtt, lone bench { runner with handler := .sup, tba := 0x44 }), (.tickwait ⟨6,0,0,0,atL⟩, b0)]

theorem ready_ctl : ∀ i ∈ cases0, b0.ready i := by unfold State.ready; decide
theorem ready_alu : ∀ i ∈ cases1, b0.ready i := by unfold State.ready; decide
theorem ready_vec : ∀ i ∈ cases2, b0.ready i := by unfold State.ready; decide
theorem ready_mem : ∀ i ∈ cases3, b0.ready i := by unfold State.ready; decide
theorem ready_mx : ∀ i ∈ cases4, b0.ready i := by unfold State.ready; decide
theorem ready_more : ∀ e ∈ cases5, e.2.ready e.1 := by unfold State.ready; decide
/-! ## Witnesses: the step -/

/-- The strand with a change, as its bundle's issue begins. -/
def setMe (s : State) (f : Strand → Strand) : State :=
  { s.setStrand 0 (f s.me) with issue := { s.issue with pre := f s.me } }

/-- After reset with a bundle of one ADDI placed where the next step fetches. -/
def fetched : State := State.reset.withFetchWord 384 (bundleOf (.addi { d := 5, a := 5, imm := 64 }))

/-- The same with a bundle of an ADDI and a VFMA (spec/07's words). -/
def twoSlots : Nat := 0x06 + 0x000004014501 * 2 ^ 80 + 0x0000006830160A03 * 2 ^ 128

def fetchedTwo : State := State.reset.withFetchWord 384 twoSlots

/-- What the next step issues: strand and fetched bundle. -/
def picked (s : State) : Option (Nat × Fetched) :=
  match s.pick with
  | some (_, .issues k) => ((s.strand k).queue.head?).map (fun f => (k, f))
  | _ => none

/-- The step answers a next state. -/
def advances (s : State) : Bool :=
  match step s with
  | .next _ => true
  | _ => false

/-- The bits of the picked bundle, where it has passed the checks before its slots. -/
def issues (s : State) : Option Nat :=
  (picked s).bind (fun e =>
    if (s.strand e.1).mxBad.isNone && s.agenda.isEmpty && !s.plat.stopped then
      match e.2.what with
      | .bits w => if (headerOf w).rest = 0 then some w else none
      | _ => none
    else none)

/-- R147's bundle has no conflict, and no fault, wait or failing access in any slot. -/
def clear (s : State) (w : Nat) (is : List (Nat × Instr)) : Bool :=
  (clashFaults (bundleSlots w)).isEmpty && (picked s).any (fun e =>
    match runPhase .probe is (s.begin e.1 e.2) with
    | .next u => u.issue.faults.isEmpty && u.issue.waits.isEmpty && u.issue.misses.isEmpty &&
        (u.bundleWait (is.map (·.2))).isNone
    | _ => false)

theorem witness_MemoryCanonicalKept : Memory.wf fetched.mem = true ∧ advances fetched = true := by decide

theorem witness_NumbersReadBack : 7 < 8 ∧ ((15 : Nat) < 16 ∨ 16 + 8 ≤ 15) ∧ ((24 : Nat) < 16 ∨ 16 + 8 ≤ 24) := by decide

theorem witness_StepRunsTheDecodedSlot :
    issues fetched = some (bundleOf (.addi { d := 5, a := 5, imm := 64 })) ∧
      bundleSlots (bundleOf (.addi { d := 5, a := 5, imm := 64 })) =
        [(1, 0x000004014501, .ok (.addi { d := 5, a := 5, imm := 64 }))] := by decide

def twoInstrs : List (Nat × Instr) :=
  [(1, .addi { d := 5, a := 5, imm := 64 }), (2, .vfma { d := 10, a := 11, b := 12, c := 13, p := 0, fmt := 0, rm := 0, xf := 0 })]

theorem witness_StepRunsEverySlot : issues fetchedTwo = some twoSlots ∧ 2 ≤ twoInstrs.length ∧
    bundleSlots twoSlots = twoInstrs.map (fun e => (e.1, slotBits twoSlots e.1, .ok e.2)) ∧
    clear fetchedTwo twoSlots twoInstrs = true := by decide

/-- The step that follows the placement runs the bundle: s5 gains 64, and the strand goes on at the next bundle. -/
theorem test_step : (match step fetched with
    | .next t => some ((t.strand 0).get (.s 5), (t.strand 0).pc, t.issue.committed)
    | _ => none) = some (64, 2, true) := by decide

theorem test_step_bundle : (match step fetchedTwo with
    | .next t => some ((t.strand 0).get (.s 5), (t.strand 0).inflight.map (fun e => (e.dest, e.due)))
    | _ => none) = some (64, [(.v 10, 6)]) := by decide

/-- The device stopped, and an event from outside and one from within on its agenda; an event that names no unit. -/
theorem witness_StepRunsTheAgenda :
    (Instr.coldReset.unitsExist = true ∧ Instr.coldReset.fromHost = true) ∧
    ((Instr.kick 5 1).unitsExist = true ∧ State.reset.plat.stopped = false) ∧
    (Instr.streamRead 32 0).unitsExist = false ∧
    (State.reset.agenda = [] ∧ ({ State.reset with plat := { State.reset.plat with stopped := true } } : State).plat.stopped = true) := by
  decide

/-- Rope 0 with these index words at pc 0, 2, 4, 6 and at its last word. -/
def indexed (words : List (Nat × Nat)) : State :=
  State.reset.onRope 0 (fun r => { r with copy := words.flatMap (fun e =>
    [(copyAt 0 (wordOff e.1), BitVec.ofNat 8 e.2), (copyAt 0 (wordOff e.1 + 1), BitVec.ofNat 8 (e.2 / 256))]) })

def words : State := indexed [(2, 0x0FFF), (4, 0x1000), (6, 0xFFFD), (8, 0xFFFE), (10, 0xFFFF), (0xFFFE, 0xFFFF)]

theorem witness_IndexWordsDeliver : (words.rope 0).bad = [] ∧ 2 ^ 16 ≤ 0x10000 ∧
    (words.indexWord 0 0 0 = 0 ∧ words.indexWord 0 0 2 = 0x0FFF) ∧
    (words.indexWord 0 0 4 = 0x1000 ∧ words.indexWord 0 0 6 = 0xFFFD) ∧ words.indexWord 0 0 8 = 0xFFFE ∧
    (words.indexWord 0 0 10 = 0xFFFF ∧ 10 + 50 ≤ 2 ^ 16) ∧
    (words.indexWord 0 0 0xFFFE = 0xFFFF ∧ 2 ^ 16 < 0xFFFE + 50) := by decide

/-- R168: an index word below 0x1000 delivers its table entry, and the others as R167 says. -/
theorem test_deliver : words.deliver 0 0 2 = .bits 0 ∧ words.deliver 0 0 4 = .trap .unassignedIndexWord 0x1000 ∧
    words.deliver 0 0 8 = .hold ∧ words.deliver 0 0 0x10000 = .trap .fetchOverrun 0 ∧
    words.deliver 0 0 0xFFFE = .trap .fetchOverrun 0 := by decide

theorem witness_EmptyBundlesIssue : b0.issue.after = none ∧ b0.bundleWait [] = none := by decide

/-! ## Witnesses: waits, traps and rollback -/

/-- A result in flight to s4. -/
def pendingS4 : InFlight := { dest := .s 4, value := none, source := .memory, due := 9 }

def waiting : State := setMe b0 (fun x => { x with inflight := [pendingS4] })

/-- A strand that has left exposed mode while a result is in flight: its next bundle drains first. -/
def draining : State := setMe b0 (fun x => { x with lastX := true, inflight := [pendingS4] })

theorem witness_BlockedSlotsWait :
    ((Instr.add ar).isSlot = true ∧ waiting.issue.phase = .lone ∧ (Instr.add ar).hurdle waiting = some (.wait .scoreboard)) ∧
    (Instr.nop.isSlot = true ∧ draining.issue.phase = .lone ∧ Instr.nop.hurdle draining = none ∧
      draining.bundleWait [.nop] = some .drain) := by decide

/-- `bad use`: RTT outside a handler. -/
theorem witness_FaultingSlotsTrap : Instr.rtt.isSlot = true ∧ b0.issue.phase = .lone ∧
    Instr.rtt.hurdle b0 = some (.fault .badUse 0x11) := by decide

theorem witness_IllegalBundlesTrap :
    (b0.issue.pre.mxBad = none ∧ (headerOf 0x80000000).rest ≠ 0) ∧
    ((headerOf 1).rest = 0 ∧ bundleSlots (1 + 0x14 * 2 ^ 32) = [(0, 0x14, .error .unassignedOpcode)] ∧
      b0.issue.faults = []) := by decide

/-- Each operand fault at a boundary of its range: a target of 17 bits that is odd and one of 18 bits, a trip count of 2^32,
an end word at the bundle's own, a handler's LOOP and JOIN, RTT outside a handler and with an odd TBA, MTS to a supervisor
register and to a stack register in use. -/
def handled (f : Strand → Strand) : State := setMe b0 (fun x => { f x with handler := .replay })

def badOperands : List (Instr × State × Cause × Nat) := [
  (.jmpr ⟨5, 0⟩, setMe b0 (fun x => { x with a := [(5, 0x1FFFF)] }), .badTarget, 0x1FFFF),
  (.callr ⟨5, 3⟩, setMe b0 (fun x => { x with a := [(5, 0x20000)] }), .badTarget, 0x20000),
  (.ret ⟨5, 0⟩, setMe b0 (fun x => { x with a := [(5, 1)] }), .badTarget, 1),
  (.loop ⟨0x20, 1, 4⟩, setMe b0 (fun x => { x with s := [(4, 0x100000000)] }), .badLoop, 0x100000000),
  (.loop ⟨8, 1, 4⟩, b0, .badLoop, 6),
  (.loop ⟨0x20, 1, 4⟩, handled id, .badLoop, 6),
  (.join ⟨1⟩, handled id, .badUse, 0x109),
  (.rtt, b0, .badUse, 0x11),
  (.rtt, handled (fun x => { x with tba := 0x45 }), .badTarget, 0x45),
  (.mts ⟨4, 0x10⟩, b0, .privilege, 0x10), (.mts ⟨4, 0x28⟩, b0, .privilege, 0x28), (.mts ⟨4, 0x29⟩, b0, .privilege, 0x29),
  (.mts ⟨4, 0x20⟩, setMe b0 (fun x => { x with sizes := [6], depth := 512 }), .badUse, 0x080425)]

theorem witness_OperandFaultsAreFound : ∀ e ∈ badOperands, operandFault e.1 e.2.1 = some e.2.2 ∧
    e.2.1.slotHurdle e.1 (e.1.moreSources e.2.1) none = none := by decide

/-- A late result poisons s4, and a fault ticket s5. -/
def poisoned : State :=
  let s := setMe b0 (fun x => { x with inflight :=
    [{ pendingS4 with late := true, exposed := true }, { pendingS4 with dest := .s 5, ticketed := true }] })
  { s with issue := { s.issue with x := true } }

theorem witness_PoisonedSourcesAreFound :
    ((Instr.add ar).encCause = none ∧ poisoned.portFault false poisoned.issue.pops (Instr.add ar).pops = false ∧
      poisoned.portFault true poisoned.issue.pushes (Instr.add ar).pushes = false ∧ poisoned.issue.x = true ∧
      (Instr.add ar).reads ++ [] = [] ++ .s 4 :: [.s 5] ∧ poisoned.issue.pre.poison (.s 4) = some .lateResult) ∧
    ((Instr.mov ⟨6, 5, 0, 0, 0⟩).reads ++ [] = [] ++ .s 5 :: [] ∧ poisoned.issue.pre.poison (.s 5) = some .ticketPending) ∧
    (Instr.cmp ⟨6, 4, 5, 6, 0⟩).encCause = some .reservedField := by decide

/-- A strand at rest with vectors, one hard fault and one late result; and the same in a handler. -/
def vectored : State := setMe b0 (fun x => { x with tvec := 0x10044, rvec := 0x20, loops := [(1, { act := true, last := 9 })] })

theorem witness_TrapEntry : ((vectored.strand 0).handler = .none ∧
      (∀ e ∈ (vectored.strand 0).inflight, e.ticketed = true ∨ e.value.isSome = true) ∧
      (vectored.core (coreOf 0)).hasMx 0 = false) ∧
    ([({ slot := 1, cause := .illegalOperand, info := 7 } : SlotFault), { slot := 5, cause := .lateResult, info := 5 }].map
      (·.slot)).Nodup := by decide

/-- With a replay routine, poison causes alone enter it in state replay; a hard cause goes to TVEC in supervisor state. -/
theorem test_trap_entry :
    (let y := (vectored.takeTrap 0 0x140 [{ slot := 5, cause := .lateResult, info := 5 }]).strand 0
     y.handler = .replay ∧ y.pc = 0x20 ∧ y.bank = 0 ∧ y.tba = 0x140 ∧ y.tfm = 32 ∧ y.tinfo = 5) ∧
    (let y := (vectored.takeTrap 0 0x140 [{ slot := 0, cause := .badTarget, info := 9 }]).strand 0
     y.handler = .sup ∧ y.pc = 0x44 ∧ y.bank = 1 ∧ y.tcause = 8) := by decide

theorem witness_DoubleFault : ((handled id).strand 0).handler ≠ .none := by decide

/-- With breakpoints enabled for its queue. -/
def breaking : State := { b0 with queues := [(5, { en := true, xlat := 0x8000, bke := true })] }

def traps : List Instr := [.trap ⟨3⟩, .bkpt ⟨3⟩, .svcNull, .svcEvent, .svcAbort, .svcReside, .svcGroupinfo, .svcUnassigned ⟨77⟩]

theorem witness_ProgramTraps : (∀ i ∈ traps, (programTrapOf i breaking).isSome = true ∧ breaking.ready i) ∧
    breaking.me.handler = .none ∧ (∀ e ∈ (breaking.strand 0).inflight, e.ticketed = true ∨ e.value.isSome = true) ∧
    (breaking.core (coreOf 0)).hasMx 0 = false ∧
    (b0.breakpoints 0 = false ∧ b0.ready (.bkpt ⟨3⟩)) := by unfold State.ready; decide

def inHandler : State := lone bench { runner with handler := .sup, tba := 0x44 }

theorem witness_ReturnFromTrap : inHandler.ready .rtt := by unfold State.ready; decide

/-- A strand that rolls back, with a shadow of s4. -/
def rolling : State := b0.setStrand 0 { runner with
  st := .trapped, rolling := true, shadows := [.reg (.s 4) 77], restartPc := 0x20, gate := [{ core := 0, cells := [(0x200100, 3)] }] }

theorem witness_RollbackRestores : (rolling.strand 0).rolling = true ∧ rolling.drained 0 = true ∧
    (rolling.strand 0).inflight = [] ∧ (rolling.strand 0).pri = none ∧ (rolling.strand 0).shadows = [.reg (.s 4) 77] ∧ (Dest.s 4).fixed = false := by decide

theorem test_rollback : (match exec (.rollback 0 32 0) rolling with
    | .next t => some ((t.strand 0).get (.s 4), (t.strand 0).pc, (t.strand 0).gate.length, t.byte 0x200100)
    | _ => none) = some (77, 0x20, 0, 0) := by decide
/-! ## Witnesses: ctl and alu -/

/-- BR not taken as well as taken, and the other transfers. -/
theorem witness_Transfers :
    (∀ i ∈ [Instr.br ⟨0x40, 1, 4⟩, .br ⟨0x40, 0, 4⟩, .jmp ⟨0x40⟩, .jmpr ⟨5, 0⟩, .call ⟨0x40, 3⟩, .callr ⟨5, 3⟩, .ret ⟨5, 0⟩, .bswap ⟨0x40⟩],
      (transferTable i b0).isSome = true ∧ b0.ready i) := by unfold State.ready; decide

/-- With a trip count, with the trip count zero, and with an end word just past the bundle's own. -/
theorem witness_LoopBegins :
    b0.ready (.loop ⟨0x20, 1, 4⟩) ∧ b0.ready (.loop ⟨9, 5, 0⟩) := by unfold State.ready; decide

/-- Three loops that end at word 8: level 4 on its last trip, level 2 with trips left, level 1 outside it. -/
def nested : Strand :=
  { loops := [(1, { act := true, last := 8, left := 5, start := 2 }), (2, { act := true, last := 8, left := 2, start := 4 }),
              (4, { act := true, last := 8, left := 1, start := 6 })] }

def endWord : Issue := { strand := 0, pc := 0x10, succ := 0x12 }

theorem witness_LoopEnds : (endWord.transfer = false ∧ endWord.after = none ∧ endWord.pre.handler = .none) ∧
    (LoopReg.ends (Table.get nested.loops {} 2) endWord.pc endWord.bank ∧ 1 < (Table.get nested.loops {} 2).left ∧
      ∀ m, m < 6 → 2 < m → LoopReg.ends (Table.get nested.loops {} m) endWord.pc endWord.bank →
        (Table.get nested.loops {} m).left ≤ 1) ∧
    (∀ n, n < 6 → LoopReg.ends (Table.get ([(4, { act := true, last := 8, left := 1, start := 6 })] : Table LoopReg) {} n)
      endWord.pc endWord.bank →
      (Table.get ([(4, { act := true, last := 8, left := 1, start := 6 })] : Table LoopReg) {} n).left ≤ 1) := by
  unfold LoopReg.ends; decide

/-- R183: the inner loop ends and the middle one goes round. -/
theorem test_loop_ends : (nested.moveOn endWord).pc = 8 ∧ Table.get (nested.moveOn endWord).lix 0 2 = 1 ∧
    (Table.get (nested.moveOn endWord).loops {} 4).act = false ∧ (Table.get (nested.moveOn endWord).loops {} 1).left = 5 := by
  decide

/-- A strand of a stream, with YREQ set. -/
def streaming : State := lone bench { runner with st := .attached, yreq := true }

theorem witness_StrandControls :
    (∀ i ∈ [Instr.nop, .hold ⟨3⟩, .detach, .ifence, .ypoint, .yield, .exit, .join ⟨1⟩], b0.ready i ∧ streaming.ready i) ∧
    b0.me.st = .detached ∧ streaming.me.st = .attached := by unfold State.ready; decide

/-- The divisions, MFS and MTS apart. -/
theorem witness_AluTable : ∀ i ∈ cases1, (aluTable i b0).isSome = true ∨ (divResult i b0).isSome = true ∨
    i = .mfs ⟨6, 0x20⟩ ∨ i = .mts ⟨4, 0x17⟩ := by decide

theorem witness_Division : ∀ i ∈ [Instr.div ar, .divn ar, .rem ar, .remn ar, .div ⟨6, 4, 0, 0, 0⟩],
    (divResult i b0).isSome = true ∧ b0.ready i := by unfold State.ready; decide

theorem witness_ResultFrame : ∀ i ∈ cases1.filter (fun i => i ≠ .mts ⟨4, 0x17⟩) ++ cases2, (resultTargets i).isSome = true := by
  decide

/-- A report of a haul engine waits at port e24. -/
def reported : State := setMe b0 (fun x => { x with reports := [(0, [{ id := 0, val := some 5 }])] })

theorem witness_ResultFrame_report : reported.ready (.vmov { v3 8 with a := 440, b := 0 }) ∧
    440 ∈ (Instr.vmov { v3 8 with a := 440, b := 0 }).pops := by unfold State.ready; decide

/-- Every special register that the statement names; and a number on each side of the LIX and ring ranges. -/
def specials : List Nat := [0, 1, 2, 3, 4, 5, 8, 13, 0x10, 0x11, 0x12, 0x13, 0x14, 0x15, 0x16, 0x17, 0x18, 0x19, 0x1A, 0x1C, 0x20, 0x21,
  0x22, 0x23, 0x24, 0x60, 0x6F]

theorem witness_SpecialsAreRead : ∀ n ∈ specials, (specialValue b0 n).isSome = true ∧ b0.ready (.mfs ⟨6, n⟩) := by
  unfold State.ready; decide

/-- A supervisor writes each writable register, the scope masks at both ends of their range, FLAGS, and a read-only one. -/
def supervising : State := lone bench { runner with handler := .sup }

theorem witness_SpecialsAreWritten :
    (∀ n ∈ [0x10, 0x11, 0x12, 0x13, 0x14, 0x15, 0x17, 0x18, 0x20, 0x21, 0x23, 0x24, 0x28, 0x29, 0x60, 0x6F],
      (specialWritten n 6).isSome = true ∧ supervising.ready (.mts ⟨4, n⟩)) ∧
    (∀ n ∈ [0x40, 0x5F, 0x16, 0x19], supervising.ready (.mts ⟨4, n⟩)) ∧
    (supervising.gangOfRope (ropeOf 0)).isSome = true := by unfold State.ready; decide

/-- The conditions of MTS's normal execution, for a supervisor's register, a stack's with no entry, and any other. -/
theorem witness_SpecialsAreWritten_runs : ∀ e ∈ [(supervising, 0x10), (supervising, 0x28), (b0, 0x20), (b0, 0x17), (b0, 0x60)],
    let s : State := e.1
    let f : AS := ⟨4, e.2⟩
    s.issue.phase = .lone ∧ s.issue.after = none ∧ s.issue.special = none ∧ s.issue.pre = s.me ∧
    (Instr.mts f).encCause = none ∧ s.issue.pops = [] ∧ s.issue.pushes = [] ∧ s.me.poison (.s f.s) = none ∧
    s.me.pending (.s f.s) = false ∧ s.bundleWait [.mts f] = none ∧
    (f.reg = 0x10 ∨ f.reg = 0x28 ∨ f.reg = 0x29 → s.me.handler = .sup) ∧
    (f.reg = 0x20 ∨ f.reg = 0x21 ∨ f.reg = 0x23 → s.me.sizes = []) := by decide

/-! ## Witnesses: the vector slots -/

theorem witness_VecElementwise : ∀ i ∈ cases2.take 28 ++ [.vmov { v3 8 with b := 0 }], (elementOp i).isSome = true ∧ b0.ready i := by
  unfold State.ready; decide

theorem witness_VecPermutes : ∀ i ∈ [Instr.vsel (v3 8), .vperm (v3 12), .vslide (v3 12), .vzip (v3 12), .vunzip (v3 12), .vexpand (v3 8)],
    (chooseOp i).isSome = true ∧ b0.ready i := by unfold State.ready; decide

/-- Element 0 and the last one of a format of 32-bit elements. -/
theorem witness_VecScalars : b0.ready (.vmovi ⟨6, 0, 8, 5⟩) ∧ b0.ready (.vbcast { v3 8 with a := 4, b := 0 }) ∧
    b0.ready (.vins { v3 8 with a := 4, b := 0, xf := 2 }) ∧ b0.ready (.vins { v3 10 with a := 4, b := 0, xf := 31 }) ∧
    b0.ready (.vext { v3 8 with b := 0, xf := 1 }) := by unfold State.ready; decide

theorem witness_VecPredicates : b0.ready (.vcmp (v3 8)) ∧ b0.ready (.vpcnt { v3 8 with a := 1, b := 0 }) ∧
    ∀ i ∈ [Instr.pand ⟨2, 1, 3, 0, 0, 0, 0, 0⟩, .por ⟨2, 1, 3, 0, 0, 0, 0, 0⟩, .pxor ⟨2, 1, 3, 0, 0, 0, 0, 0⟩, .pnot ⟨2, 1, 0, 0, 0, 0, 0, 0⟩],
      (predicateOp i).isSome = true ∧ b0.ready i := by unfold State.ready; decide

theorem witness_VecReductions : b0.ready (.vred { v3 0 with b := 0 }) ∧ b0.ready (.vscan { v3 8 with b := 0 }) := by
  unfold State.ready; decide

theorem witness_VecConversions : ∀ i ∈ [Instr.vcvt ⟨6, 2, 0, 1, 0, 0, 0, 0⟩, .vsrnd ⟨6, 2, 0, 1, 0, 0, 0, 0⟩,
    .vblock ⟨6, 2, 0, 20, 0, 0, 0, 0⟩, .vunblock ⟨6, 2, 20, 0, 0, 0, 0, 0⟩, .vrand ⟨6, 0, 0, 14, 0, 0, 4, 0⟩, .vrand ⟨6, 0, 0, 0, 0, 0, 4, 0⟩],
    b0.ready i := by unfold State.ready; decide

theorem witness_VecCompress : b0.ready (.vcompress { v3 8 with b := 0, c := 7 }) ∧
    b0.ready (.vcompress { v3 11 with b := 0, c := 383 }) := by unfold State.ready; decide

/-! ## Witnesses: the mem slot -/

/-- An acquire, or a release, at device and at pod scope. -/
def acq (lat : Nat) : Attr := { cls := 1, ord := 1, sc := 5, nm := 0, ev := 0, lat := lat }
def rel (sc : Nat) : Attr := { cls := 1, ord := 2, sc := sc, nm := 0, ev := 0, lat := 0 }

/-- The core's L1 holds a Dirty sector and a Clean one. -/
def dirty : State := b0.onCore 0 (fun c => { c with
  l1 := [(0x200000 / 64, 0xABCD), (0x200040 / 64, 0x77)], l1Dirty := [0x200000 / 64] })

theorem witness_LoadsDeliver : b0.ready (.ld (la 6 1 10)) ∧ dirty.ready (.ld { la 6 1 10 with at_ := acq 39 }) ∧
    b0.ready (.vld (la 6 1 0)) := by unfold State.ready; decide

/-- The tensor's entry can be read; the gather's elements end at 32. -/
theorem witness_GathersDeliver : b0.ready (.vgath ⟨6, 1, 2, 10, at0⟩) ∧ b0.ready (.vldt ⟨6, 11, 0, at0⟩) ∧
    (b0.tensor 0).isSome = true ∧ 31 < min 32 (1024 / fmtWidth 10) ∧ min 32 (1024 / fmtWidth 8) ≤ 32 := by
  unfold State.ready; decide

theorem witness_StoresAreHeld : b0.ready (.st (ls 4 1 10)) ∧ dirty.ready (.st { ls 4 1 10 with at_ := rel 5 }) ∧
    b0.ready (.vst (ls 2 1 0)) ∧ b0.ready (.vscat ⟨3, 1, 2, 10, atS⟩) ∧ b0.ready (.vstt ⟨2, 11, 0, atS⟩) ∧
    (b0.tensor 0).isSome = true := by unfold State.ready; decide

/-- A store whose bytes lie in a held sector and beside it, at the last location of the cores' space. -/
def someStore : Store := { core := 0, cells := [(0x200000, 1), (2 ^ 64 - 1, 2)], held := [0x200000 / 64] }

theorem witness_StoresPerform : atS.ord ≠ 2 ∧ 2 ^ 64 - 1 < 2 ^ 64 ∧ 0x200000 / 64 ∈ someStore.held ∧
    (2 ^ 64 - 1) / 64 ∉ someStore.held := by decide

theorem test_held_store : ((b0.perform someStore).byte 0x200000, (b0.perform someStore).byte (2 ^ 64 - 1),
    ((b0.perform someStore).core 0).l1Dirty) = (0, 2, [0x200000 / 64]) := by decide

def full : State := lone tagged runner

theorem witness_TaggedWords : full.ready (.ldf (lt 6 3 0)) ∧ full.ready (.ldfk (lt 6 3 0)) ∧ b0.ready (.ste (ln 4 3 0)) ∧
    b0.ready (.feset (ln 4 3 0)) ∧ full.ready (.feprobe (lt 6 3 0)) ∧
    (∀ i ∈ [Instr.ldf (lt 6 3 0), .ldfk (lt 6 3 0), .ste (ln 4 3 0)], (setMe b0 (fun x => { x with met := some 9 })).ready i) := by
  unfold State.ready; decide

theorem witness_Atomics : b0.ready (.atom (lx 0 11)) ∧ b0.ready (.atom (lx 8 10)) ∧ 8 ≤ 8 ∧ dirty.ready (.atomcas (lx 5 11)) := by
  unfold State.ready; decide

/-- Accelerator 9 takes messages through station 1; accelerator 44 is no DX940. -/
def farther : State := { b0 with fab := { b0.fab with egress := [(9, 2 + 2 ^ 32), (1024 + 9, 2 + 2 ^ 32), (44, 2), (1024 + 44, 2)] } }

theorem witness_Semaphores : b0.ready (.semadd ⟨4, 0, 0, 0, 4, atS⟩) ∧ b0.ready (.semset ⟨63, 255, 0, 0, 4, atS⟩) ∧
    (farther.ready (.semadd ⟨4, 0, 9, 1, 4, atS⟩) ∧ bitAt (farther.egress 9) 32 = true ∧ farther.effectiveSet 9 ≠ []) ∧
    (farther.ready (.semset ⟨4, 0, 44, 1, 4, atS⟩) ∧ bitAt (farther.egress 44) 32 = false) ∧
    b0.ready (.semwait ⟨4, 0, 0, 0, 4, atS⟩) ∧ (setMe b0 (fun x => { x with met := some 0 })).ready (.semwait ⟨4, 0, 0, 0, 4, atS⟩) ∧
    farther.pairWaits 9 1 = false ∧ b0.ready (.semrd ⟨4, 0, 0, 0, 6, at0⟩) := by unfold State.ready; decide

/-- A remote access of the strand in class 1 awaits its answer. -/
def aloof : Ticket := { strand := 0, i := .rld (la 6 7 11), addr := 0x9000000000100, cls := 1, owner := 9 }
def remote : State := b0.onCore 0 (fun c => { c with tickets := [(7, aloof)] })

theorem witness_OrderingOperations : b0.ready (.cntwait ⟨0, 1, 0, 0, atS⟩) ∧ dirty.ready (.cntwait ⟨0, 1, 0, 0, acq 0⟩) ∧
    b0.wide 0 5 0 = true ∧ b0.ready (.fence ⟨0, { rel 5 with cls := 0 }⟩) ∧
    (∀ a ∈ [{ rel 5 with cls := 0 }, { rel 6 with cls := 0 }, { acq 0 with cls := 0 }], dirty.ready (.fence ⟨0xFFFF, a⟩)) ∧
    (remote.ready (.fence ⟨2, { rel 5 with cls := 0 }⟩) ∧ remote.openTags 2 false ≠ []) ∧
    b0.ready (.tokacq ⟨3, 0, 0, 0, atN⟩) ∧ b0.ready (.tokpass ⟨3, 0, 0, 0, atN⟩) ∧ dirty.ready (.tokpass ⟨3, 7, 0, 0, atN⟩) := by
  unfold State.ready; decide

theorem witness_BufferRings : b0.ready (.bufacq ⟨0, 0, 6, 2, atL⟩) ∧
    (setMe b0 (fun x => { x with met := some 9 })).ready (.bufacq ⟨0, 0, 6, 2, atL⟩) ∧ b0.ready (.bufrel ⟨0, 0, 0, 2, atN⟩) := by
  unfold State.ready; decide

/-- R266's ring: BASE 0x400, SIZE 0x80, COUNT 4, HEAD 3, TAIL 1, FREE 2. -/
def ringed : State := b0.onCore 0 (fun c => { c with
  rings := [(2, 2 ^ 63 + 2 * 2 ^ 56 + 3 * 2 ^ 50 + 1 * 2 ^ 44 + 4 * 2 ^ 37 + 0x80 * 2 ^ 23 + 0x400 * 2 ^ 8)] })

theorem test_bufacq : (match exec (.bufacq ⟨0, 0, 9, 2, atL⟩) ringed with
    | .next t => some ((t.me.inflight.find? (fun e => e.dest = .a 9)).bind (·.value), (t.ring 2).head, (t.ring 2).free)
    | _ => none) = some (some 0x8000000000058000, 0, 1) := by decide

/-- The same ring, its oldest buffer released. -/
theorem test_bufrel : (match exec (.bufrel ⟨0, 0, 0, 2, atN⟩) ringed with
    | .next t => some ((t.ring 2).tail, (t.ring 2).free)
    | _ => none) = some (2, 3) := by decide

/-- Two images, and a gang with a rope on each of two dies. -/
def imaged : State := { setMe b0 (fun x => { x with img := [(0, 0x100000), (1, 0x140000)] }) with
  ropes := [(0, { res := .busy 2, ready := true }), (8, { res := .busy 2, ready := true })]
  slots := [(2, { queue := some 5, gang := some { desc := benchDesc, phase := .running, ropes := [0, 8], ready := [0, 8] } })] }

/-- A length that ends inside a sector, and an image that the range of IINVAL meets. -/
theorem witness_CacheControl :
    (∀ i ∈ [Instr.discard (ls 4 1 0), .wback { ls 4 1 0 with at_ := { atS with sc := 6 } }, .inval (ls 4 1 0), .pref (ls 4 1 0)],
      dirty.ready i) ∧
    (b0.wide 0 6 0 = true ∧ overlaps (dirty.rangeParts (ls 4 1 0)) (0x200000 / 64) = true ∧
      (Table.find (dirty.core 0).l1 (0x200000 / 64)).isSome = true ∧ 0x200000 / 64 ∈ (dirty.core 0).l1Dirty) ∧
    within (dirty.rangeParts (ls 0 1 0)) (0x200000 / 64) = true ∧
    (imaged.ready (.iinval (ls 4 1 0)) ∧ imaged.ready (.iinval { ls 4 1 0 with at_ := { atS with sc := 6 } }) ∧
      (∃ r ∈ imaged.iinvalRopes 0 6 0, r / 8 ≠ dieOf 0) ∧ 0 ∈ imaged.iinvalRopes 0 1 0 ∧
      max 0x100000 0x100000 < min (0x100000 + 6) (0x100000 + 2 ^ 18)) := by
  unfold State.ready; decide

/-! ## Witnesses: remote accesses, engines, pitches and the mx slot -/

/-- Accelerator 9 is reached through station 1 and accelerator 2 through none. -/
def linked : State := setMe b0 (fun x => { x with a := (12, 0x4024000000000100) :: x.a })

/-- An address of this accelerator itself. -/
def ownPart : State := setMe b0 (fun x => { x with a := (12, 0x4000000000000100) :: x.a })

/-- Entries that hold a ticket: one ready, one not. -/
def ticketed : State := b0.onCore 0 (fun c => { c with tickets :=
  [(7, { strand := 0, i := .rld (la 6 7 11), addr := 0x4024000000000100, cls := 1, owner := 9, ticketed := true, ready := true }),
   (8, { strand := 0, i := .rld (la 6 7 11), addr := 0x4024000000000100, cls := 1, owner := 9, ticketed := true })] })

theorem witness_RemoteAccesses :
    (b0.ready (.rld (la 6 7 11)) ∧ b0.ready (.rld (la 6 7 0)) ∧ b0.reachable (fld (b0.effective 7 0) 50 10) = false) ∧
    (ownPart.ready (.rld (la 6 12 11)) ∧ fld (ownPart.effective 12 0) 50 10 = ownPart.devid) ∧
    (linked.ready (.rld (la 6 12 11)) ∧ linked.reachable (fld (linked.effective 12 0) 50 10) = true) ∧
    b0.ready (.rst (ls 4 7 11)) ∧ b0.ready (.rst (ls 2 7 0)) ∧ linked.pairWaits 9 1 = false := by
  unfold State.ready; decide

/-- A store to the bytes of an earlier access of class 2, and one of class 1 behind a store that waits so itself. -/
def following (e : Ticket) : State := linked.onCore 0 (fun c => { c with tickets := [(7, { e with ticketed := true })] })
def leading : Ticket := { strand := 0, i := .rst (ls 4 12 11), addr := 0x4024000000000100, cls := 2, owner := 9 }

theorem witness_RemoteAccesses_behind :
    (∀ e ∈ [leading, { leading with cls := 1, behind := some 6 }], (following e).ready (.rst (ls 4 12 11))) ∧
    leading.strand = 0 ∧ leading.cls ≠ 1 ∧ leading.owner = fld 0x4024000000000100 50 10 ∧ leading.bytes = 8 ∧
    (fabricParts leading.addr).2 < (fabricParts 0x4024000000000100).2 + 8 := by
  unfold State.ready; decide

theorem witness_RemoteAccesses_tickets :
    b0.ready (.ratom ⟨6, 7, 4, 0, 11, at0⟩) ∧ b0.ready (.ratom ⟨6, 7, 4, 9, 11, at0⟩) ∧
    (b0.ready (.tickwait ⟨6, 0, 0, 0, atL⟩) ∧ ticketed.ready (.tickwait ⟨6, 0, 0, 0, atL⟩)) ∧
    (ticketed.ready (.replay ⟨0, 0, 0, 0, atN⟩) ∧ ((ticketed.core 0).tickets.map (·.1)).Nodup ∧ ticketed.reachable 9 = true) := by
  unfold State.ready; decide

/-- A port bound for writing whose vectors have all been moved. -/
def bound : State := setMe b0 (fun x => { x with ports :=
  [(0, { write := true, base := 0x8000000000004000, eng := 2, counts := [2], strides := [128], at_ := atS, used := 2, moved := 2 })] })

/-- A haul command with a report, with and without a time that has passed. -/
def hauling : State := setMe { b0 with cycle := 7, cyc := 7 } (fun x => { x with s := (13, 5) :: x.s })

theorem witness_StreamsAndHauls : b0.ready (.sbind ⟨0, 6, 1, 0, atS⟩) ∧ b0.ready (.sbind ⟨0, 6, 31, 1, atS⟩) ∧
    bound.ready (.sdone ⟨0, 0, 0, 0, atN⟩) ∧
    (∀ i ∈ [Instr.haul ⟨0, 8, 2, 0, 0, 0, atS⟩, .haul ⟨13, 8, 2, 3, 1, 0, atS⟩, .haulg ⟨0, 9, 2, 0, 0, 0, atS⟩,
      .hgath ⟨0, 10, 2, 0, 0, 0, atS⟩, .hscat ⟨0, 10, 2, 0, 0, 0, atS⟩], hauling.ready i) ∧
    hauling.me.resumed = false ∧ hauling.rs 13 ≤ hauling.cyc.toNat ∧ b0.ready (.hstat ⟨6, 0, 2, 0, 0, 0, atL⟩) := by
  unfold State.ready; decide

/-- A region of the strand's context in each state, with its registration done. -/
def regional (st : RegionState) : State :=
  lone { bench with cairn := { bench.cairn with regions := [{ region with st := st }] } } { runner with registering := some true }

def protecting : State := lone bench { runner with registering := some true }

/-- The outcome of the last commit is known, or is asked for by pitch: none, a committed one and one to come. -/
def decided (d : Option Bool) (p : Nat) : State :=
  setMe (lone bench runner) (fun x => { x with decided := d, s := (9, BitVec.ofNat 64 p) :: x.s.filter (·.1 ≠ 9) })

def pitched (p : Nat) : State :=
  let s := decided none p
  { s with groups := [(1, { pitch := 3, regs := [(0, 0x8000000000000000), (0x10, 8), (0x18, 0x8000000000000005)] })] }

theorem witness_PitchOperations :
    (protecting.ready (.protect ⟨9, 2, 0, 0, 0, 10, atN⟩) ∧ protecting.queueOf 0 = some 5 ∧
      (match protecting.protectCheck ⟨9, 2, 0, 0, 0, 10, atN⟩ with
       | .ok _ _ => true
       | _ => false) = true) ∧
    (∀ st ∈ [RegionState.joining, .prot, .leaving], (regional st).ready (.unprotect ⟨9, 2, 0, 0, 0, 10, atN⟩) ∧
      ((regional st).namedRegion ⟨9, 2, 0, 0, 0, 10, atN⟩).map (·.st) = some st) := by
  unfold State.ready; decide

theorem witness_PitchOperations_belay :
    (lone guarded runner).ready (.belay ⟨0, 0, 0, 0, 0, 0, atN⟩) ∧
    (∀ d ∈ [some true, some false], (decided d 9).ready (.bwait ⟨6, 0, 0, 0, 0, 9, atL⟩)) ∧
    (∀ p ∈ [0, 1, 3, 5], (pitched p).ready (.bwait ⟨6, 0, 0, 0, 0, 9, atL⟩)) ∧
    b0.ready (.pitchrd ⟨6, 0, 0, 0, 0, 0, atL⟩) ∧
    ((lone guarded runner).ready (.pitchrd ⟨6, 0, 0, 0, 0, 0, atL⟩) ∧ (lone guarded runner).groupOfStrand 0 = some 1 ∧
      (lone guarded runner).undoFill 1 < 2 ^ 7) := by
  unfold State.ready; decide

/-- A stream whose eight strands are attached. -/
def attachedRope : State :=
  lone { bench with strands := (List.range 8).map (fun p => (32 * 0 + 4 * p, { runner with st := .attached })) } { runner with st := .attached }

theorem witness_MxCommandsEnter : (∀ i ∈ cases4, (mxPath i).isSome = true ∧ b0.ready i) ∧
    (∀ f ∈ [(⟨3, 4, 0, 0⟩ : MS), ⟨3, 4, 1, 0⟩], (lone bench { runner with sizes := [6], depth := 512 }).ready (.popt f)) ∧
    (attachedRope.ready (.mopr mm) ∧ ∀ j, j < 8 → (attachedRope.strand (strandAt 0 0 j)).onStream = true) := by
  unfold State.ready; decide
/-! ## Witnesses: the steps of strands and engines -/

/-- A stream of rope 0 that strand 0 leads, and strand 0. -/
def streamed (t : Stream) (x : Strand) : State := { bench with ropes := [(0, { streams := [(0, t)] })] }.setStrand 0 x

def solo (x : Strand) : State := bench.setStrand 0 x

def full32 : List Fetched := List.replicate 32 { pc := 0, bank := 0, succ := 2, what := .hold }

/-- The word at pc 0 of bank 0 of rope 0 is an escape. -/
def escaping (s : State) : State := s.onRope 0 (fun r => { r with copy := [(copyAt 0 (wordOff 0), 0xFF), (copyAt 0 (wordOff 0 + 1), 0xFF)] })

def joining : State := streamed { st := .joining, join := some { pc := 6, bank := 0, succ := 8, loops := [], members := [0], arrived := [0] } } { st := .joining }

def memoryResult (d : Dest) : InFlight := { dest := d, value := some 5, source := .memory }

def entry (b : Bool) : TrapRec := { toRvec := b, tba := 4, tfm := 1, tcause := 1, tinfo := 2 }

theorem witness_StrandSteps_reads :
    (∀ n ∈ [0, 1, 2], (streamed { st := .streaming, lits := n } { st := .attached }).streamReads 0 0 = true ∧
      (streamed { st := .streaming, lits := n } { st := .attached }).streamFull 0 0 = false) ∧
    ((streamed { st := .streaming } { st := .attached }).escapes 0 0 0 = false ∧
      (escaping (streamed { st := .streaming } { st := .attached })).escapes 0 0 0 = true ∧
      (escaping (streamed { st := .streaming } { st := .attached })).streamReads 0 0 = true) ∧
    (0 ∈ (streamed { st := .streaming } { st := .attached }).positions 0 0 Strand.onStream ∧
      (streamed { st := .streaming, lits := 1 } { st := .attached }).stream 0 0 = { st := .streaming, lits := 1 }) ∧
    ((streamed { st := .stalled } { st := .attached, queue := full32 }).streamReads 0 0 = true ∧
      (streamed { st := .stalled } { st := .attached, queue := full32 }).streamFull 0 0 = true) ∧
    (∀ n ∈ [0, 1, 2], (solo { st := .detached, port := some { st := .streaming, lits := n } }).portNext 0 = some 0) ∧
    ((escaping (solo { st := .detached })).portNext 0 = some 0 ∧ (escaping (solo { st := .detached })).escapes 0 0 0 = true) ∧
    (streamed { st := .resolving } { st := .attached, outcome := some (.branch true 0x40) }).leadReady 0 0 =
      some (0, .branch true 0x40) ∧
    ((joining.stream 0 0).join.any (joining.joinReady 0 0) = true ∧ (joining.strand (strandAt 0 0 0)).st = .joining) := by decide

theorem witness_StrandSteps_results :
    (∀ d ∈ [Dest.s 4, .a 31, .v 383, .p 1], d.fixed = false ∧ (memoryResult d).value = some 5 ∧
      (memoryResult d).canLand 0 = true ∧ (memoryResult d).dead = false ∧
      ((solo { st := .detached, inflight := [memoryResult d] }).strand 0).inflight[0]? = some (memoryResult d) ∧
      ((solo { st := .detached, inflight := [memoryResult d] }).strand 0).buffers (memoryResult d) = false) ∧
    (let e : InFlight := { memoryResult (.s 4) with exposed := true, due := 9 }
     e.exposed = true ∧ e.source ≠ .fixed ∧ e.landed = false ∧ e.ticketed = false) ∧
    (∀ b, ((solo { st := .trapped, trapping := some (entry b) }).strand 0).trapping = some (entry b) ∧
      (solo { st := .trapped, trapping := some (entry b) }).drained 0 = true) ∧
    ((solo { st := .detached }).strand 0).active = true ∧ ((solo { st := .attached }).strand 0).softErrs = [] := by decide

/-- The next bundle of strand 0, of one ADDI, which reads s5. -/
def adding : State := solo { st := .detached, softErrs := [(1, 7)], queue :=
  [{ pc := 0, bank := 0, succ := 2, what := .bits (bundleOf (.addi { d := 5, a := 5, imm := 64 })) }] }

theorem witness_StrandSteps_errors :
    ((adding.strand 0).active = true ∧ (adding.strand 0).doomed = false ∧ (1, 7) ∈ (adding.strand 0).softErrs ∧
      (0, 5) ∉ (adding.strand 0).softErrs ∧ (adding.strand 0).queue.length = 1 ∧
      bundleSlots (bundleOf (.addi { d := 5, a := 5, imm := 64 })) =
        [(1, 0x000004014501, .ok (.addi { d := 5, a := 5, imm := 64 }))] ∧
      readsAt 0 5 (.addi { d := 5, a := 5, imm := 64 }) = true ∧ readsAt 1 7 (.addi { d := 5, a := 5, imm := 64 }) = false) ∧
    ((solo { st := .detached }).strand 0).queue = [] ∧
    (coreOf 0 = 0 ∧ (dirty.core 0).l1Dirty.contains (0x200000 / 64) = true ∧ (dirty.core 0).l1Dirty.contains (0x200040 / 64) = false ∧
      (Table.find (dirty.core 0).l1 (0x200040 / 64)).isSome = true) ∧ Table.find bench.sys.below 5 = none := by decide

/-- A command of strand 0 at the head of a path, and one in progress. -/
def command (i : Instr) : MxCmd := { strand := 0, num := 0, i := i }
def queued (p : Nat) (i : Instr) : State := { bench with cores := [(0, { mxq := [(p, [command i])], mxNum := 1 })] }
def inProgress (p : Nat) (i : Instr) : State := { bench with cores := [(0, { mxRun := [(p, command i)], mxNum := 1 })] }

/-- All eight strands of a context have issued MOPR. -/
def meeting : State := { bench with
  ropes := [(0, { mopr := [(0, [0, 1, 2, 3, 4, 5, 6, 7])] })]
  cores := (List.range 8).map (fun p => (p, { mxq := [(0, [{ command (.mopr mm) with strand := 4 * p }])] })) }

/-- A stack of one entry in the window, and of one that is spilled. -/
def stacked (mark : Nat) (spilled : Bool) : Strand :=
  { runner with stkspill := 0x100000, stkmark := mark, stack := [{ z := 6, spilled := spilled }], resident := if spilled then 0 else 512 }
def spilling : State := bench.setStrand 0 (stacked 0 false)
def filling : State := bench.setStrand 0 (stacked (2 * 2 ^ 24 + 1) true)

def inPort (w : Bool) (buf : List Place) : StreamPort :=
  { write := w, base := 0x8000000000004000, eng := 2, counts := [2], strides := [128], at_ := atS, buf := buf }
def reading : State := bench.setStrand 0 { runner with ports := [(1, inPort false [])] }
def writing : State := bench.setStrand 0 { runner with ports := [(1, inPort true [{ id := 0, val := some 5 }])] }

/-- A copy of 64 bytes between two addresses of scratchpad memory, which signals semaphore 4 and has a report. -/
def copying : Haul :=
  { strand := 0, slot := 2, kind := 0, t := 0, late := false, at_ := atS, moved := true, report := some (440, 3)
    block := toBytes 64 (5 + 4 * 2 ^ 17 + 2 ^ 31 + 0x8000000000004000 * 2 ^ 64 + 0x8000000000006000 * 2 ^ 128 + 64 * 2 ^ 192 + 2 ^ 224) }
def withEngine (e : Engine) : State := { bench with engines := [(2, e)] }

/-- A line of a haul command that holds a ticket whose replay notice has come. -/
def lineTicket : EngAccess := { tag := 6, write := false, addr := 0x4024000000000100, data := 0, len := 64, sent := true, ticket := some 3, ready := true }

theorem witness_EngineSteps_mx :
    ((∀ p ∈ [0, 1, 2], ((queued p (.mop mm)).mxReady 0 p).isSome = true) ∧
      (∀ p ∈ [0, 1, 3], Table.find ((inProgress p (.mop mm)).core 0).mxRun (((inProgress p (.mop mm)).core 0).landsNext p) =
        some (command (.mop mm)) ∧ (command (.mop mm)).orphan = false) ∧
      meeting.rendezvousReady 0 0 = true ∧
      (∀ p, p < 8 → (Table.get (meeting.core p).mxq [] 0).head?.isSome = true)) := by decide

/-! What the landing of a command is stated for: commands that land, with the strand that waits for a result. -/

/-- A command that lands on core 0, and the register result that waits for it. -/
def landing (p : Nat) (m : MxCmd) (d : Dest) (x : Strand) : State :=
  { bench with cores := [(0, { mxRun := [(p, m)], mxNum := 1 })] }.setStrand 0
    { x with inflight := [{ dest := d, value := none, source := .mx, tag := 0, due := 9 }] }

/-- It lands, held up by nothing, and may read its operands. -/
def lands (p : Nat) (m : MxCmd) (d : Dest := .s 6) (x : Strand := runner) : Prop :=
  let s := landing p m d x
  Table.find (s.core 0).mxRun ((s.core 0).landsNext p) = some m ∧ s.mxHeld m = false ∧ m.orphan = false ∧ coreOf m.strand = 0 ∧
  (∀ n ∈ m.tiles, ((s.tileOf 0 n).elems.map (·.1)).Nodup) ∧ s.mxPoison m = none ∧ s.storesLand 0 m.strand

/-- A result waits for it. -/
def answered (p : Nat) (m : MxCmd) (d : Dest) : Prop :=
  let s := landing p m d runner
  findMx (s.strand 0).inflight m.num 0 = some 0 ∧ d.fixed = false ∧
  (s.strand 0).inflight[0]?.any (fun e => !e.dead && !(s.strand 0).buffers e) = true

def onTile (i : Instr) : MxCmd := { command i with tiles := [0] }
def onPair (i : Instr) : MxCmd := { command i with tiles := [0, 1], int := true }

theorem witness_EngineSteps_arrays :
    (∀ m ∈ [onTile (.mop mm), onPair (.mop mm), onTile (.mops mm), onTile (.mopr mm), { onTile (.mopr mm) with abandoned := true }],
      lands 0 m) ∧ mm.cols + 1 ≤ 128 ∧ mm.rows + 1 ≤ 128 ∧ posOf 0 % 4 < 3 ∧ posOf 15 % 4 = 3 ∧
    lands 0 (onTile (.mrank1 ⟨0, 2, 3, 0, 0, 0, 5⟩)) ∧
    (lands 1 (onPair (.mzero ⟨0, 0, 1, 5⟩)) ∧ lands 1 (onTile (.mzero ⟨0, 0, 0, 5⟩)) ∧ 0 ∈ (onTile (.mzero ⟨0, 0, 0, 5⟩)).tiles) ∧
    lands 1 (onTile (.mloss ⟨0, 4, 0, 5⟩)) ∧
    (lands 2 { command (.mlatch ⟨0, 1, 3, 1, 0, 0, 5⟩) with mem := [[{ loc := 0x210000, len := 8 }], [{ loc := 0x210100, len := 4 }]] } ∧
      0 < 8) := by
  refine ⟨?_, by decide, by decide, by decide, by decide, ?_, ⟨?_, ?_, by decide⟩, ?_, ?_, by decide⟩ <;>
    (unfold lands State.storesLand; decide)

theorem witness_EngineSteps_results :
    (∀ i ∈ [Instr.mstat ⟨0, 6, 0, 5⟩, .oread ⟨0, 6, 0, 0, 5⟩], lands 1 (onTile i) ∧ answered 1 (onTile i) (.s 6)) ∧
    (lands 1 (onPair (.oread ⟨0, 6, 0, 0, 5⟩)) (.v 6) ∧ answered 1 (onPair (.oread ⟨0, 6, 0, 0, 5⟩)) (.v 6)) ∧
    (∀ m ∈ [onTile (.owrite ⟨0, 2, 0, 0, 5⟩), onPair (.owrite ⟨0, 2, 0, 0, 5⟩)], lands 1 m) ∧
    (∀ n ∈ [2, 0], lands 3 (command (.tstk ⟨n, 6, 0, 5⟩)) ∧ answered 3 (command (.tstk ⟨n, 6, 0, 5⟩)) (.s 6)) := by
  unfold lands answered State.storesLand; decide

/-- Every stack and link of the bench is up. -/
theorem bench_awake (p : Nat) (m : MxCmd) (d : Dest) (x : Strand) (die l : Nat) : (landing p m d x).homeWaits die l = false := by
  simp [State.homeWaits, State.sleeping, State.cutOff, State.linkUp, landing, bench, State.setStrand, State.reset]

/-- An optimiser's operands of weights in bf16 and of moments, apart from each other. -/
def weights : Span := { loc := 0x300000, len := 32768 }
def moments : Span := { loc := 0x400000, len := 65536 }
def squares : Span := { loc := 0x500000, len := 65536 }
def momCmd : MxCmd := { onTile (.omom ⟨0, 3, 3, 0, 4, 2, 0, 0, 0⟩) with mem := [[weights], [moments]], ops := [0, 0, 0, 0] }
def adamCmd : MxCmd := { onTile (.oadam ⟨0, 3, 3, 3, 4, 2, 0, 0, 0⟩) with mem := [[weights], [moments], [squares]], ops := [0, 0, 0, 0] }

theorem witness_EngineSteps_optimisers :
    (lands 1 momCmd ∧ lands 1 adamCmd) ∧ fmtWidth 2 / 8 = 2 ∧ weights.len = 2 * 16384 ∧ moments.len = 65536 ∧
    (∀ z ∈ [weights, moments, squares], z.cached = false ∧ z.held = false) ∧ weights.loc + 2 * 16384 ≤ moments.loc ∧
    moments.loc + 65536 ≤ squares.loc ∧
    ∀ o, (landing 1 momCmd (.s 6) runner).homeWaits 0 (weights.loc + o) = false := by
  refine ⟨by unfold lands State.storesLand; decide, by decide, by decide, by decide, by decide, by decide, by decide, ?_⟩
  exact fun o => bench_awake _ _ _ _ _ _

/-- An entry of 6 bytes is pushed, and one is popped: whole, marked bad, and from a copy. -/
def pushCmd : MxCmd := { command (.pusht ⟨3, 4, 0, 0⟩) with ops := [6, 0, 0], mem := [[{ loc := 0x210000, len := 6 }]] }
def popCmd (keep : Nat) : MxCmd := { command (.popt ⟨3, 4, keep, 0⟩) with ops := [6, 6, 0], mem := [[{ loc := 0x210000, len := 6 }]] }
def holding (bad spilled : Bool) : Strand :=
  { runner with stack := [{ z := 6, bad := bad, spilled := spilled }], resident := if spilled then 0 else 512, depth := 512 }

theorem witness_EngineSteps_stacks :
    (lands 3 pushCmd ∧ (6 + 255) / 256 * 256 + 256 ≤ runner.window) ∧
    (∀ keep ∈ [0, 1], ∀ b ∈ [true, false], lands 3 (popCmd keep) (.s 6) (holding b false) ∧
      (holding b false).stack.getLast? = some { z := 6, bad := b }) ∧
    (lands 3 (popCmd 0) (.s 6) (holding false true) ∧ 0 < runner.window ∧ 6 ≤ (({ loc := 0x210000, len := 6 } : Span)).len) ∧
    ∀ o, (landing 3 pushCmd (.s 6) runner).homeWaits 0 (spmLoc 0 o) = false := by
  refine ⟨by unfold lands State.storesLand; decide, by unfold lands State.storesLand; decide,
    by unfold lands State.storesLand; decide, fun o => bench_awake _ _ _ _ _ _⟩

/-- An operand in a stack that is asleep. -/
theorem witness_EngineSteps_held :
    let m : MxCmd := { onTile (.mop mm) with mem := [[{ loc := 0x210000, len := 64 }], []] }
    let s := { landing 0 m (.s 6) runner with sys := { bench.sys with selfRefresh := [0] } }
    Table.find (s.core 0).mxRun ((s.core 0).landsNext 0) = some m ∧ s.mxHeld m = true := by decide

theorem witness_EngineSteps_stack :
    ((spilling.spillTurn [3] (coreOf 0)).map (·.1) = some 0 ∧ (spilling.strand 0).bottomResident = some 0 ∧ spilling.spills 0 = true ∧
      (spilling.strand 0).stack[0]? = some { z := 6 } ∧ 64 * 3 < stackBytes 6 ∧
      (spilling.flatSpans 0 ((spilling.strand 0).stkspill + (spilling.strand 0).entryDepth 0) (stackBytes 6) true).toOption.isSome =
        true) ∧
    (∀ l ∈ [[], [0x200040 / 64]], let s := { filling with sys := { filling.sys with poison := l } }
      (s.spillTurn [] (coreOf 0)).map (·.1) = some 0 ∧ (s.strand 0).topSpilled = some 0 ∧ s.spills 0 = false ∧ s.fills 0 = true ∧
      (s.strand 0).stack[0]? = some { z := 6, spilled := true } ∧
      ((s.flatSpans 0 ((s.strand 0).stkspill + (s.strand 0).entryDepth 0) (stackBytes 6) false).toOption.map
        (fun p => (s.spanPoison p).isSome)) = some (!l.isEmpty)) := by decide

theorem witness_EngineSteps_ports :
    (Table.find (reading.strand 0).ports 1 = some (inPort false []) ∧ (inPort false []).canFill = true ∧
      reading.forkOver 0 (inPort false []).fork = true ∧ reading.streamLoc 0 (inPort false []) = some (spmLoc 0 0x4000)) ∧
    (Table.find (writing.strand 0).ports 1 = some (inPort true [{ id := 0, val := some 5 }]) ∧
      (inPort true [{ id := 0, val := some 5 }]).canDrain = some 5 ∧ writing.streamLoc 0 (inPort true []) = some (spmLoc 0 0x4000) ∧
      writing.cairn.regions = []) ∧
    (let p : StreamPort := { inPort false [] with base := 0x110000 }
     let s := { bench.setStrand 0 { runner with ports := [(1, p)] } with sys := { bench.sys with selfRefresh := [0] } }
     Table.find (s.strand 0).ports 1 = some p ∧ s.streamLoc 0 p = none) := by decide

/-- The same command before its move, and one that adds 3 to a mark counter at its end. -/
def toMove : Haul := { copying with moved := false }
def marking : Haul :=
  { copying with block := toBytes 64 (0x8000000000004000 * 2 ^ 64 + 0x8000000000006000 * 2 ^ 128 + 64 * 2 ^ 192 + 2 ^ 224 +
      0x8000000000005000 * 2 ^ 320 + 3 * 2 ^ 384) }

theorem witness_EngineSteps_hauls :
    (withEngine { buf := [copying] }).haulReady 2 = some copying ∧
    (((withEngine { run := [copying] }).engine 2).run[0]? = some copying ∧ copying.pend = [] ∧ copying.failed = false ∧
      copying.moved = true ∧ addrKind (srcOf copying.block) ≠ 4 ∧ mincOf copying.block = 0 ∧
      bitAt (ctlOf copying.block) 31 = true ∧ copying.report = some (440, 3) ∧
      (withEngine { run := [copying] }).cutOff (2 / 16) (fld (ctlOf copying.block) 23 8 / 64) = false ∧ copying.at_.sc ≠ 6) ∧
    (((withEngine { run := [{ copying with pend := [lineTicket] }] }).engine 2).readyTags =
        [((9, 1), 3, 6)] ∧
      ((withEngine { run := [{ copying with pend := [lineTicket] }] }).engine 2).ticketOf 6 = some lineTicket ∧
      (withEngine { run := [{ copying with pend := [lineTicket] }] }).reachable (fld lineTicket.addr 50 10) = true) := by decide

theorem witness_EngineSteps_moves :
    (let s := withEngine { run := [toMove] }
     let v : Move := { src := some 0x8000000000004000, dst := 0x8000000000006000, len := 64 }
     (s.haulPlan toMove).toOption = some [v] ∧ (s.engineParts toMove 0x8000000000004000 64 false).toOption =
       some [{ loc := spmLoc 0 0x4000, len := 64, cached := false }] ∧
     s.partPoison { loc := spmLoc 0 0x4000, len := 64, cached := false } = none ∧
     (s.engineParts toMove 0x8000000000006000 64 true).toOption = some [{ loc := spmLoc 0 0x6000, len := 64, cached := false }] ∧
     s.sourceParts toMove [v] = [{ loc := spmLoc 0 0x4000, len := 64, cached := false }] ∧ s.cairn.regions = [] ∧
     addrKind 0x8000000000004000 ≠ 4 ∧ spmLoc 0 0x4000 + 64 ≤ spmLoc 0 0x6000) ∧
    (let s := withEngine { run := [marking] }
     (s.engine 2).run[0]? = some marking ∧ mincOf marking.block = 3 ∧ marking.marked = false ∧ addrKind (markOf marking.block) ≠ 4 ∧
     (s.engineParts marking (markOf marking.block) 8 true).toOption = some [{ loc := spmLoc 0 0x5000, len := 8, cached := false }] ∧
     s.partPoison { loc := spmLoc 0 0x5000, len := 8, cached := false } = none ∧ bitAt (ctlOf marking.block) 31 = false) ∧
    (let h : Haul := { toMove with kind := 2, block := toBytes 64 (10 * 2 ^ 35 + 0x8000000000004000 * 2 ^ 64 + 0x8000000000006000 * 2 ^ 128 +
       4 * 2 ^ 192 + 2 * 2 ^ 224 + 0x8000000000005000 * 2 ^ 256) }
     let q : EngPart := { loc := spmLoc 0 0x5000, len := 16, cached := false }
     ((withEngine {}).engineParts h (idxaOf h.block) (4 * shape0 h.block) false).toOption = some [q] ∧
     (withEngine {}).partPoison q = none ∧ q.len = 4 * shape0 h.block ∧ addrKind (idxaOf h.block) ≠ 4) := by decide

/-- The link between CD0 and CD1, with every lane group down. -/
def severed (h : Haul) : State :=
  { withEngine { run := [h] } with fab := { bench.fab with
      lanes := (List.range Config.laneGroups).map (fun g => (g, { down := true })) ++ [(255, { down := true })] } }

theorem find_numbered {α : Type} (x : α) (l : List Nat) (r : Table α) (g : Nat) (h : g ∈ l) :
    Table.find (l.map (fun g => (g, x)) ++ r) g = some x := by
  induction l with
  | nil => simp at h
  | cons a t ih =>
    by_cases e : a = g
    · simp [Table.find, e]
    · simp only [List.map_cons, List.cons_append, Table.find, e, if_false]
      exact ih ((List.mem_cons.mp h).resolve_left (fun q => e q.symm))

theorem witness_EngineSteps_severed (h : Haul) : (severed h).cutOff (2 / 16) 1 = true := by
  have l : linkOf 0 1 = 0 := by decide
  simp only [State.cutOff, l, State.linkUp, show (2 : Nat) / 16 = 0 from rfl]
  simp only [bne_iff_ne, ne_eq, Nat.zero_ne_one, not_false_eq_true, Bool.and_eq_true, Bool.not_eq_true', Bool.or_eq_false_iff,
    true_and]
  constructor
  · simp [severed]
  · simp only [List.any_eq_false, List.mem_range, Bool.not_eq_true', Bool.not_eq_false]
    intro g hg
    simp [State.lane, severed, Table.get, find_numbered _ _ _ g (List.mem_range.mpr hg)]

/-- A semaphore of a core of CD1 for the command of an engine of CD0. -/
def signalling : Haul := { copying with block := toBytes 64 (5 + 4 * 2 ^ 17 + 64 * 2 ^ 23 + 2 ^ 31 + 0x8000000000004000 * 2 ^ 64 +
  0x8000000000006000 * 2 ^ 128 + 64 * 2 ^ 192 + 2 ^ 224) }

theorem witness_EngineSteps_signal : bitAt (ctlOf signalling.block) 31 = true ∧ fld (ctlOf signalling.block) 23 8 / 64 = 1 ∧
    mincOf signalling.block = 0 ∧ signalling.at_.sc ≠ 6 := by decide

/-- Reloads of the image in page 0x10, of table entries and of an index word, in one unit and in more than one. -/
def reloading (lo len : Nat) : Reload := { num := 1, strand := 0, cls := 1, bank := 0, lo := lo, len := len }
def reloader (l : Reload) : State := { bench.setStrand 0 { runner with img := [(0, 0x100000)] } with ropes := [(0, { res := .busy 2, reloads := [l] })] }

theorem witness_EngineSteps_rest :
    (let s : State := { bench with transit := [{ token := 3, dest := 5, source := 0 }] }
     (s.transit.find? (fun e => e.token = 1024 * 0 + 3)).any s.passes = true) ∧
    (∀ l ∈ [reloading 0 64, reloading 0 4], (reloader l).rope 0 = { res := .busy 2, reloads := [l] } ∧
      (reloader l).forkOver l.strand l.after = true ∧ (reloader l).reloadStop 0 l 0x100000 = none ∧
      ((reloader l).strand 0).fences = []) ∧
    ((reloader (reloading 0 4)).pageParts 0 0x100000 48 = [(0x100000, 48)] ∧
      ((reloader (reloading 0 4)).ropePart 0 0 (0x100000, 48)).toOption = some { loc := 0x200000, len := 48, cached := true }) := by decide
/-! ## Witnesses: launches, queues and registers -/

/-- A descriptor block with one context, one die, one rope and hardware loop 0 over its eight cores, at 0x101000, and a
packet of sequence number 1 that names it, at 0x102000. -/
def packetCells : List (Nat × Byte) :=
  numCells 0x201000 320 (2 ^ 192 + 2 ^ 200 + 2 ^ 208 + 4 * 2 ^ 216 + 16 * 2 ^ 240 + (2 * 2 ^ 32 + 8) * 2 ^ 640) ++
  numCells 0x202000 64 (1 + 0x101000 * 2 ^ 64)

/-- Queue 5 in slot 2 with a gang on rope 0 and its handlers' pages known, after `n` cycles. -/
def slotted (n : Nat) (r : Reservation) (g : Gang) : State :=
  { bench with
    cyc := BitVec.ofNat 64 n, cycle := n, mem := packetCells
    slots := [(2, { queue := some 5, gang := some { g with ropes := [0] } })]
    sys := { bench.sys with tlb := { die := 0, root := 0x8000, page := 0, mask := 15, pte := 0x400005 } :: bench.sys.tlb }
    queues := [(5, { en := true, xlat := 0x8000, qbase := 0x102000, qsize := 16, qtail := 1, pdlv := 100, wdint := 50 })]
    ropes := [(0, { res := r })] }

/-- The same with a queue of its own and no gang. -/
def host : State := slotted 0 .free {}
def unmapped : State := { slotted 0 .free {} with slots := [], mapDue := 1, plat := { bootSt := 3 }
                                                  queues := [(5, { en := true, xlat := 0x8000, pend := true, bprio := 1 })] }

/-- A gang of several ropes in slot 2. -/
def wide (n : Nat) (g : Gang) : State := { slotted n .free {} with slots := [(2, { queue := some 5, gang := some g })] }

def gangPhase (p : Phase) : Gang := { desc := benchDesc, phase := p, ropes := [0] }

theorem witness_LaunchSteps_place :
    (∀ r ∈ [Reservation.free, .busy 3], let s := slotted 5 r (gangPhase .reserving)
      (s.slot 2).queue = some 5 ∧ s.gangAt 2 = some (gangPhase .reserving) ∧ (gangPhase .reserving).granted = [] ∧ (s.rope 0).res = r) ∧
    ((slotted 5 (.held 2) (gangPhase .loading)).gangAt 2 = some (gangPhase .loading) ∧
      ((slotted 5 (.held 2) (gangPhase .loading)).rope 0).res = .held 2 ∧
      ((slotted 5 (.held 2) (gangPhase .loading)).partsStop ((slotted 5 (.held 2) (gangPhase .loading)).queuePart 5 true) [] (handlerRanges.flatMap (fun x =>
        (slotted 5 (.held 2) (gangPhase .loading)).queueParts 5 x.1 x.2))).isNone = true) ∧
    ((slotted 5 (.held 2) { gangPhase .backoff with granted := [0] }).gangAt 2 = some { gangPhase .backoff with granted := [0] } ∧
      ((slotted 5 (.held 2) { gangPhase .backoff with granted := [0] }).rope 0).res = .held 2) ∧
    (let s := slotted 5 (.busy 2) (gangPhase .loading)
     s.slotOfRope 0 = some 2 ∧ s.gangAt 2 = some (gangPhase .loading) ∧ (s.rope 0).ready = false ∧ (s.partsStop (s.ropePart 0 0) [] (s.queueParts 5 0 (2 ^ 18))).isNone = true) ∧
    (let s := slotted 5 .free { gangPhase .backoff with retryAt := 5 }
     s.gangAt 2 = some { gangPhase .backoff with retryAt := 5 } ∧ (gangPhase .backoff).granted = []) := by decide

theorem witness_LaunchSteps_run :
    (let s := slotted 600 (.busy 2) { gangPhase .starting with startAt := 512 }
     (s.slot 2).queue = some 5 ∧ s.gangAt 2 = some { gangPhase .starting with startAt := 512 } ∧
     s.starts 2 { gangPhase .starting with startAt := 512 } = true) ∧
    ((slotted 5 (.busy 2) (gangPhase .running)).slotOfRope 0 = some 2 ∧ (slotted 5 (.busy 2) (gangPhase .running)).ropeDone 0 = true) ∧
    (let s := slotted 5 (.busy 2) { gangPhase .running with byYield := true }
     s.gangAt 2 = some { gangPhase .running with byYield := true } ∧ s.wantsYreq 2 { gangPhase .running with byYield := true } = true ∧
     (gangPhase .running).farDies = []) ∧
    (let g : Gang := { gangPhase .running with byYield := true, ropes := [0, 8], yAt := some 5 }
     ({ g with yAt := none } : Gang).farDies = [1] ∧ (wide 5 { g with yAt := none }).wantsYreq 2 { g with yAt := none } = true ∧
     (wide 5 g).overdue g = some 5 ∧ (wide 5 g).tells (.freeze 2) = false) ∧
    ((slotted 105 (.busy 2) { gangPhase .running with yAt := some 5, pdl := 100 }).gangAt 2 =
        some { gangPhase .running with yAt := some 5, pdl := 100 } ∧
      (slotted 105 (.busy 2) {}).overdue { gangPhase .running with yAt := some 5, pdl := 100 } = some 105) ∧
    (let g : Gang := { gangPhase .freezing with yAt := some 5, lostArea := true }
     let s := (slotted 105 (.busy 2) g).setStrand 0 { st := .frozen }
     s.gangAt 2 = some g ∧ s.saveReady 2 g = true) ∧
    (slotted 5 .free { gangPhase .resuming with saved := some {} }).gangAt 2 = some { gangPhase .resuming with saved := some {} } ∧
    (let s := slotted 5 .free (gangPhase .running)
     let t := { s with sys := { s.sys with tlb := [{ die := 0, root := 0x8000, page := 0x10, mask := 1, pte := 2 ^ 60 + 0x200005 }] } }.onQueue 5
       (fun c => { c with crsize := 16, crbase := 0x100000 })
     s.gangAt 2 = some (gangPhase .running) ∧ s.gangDone 2 (gangPhase .running) = true ∧ (gangPhase .running).launch.donea = 0 ∧
     (s.record 5 0 0 0).toOption.isSome = true ∧ t.gangDone 2 (gangPhase .running) = true ∧
     (match t.record 5 0 0 0 with
      | .error (.moving _ _) => true
      | _ => false) = true) ∧
    (∀ n ∈ [0, 7], let s := slotted 50 (.busy 2) (gangPhase .running)
      let t := s.onQueue 5 (fun c => { c with plast := n })
      t.gangAt 2 = some (gangPhase .running) ∧ t.watchDue 5 (gangPhase .running) = true ∧ t.sys.selfRefresh = [] ∧
      decide ((t.queue 5).prog = (t.queue 5).plast) = decide (n = 0)) ∧
    (let s := slotted 155 (.busy 2) { gangPhase .freezing with yAt := some 5, pdl := 100 }
     s.gangAt 2 = some { gangPhase .freezing with yAt := some 5, pdl := 100 } ∧
     s.saveOverdue 5 { gangPhase .freezing with yAt := some 5, pdl := 100 } = true ∧ (s.queue 5).crsize = 0) := by decide

theorem witness_LaunchSteps_queue :
    (host.bootHeld = false ∧ (host.queue 5).en = true) ∧
    (host.packetReady 2 = some 5 ∧ ∃ b, (host.queueBytes 5 ((host.queue 5).qbase + 64 * ((host.queue 5).qhead % (host.queue 5).qsize)) 64).toOption = some b ∧
      (launchOf b).2 = true ∧ (launchOf b).1.seq = ((host.queue 5).lacc + 1) % 2 ^ 64) := ⟨by decide, by decide, _, rfl, by decide⟩

/-- A dependence that has been met, one on a counter of the queue's space that holds 0x77, and one on another accelerator's
that has answered 4. -/
theorem witness_LaunchSteps_descriptor :
    let g : Gang := { gangPhase .waiting with launch := { seq := 1, kdesc := 0x101000 } }
    let s := slotted 5 .free { g with depMet := true }
    (s.gangAt 2).map (fun g => (g.phase, g.depMet)) = some (.waiting, true) ∧
    (∃ d, (s.readDesc 5 0x101000).toOption = some d ∧ d.smask = 1 ∧ (s.protectAll 5 d.prots).toOption.isSome = true) ∧
    g.depMet = false ∧ g.launch.depa = 0 ∧ addrKind 0x100000 ≠ 4 ∧
    ((slotted 5 .free g).counterLocs 5 0x100000).toOption = some (locsFrom 0x200000 8) ∧
    addrKind 0x4024000000000100 = 4 ∧ fld 0x4024000000000100 50 10 ≠ s.devid :=
  ⟨by decide, ⟨_, rfl, by decide⟩, by decide⟩

theorem witness_LaunchSteps_mapping :
    ((unmapped.queue 5).pend = true ∧ { unmapped with cyc := 4096, sys := { agep := 1024 } }.eprioNow 5 = 5 ∧
      (unmapped.queue 5).eprio < 5) ∧
    (0 < unmapped.mapDue ∧ unmapped.firmwareRuns = true ∧ unmapped.bestPending = some 5 ∧
      (List.range 64).find? (fun i => (unmapped.slot i).queue.isNone) = some 0) := by decide

theorem witness_LaunchSteps_registers :
    (unmapped.bootHeld = false ∧ unmapped.mapped 5 = false ∧ (unmapped.queue 5).froz = false ∧ (unmapped.queue 5).qbase < 2 ^ 64) ∧
    unmapped.host.evack < 2 ^ 64 ∧ unmapped.host.evbase < 2 ^ 64 ∧
    (bench.setStrand 0 { registering := some false }).registersNext 0 = true ∧ State.reset.gangOn 3 = false := by decide
/-! ## Witnesses: the fabric -/

/-- The requester of strand 0 has a request without an answer, with and without a ticket. -/
def asking (tk : Bool) (sent now : Nat) : State :=
  { bench with
    cyc := BitVec.ofNat 64 now, cycle := now
    fab := { bench.fab with out := [{ dest := 9, cls := 1, who := 0, tag := 7, at_ := sent }] }
    cores := [(0, { tickets := [(7, { strand := 0, i := .rld (la 6 7 11), addr := 0x4024000000000100, cls := 1, owner := 9, ticketed := tk,
                                      tnum := 3, ticketAt := sent, dest := some (.s 6) })] })] }.setStrand 0
    { runner with inflight := [{ dest := .s 6, value := none, source := .remote, due := 9, tag := 7, ticketed := tk }] }

def request : FabReq :=
  { src := 9, who := 40, tag := 6, cls := 1, op := 0, addr := 0x100004, len := 8, aop := 0, fmt := 0, data := 0, cmp := 0, poison := false, dxp := true }

/-- The device's export space is the space of the bench, and requests and stalls wait at the owner. -/
def owning (walks : List FabReq) (stalls : List Stall) (now : Nat) : State :=
  { farther with cyc := BitVec.ofNat 64 now, fab := { farther.fab with spaceRoot := some 0x8000, walks := walks, stalls := stalls } }

def stall (posted : Bool) : Stall :=
  { src := 9, who := 40, cls := 1, why := 0, page := 0x20, open_ := [(3, 5)], owed := !posted, posted := posted }

def message (kind : Nat) : Msg :=
  { kind := kind, rk := 0, src := 9, core := 0, sel := 0x10, tnum := 3, val := 5, gid := 0, cause := 0, pitch := 0 }

def ask (tk : Bool) (sent now : Nat) : Option Ticket := Table.find ((asking tk sent now).core (coreOf 0)).tickets 7

/-- The request's bytes, in a stack that is awake and in one that sleeps. -/
def reached (sleep : List Nat) : State :=
  let s := owning [] [] 0
  { s with sys := { s.sys with selfRefresh := sleep } }

theorem witness_FabricSteps_requester :
    (∀ tk ∈ [false, true], (ask tk 0 0).map (fun e => (e.strand, e.ticketed, decide (e.chain < 7))) = some (0, tk, true)) ∧
    findTag ((asking false 0 0).strand 0).inflight 7 0 = some 0 ∧
    (((asking false 0 0).strand 0).inflight[0]?.map (fun x => (x.dead, x.dest.fixed, ((asking false 0 0).strand 0).buffers x))) =
      some (false, false, false) ∧
    ((ask true 0 (2 ^ 26)).map (fun e => (e.ready, e.paused, e.behind,
      decide (e.ticketAt + 2 ^ 26 ≤ (asking true 0 (2 ^ 26)).cyc.toNat)))) = some (false, false, none, true) ∧
    ((asking false 0 (2 ^ 24)).fab.out.any (fun x => x.who == 0 && x.tag == 7 &&
      decide (x.at_ + max 1 (asking false 0 (2 ^ 24)).fab.tmo * 1024 ≤ (asking false 0 (2 ^ 24)).cyc.toNat)) = true ∧
      (asking false 0 (2 ^ 24)).isAsked 7 = false) := by decide

theorem witness_FabricSteps_messages :
    ((message 3).rk = 0 ∧ 0 = 4 * (message 3).core + (message 3).sel % 4) ∧
    (∀ tk ∈ [false, true], (ask tk 0 0).map (fun e => (decide (e.owner = (message 3).src), decide (e.cls = fld (message 3).sel 4 4), e.behind,
      ticketLe e.tnum (message 3).tnum)) = some (true, true, none, true)) ∧
    (1 ≠ 0 ∧ 1 ≠ 3) ∧ ((message 4).kind ≠ 1 ∧ (message 4).kind ≠ 2) := by decide

theorem witness_FabricSteps_owner :
    (reqForm { request with len := 0 } = false ∧ request.src ≠ bench.devid ∧ bench.fab.ingress = [] ∧ aboveExports request.addr = false) ∧
    (let s := { bench with fab := { bench.fab with ingress := [{ request with tag := 5 }] } }
     (s.fab.ingress.takeWhile (fun x => x ≠ request)).any (samePair request) = true ∧ request ∉ s.fab.ingress) ∧
    (∀ e ∈ [([], false), ((List.range 32), true)], let s := reached e.1
     reqForm request = true ∧ s.fab.spaceRoot = some 0x8000 ∧ s.stallOf request = none ∧
     (s.tlbFor (ingressDie request) 0x8000 request.addr).map (fun e => s.readPte (e.pteOf request.addr) request.addr false false) =
       some (.ok 0x200004 0) ∧
     s.pairWalks request = false ∧ s.fab.waiting = [] ∧ isHbm 0x200004 = true ∧ s.mustWait request 0x200004 = e.2) := by decide

theorem witness_FabricSteps_stalls :
    ((owning [] [stall false] 0).stallOf request = some (stall false) ∧ (stall false).admits request = false ∧ (stall false).posted = false) ∧
    (let r := { request with addr := 0x200000 }
     let s := owning [r] [] 0
     s.fab.walks[0]? = some r ∧ s.walkReady 0 r = true ∧ (listDrop s.fab.walks 0).any (samePair r) = false ∧
     s.walk 0x8000 0x200000 = none ∧ s.stallOf r = none ∧ r.dxp = true ∧ s.fab.stalls.length < 16384) ∧
    ((owning [] [stall false] 0).fab.stalls[0]? = some (stall false) ∧ (stall false).owed = true ∧
      (owning [] [stall false] 0).stallReady (stall false) = true ∧ (stall false).src ≠ farther.devid) ∧
    (∀ p ∈ [false, true], let s := owning [] [stall p] (2 ^ 22)
      bitAt (s.egress 9) 32 = true ∧ s.stationFor 9 (1088 + (stall p).die) 0 = some 1 ∧ s.pairWaits 9 0 = false) ∧
    ((owning [] [stall true] (2 ^ 22)).fab.stalls[0]? = some (stall true) ∧ (stall true).posted = true ∧ (stall true).heard = false ∧
      (stall true).resentAt + 2 ^ 22 ≤ (owning [] [stall true] (2 ^ 22)).cyc.toNat) ∧
    max (stall true).noticeAt (stall true).heardAt + 2 ^ 28 ≤ (owning [] [stall true] (2 ^ 28)).cyc.toNat := by decide

/-- What waits in a station's egress queue after a deadline, pairs on the old generation, and multicasts under way. -/
def egress : State := { bench with cyc := 2 ^ 24, fab := { bench.fab with
  egressQ := [{ die := 0, item := .reply 9 1 40 6 0 0, at_ := 0 }], pairs := [(9, 1)], routePairs := [(3, 0)],
  mcast := [{ src := 0, dests := [1], what := .stale (.range 0x8000 0 0x10000) }, { src := 1, dests := [0], what := .yreq 2 }] } }

def stationed (x : Station) (now : Nat) : State := { bench with
  cyc := BitVec.ofNat 64 now, plat := { bootSt := 3 }, fab := { bench.fab with fen := true, stations := [(5, x)], lanes := [(259, x)] } }

theorem witness_FabricSteps_links :
    (egress.fab.egressQ.map (fun x => (decide (x.item.kind ≠ 0), decide (x.at_ + max 1 egress.fab.tmo * 1024 ≤ egress.cyc.toNat)))) = [(true, true)] ∧
    ((stationed {} 0).bootHeld = false ∧ (stationed {} 0).canSwitch 1 = true ∧ (stationed {} 0).fab.fen = true) ∧
    egress.pairReady 9 1 = true ∧ (3, 0) ∈ egress.fab.routePairs ∧ egress.routeOpen 3 0 = false ∧
    (egress.canForward 0).map (·.what) = some (.stale (.range 0x8000 0 0x10000)) ∧ (egress.canForward 1).map (·.what) = some (.yreq 2) ∧
    (egress.gangAt 2).map (fun g => (g.phase, g.yAt)) = some (.running, none) ∧
    ((stationed { down := false } 0).station 5).ret = false ∧ ((stationed { down := false } 0).station 5).down = false ∧
    (((stationed { training := some 0 } (2 ^ 24)).station 5).training = some 0 ∧ ((stationed { training := some 0 } (2 ^ 24)).station 5).ret = false ∧
      0 + 2 ^ 24 ≤ (stationed { training := some 0 } (2 ^ 24)).cyc.toNat) ∧
    (let s := stationed { bkt := 1 } (2 ^ 34)
     0 < (s.station 5).bkt ∧ 0 < s.fab.leak ∧ (s.station 5).leakFrom + s.fab.leak * 2 ^ 20 ≤ s.cyc.toNat) ∧
    ((stationed { ret := true } 0).station 5).ret = true ∧ (stationed { ret := true } 0).clears (32 + 5) = true ∧
    (((stationed { training := some 0 } (2 ^ 24)).lane 1 3).ret = false ∧ ((stationed { training := some 0 } (2 ^ 24)).lane 1 3).down = true ∧
      ((stationed { training := some 0 } (2 ^ 24)).lane 1 3).training = some 0) := by decide

/-! ## Witnesses: protected state -/

/-- Group 7 of three members, of which member 1 is lost: M is 2, PSIZE 1; accelerators 0, 9 and 11. -/
def triple (st rbt midx : Nat) : Group :=
  { regs := [(0, 2 ^ 63), (8, BitVec.ofNat 64 (3 * 2 ^ 32 + 2 * 2 ^ 24 + midx * 2 ^ 40 + 7 * 2 ^ 48)), (0x10, 1), (0x48, 2 ^ 40),
             (0x100, 2 ^ 63), (0x108, 9), (0x110, 2 ^ 63 + 11), (0x1C0, BitVec.ofNat 64 (st * 2 ^ 62 + rbt * 2 ^ 61 + 2 ^ 25))] }

def grouped (g : Group) (now : Nat) : State :=
  { bench with cyc := BitVec.ofNat 64 now, groups := [(1, g)], fab := { bench.fab with egress := [(9, 2), (11, 2), (0, 2 + 2 ^ 32), (1024 + 9, 2)] } }

/-- A region of the group in frame 0x21. -/
def grouping (g : Group) : State :=
  let s := grouped g 0
  { s with cairn := { s.cairn with regions := [{ region with st := .prot }] }, sys := { s.sys with poison := [0x21 * 1024 + 4] } }

def belayMsg (kind src val : Nat) : Msg :=
  { kind := kind, rk := 0, src := src, core := 0, sel := 0, tnum := 0, val := val, gid := 7, cause := 0, pitch := 1 }

def openCommit : Commit := { pitch := 1, openedAt := 0, lines := [], overflow := false }

/-- The address of byte `off` of the staging window of group 1, parity bit 1, and of its data and parity windows. -/
def stagingAt (off : Nat) : Nat := 0x3FF * 2 ^ 40 + 2 ^ 39 + 2 ^ 35 + off
def dataAt (off : Nat) : Nat := 0x3E1 * 2 ^ 40 + off
def parityAt (off : Nat) : Nat := 0x3F0 * 2 ^ 40 + 2 ^ 36 + off

/-- The requester of a peer, and a line that it writes. -/
def peer (src : Nat) : Requester := { src := src, who := 40, tag := 6, cls := 1, port := 0, dxp := true }
def lineData : WriteData := { len := 256, data := 5, poison := false }

/-- Every line of a unit, as member 2 has answered. -/
def readJob (line : Option Nat) (lines : List Nat) : RowJob :=
  { grp := 1, line := line, reads := lines.map (fun l => { member := 2, line := l, tag := 0, data := some [] }) }

def working (s : State) (j : RowJob) : State := { s with cairn := { s.cairn with jobs := [j] } }

theorem witness_CommitSteps_lines :
    (let s := grouping (triple 0 0 0)
     (s.regionOf 0x2101).map (fun r => (r.grp, r.st)) = some (1, .prot) ∧ 0x2101 ∉ (s.group 1).dirty ∧ (s.group 1).commit = none ∧
     s.linePoisoned 0x2101 = true ∧ 0x2101 ∉ s.sys.lostLines ∧ s.sleeping (0x2101 * 256) = false ∧ s.jobOf 1 (some 0x2101) = none) ∧
    (let s := working (grouping (triple 0 0 0)) (readJob (some 0x2101) [1])
     s.jobOf 1 (some 0x2101) = some (readJob (some 0x2101) [1]) ∧ (readJob (some 0x2101) [1]).complete = true ∧
     ((s.regionOf 0x2101).map (fun r =>
       ((s.group r.grp).lineOf (s.dataPlan r 0x2101) (readJob (some 0x2101) [1]) (r.offset 0x2101 / 256 % 256)).isSome)) = some true) ∧
    (let s := guarded.onGroup 1 (fun g => { g with pitch := 1 })
     (s.regionOf 0x2101).map (fun r => (r.st, decide (r.pitch ≠ (s.group r.grp).tracked))) = some (.joining, true)) := by decide

theorem witness_CommitSteps_deltas :
    ∀ e ∈ [([], 2 ^ 40), ([{ grp := 1, bit := 1, off := 0x100, place := 0 }], 2 ^ 40), ([], 0)],
      let g := triple 0 0 0
      let s := grouped { g with regs := (0x48, BitVec.ofNat 64 e.2) :: g.regs } 0
      let t := { s with cairn := { s.cairn with stage := e.1 } }
      let r := (peer 11).write (stagingAt 0x100) lineData
      t.fab.ingress = [] ∧ r.src ≠ t.devid ∧ windowOf r.addr = some (.cairn 1 1 0x100) ∧ t.sleeping (t.group 1).parb = false ∧
      r.len = 256 ∧ (t.group 1).enabled = true ∧ (t.group 1).lostSender r.src = false ∧ 0x100 < (t.group 1).punits * 2 ^ 16 ∧
      r.poison = false ∧ (t.cairn.stage.find? (fun x => x.grp == 1 && x.bit == 1 && x.off == 0x100)) = e.1.head? ∧
      decide ((t.cairn.stage.filter (fun x => x.grp = 1)).length < (t.group 1).room (t.group 1).stageReg) = decide (e.2 ≠ 0) := by decide

theorem witness_CommitSteps_belay :
    (∀ st ∈ [0, 3], let s := (grouped (triple st 0 0) 0).setStrand 4 { belay := some 1 }
      s.belayReady 1 = true ∧ s.belayer 1 = some 4 ∧ (s.group 1).st = st) ∧
    (let s := grouped { triple 0 0 2 with commit := some openCommit } 0
     openCommit.verdict = some 0 ∧ (s.group 1).commit = some openCommit ∧ (s.group 1).st ≠ 1 ∧ (s.group 1).leads = false ∧
     (s.group 1).coordinator = some 0 ∧ s.stationFor ((s.group 1).acc 0) 1088 0 = some 1 ∧ bitAt (s.egress ((s.group 1).acc 0)) 32 = true ∧
     s.pairWaits ((s.group 1).acc 0) 0 = false) ∧
    (let s := grouped (triple 0 0 0) 0
     s.belayGroup { belayMsg 8 11 1 with gid := 8 } = none ∧
     s.belayGroup (belayMsg 8 11 1) = some 1 ∧ (s.group 1).memberOf 11 = some 2 ∧ (s.group 1).leads = true ∧ (s.group 1).st = 0) ∧
    (let s := grouped (triple 0 0 2) 0
     s.belayGroup (belayMsg 9 0 0) = some 1 ∧ (s.group 1).st ≠ 1) ∧
    (let s := grouped { triple 0 0 0 with timer := some 0 } 1024
     (s.group 1).timer = some 0 ∧ (s.group 1).enabled = true ∧ (s.group 1).leads = true ∧
     0 + max 1 (fld ((s.group 1).reg 0x20) 0 32) * 1024 ≤ s.cyc.toNat) := by decide

theorem witness_CommitSteps_recovery :
    (let s := grouped (triple 0 0 0) 0
     s.belayGroup (belayMsg 11 11 0) = some 1 ∧ (s.group 1).leads = true ∧ (s.group 1).st ≠ 3 ∧ (s.group 1).building = false ∧
     (s.group 1).settle = none) ∧
    (∀ v ∈ [1, 2], let s := grouped (triple 1 0 2) 0
      s.belayGroup (belayMsg 12 0 v) = some 1 ∧ (s.group 1).takesDecision 0 1 v = true) ∧
    (let s := grouped (triple 0 0 0) (2 ^ 30)
     s.cairn.windowAt + 2 ^ 30 ≤ s.cyc.toNat) ∧
    (let s := grouped (triple 0 0 0) (2 ^ 22)
     (s.group 1).enabled = true ∧ (s.group 1).building = false ∧ (s.group 1).expelled = false ∧
     (s.group 1).probeAt + (s.group 1).period ≤ s.cyc.toNat) ∧
    (∀ m ∈ [0, 1], let s := grouped (triple 0 0 0) 0
      windowOf (0x3FF * 2 ^ 40 + 2 ^ 35 + m) = some (.cairn 0 1 m) ∧ (s.group 1).memberOf 77 = none ∧ 77 ≠ s.devid ∧ s.fab.ingress = [] ∧
      bitAt m (s.group 1).midx = decide (m = 1) ∧ (s.group 1).rbt = false ∧ s.sleeping (s.group 1).recb = false) ∧
    (triple 0 0 0).asked = [] ∧
    (∀ n ∈ [0, 3], let g := { triple 0 0 0 with asked := [(2, 5, 0)], regs := (0x1C8, BitVec.ofNat 64 (n * 2 ^ 16)) :: (triple 0 0 0).regs }
      (∃ e ∈ g.asked, e.1 = 2) ∧ g.enabled = true ∧ 2 ∈ g.probed ∧ g.building = false ∧ g.live 2 = true ∧ g.n ≤ 24 ∧
      decide (Table.get g.miss 0 2 + 1 < max 1 (fld (g.reg 0x1C8) 16 16)) = decide (n = 3)) := by decide

theorem witness_CommitSteps_windows :
    (let s := grouped (triple 0 0 0) 0
     s.fab.ingress = [] ∧ 9 ≠ s.devid ∧ (windowOf (parityAt 0x1000)).map s.windowWaits = some false ∧
     (windowOf (parityAt 0x1001)).map s.windowWaits = some false ∧ parityAt 0x1001 % 256 ≠ 0 ∧
     windowOf (parityAt 0x1000) = some (.parity 1 0x1000) ∧ 0x1000 / 2 ^ 16 < (s.group 1).punits ∧ parityAt 0x1000 % 256 = 0 ∧
     s.linePoisoned (((s.group 1).parb + 0x1000) / 256) = false) ∧
    (let s := grouped (triple 0 0 0) 0
     (s.group 2).enabled = false ∧ (s.group 2).zeroing = [] ∧ (s.group 1).enabled = true ∧ s.cairn.regions = []) ∧
    (let s := grouped { triple 0 0 0 with zeroing := [(0, 2 ^ 16)] } 0
     (s.group 1).zeroing = [(0, 2 ^ 16)] ∧ s.sleeping 0 = false) := by decide

theorem readJob_line (line : Option Nat) (n l : Nat) (h : l < n) : (readJob line (List.range n)).reads.filter (fun r => r.line = l) =
    [{ member := 2, line := l, tag := 0, data := some [] }] := by
  have : (List.range n).filter (fun x => x = l) = [l] := by
    have e : (fun x : Nat => decide (x = l)) = (· == l) := by funext x; simp [beq_eq_decide]
    rw [e, List.filter_beq, List.count_eq_one_of_mem List.nodup_range (List.mem_range.2 h)]; rfl
  simp only [readJob, List.filter_map, Function.comp_def]
  rw [this]; rfl

theorem mapM_isSome {α β : Type} (f : α → Option β) (l : List α) (h : ∀ a ∈ l, (f a).isSome = true) : (l.mapM f).isSome = true := by
  induction l with
  | nil => rfl
  | cons a l ih =>
    obtain ⟨b, hb⟩ := Option.isSome_iff_exists.1 (h a (by simp))
    obtain ⟨c, hc⟩ := Option.isSome_iff_exists.1 (ih fun x hx => h x (by simp [hx]))
    simp [List.mapM_cons, hb, hc]

/-- Every line of the unit can be made from the answers. -/
theorem witness_CommitSteps_lineOf :
    let g := (grouped { triple 2 0 0 with rebuild := some 0 } 0).group 1
    ((List.range 256).mapM (g.lineOf (g.buildPlan 1 0) (readJob none (List.range 256)))).isSome = true := by
  refine mapM_isSome _ _ fun l h => ?_
  rw [Group.lineOf, readJob_line none 256 l (List.mem_range.1 h), Option.isSome_map]
  simp only [List.map_cons, List.map_nil]
  decide +revert

theorem witness_CommitSteps_rebuild :
    (let s := grouped { triple 2 0 0 with rebuild := some 0 } 0
     let g := s.group 1
     let p := g.buildPlan 1 0
     let j := readJob none (List.range 256)
     let t := working s j
     g.builds = some (1, 0) ∧ s.jobOf 1 none = none ∧ g.k ≤ (g.sources p.t 1 []).length ∧
     (∀ j, j < g.n → j ≠ g.midx → s.reachable (g.acc j) = true) ∧
     ((List.range 256).all (fun l => (s.windowRead (g.rowAddr 1 g.midx p.q p.t l) 256).1 == 0)) = true ∧
     t.jobOf 1 none = some j ∧ j.complete = true ∧
     g.acc 1 ≠ s.devid ∧ s.stationFor (g.acc 1) g.sender 0 = some 1 ∧ s.pairWaits (g.acc 1) 0 = false) ∧
    (∀ a ∈ [dataAt 0x1000, parityAt 0x1000], let s := grouped (triple 2 1 1) 0
      (windowOf a).map (fun w => (w.slot, ((s.group 1).target w).map (fun x => s.sleeping x.1))) = some (1, some false) ∧
      (s.group 1).enabled = true ∧ (s.group 1).building = true ∧ (s.group 1).lostSender 11 = false ∧ a % 256 = 0 ∧
      s.fab.ingress = [] ∧ 11 ≠ s.devid) ∧
    (let g := { triple 2 1 1 with received := List.replicate 768 0, endReply := some 0 }
     g.received.length = (g.psize + g.punits) * 256 ∧ g.enabled = true ∧ g.building = true ∧ g.endReply = some 0 ∧ g.n ≤ 24) := by decide
/-! ## Witnesses: the platform and the host's port -/

def later (n : Nat) : State := { bench with cyc := BitVec.ofNat 64 n, cycle := n }

/-- Page tables of the space with root 0x400000, in four pages, for page 0x10; the level-3 entry stands at 0x430080. -/
def tableCells : List (Nat × Byte) :=
  numCells 0x400000 8 (0x410000 + 1) ++ numCells 0x410000 8 (0x420000 + 1) ++ numCells 0x420000 8 (0x430000 + 1) ++
  numCells 0x430080 8 0x200005
def tables : State := { bench with mem := tableCells }

def moving : State := { tables with sys := { tables.sys with moves := [(0x430080, 0x200005)] } }

def asks (now : Nat) (a : Ask) : State := { (later now).setStrand 0 { pri := some 0x5000 } with host := { bench.host with asks := [a] } }

def plain : Ask := { who := 0, pasid := 3, addr := 0x5000, sentAt := 0 }

theorem witness_PlatformSteps_platform :
    ((later (2 ^ 20)).plat.stopped = false ∧ (later (2 ^ 20)).plat.beatAt + 2 ^ 20 ≤ (later (2 ^ 20)).cyc.toNat ∧
      (∀ c, c < 4 → bitAt 15 c = true) ∧ bitAt 14 0 = false ∧
      1 ≤ Table.get ({ bench.plat with beats := [(0, 1)] } : Platform).beats 0 0) ∧
    (later 250000).plat.comparedAt + 250000 ≤ (later 250000).cyc.toNat ∧
    (∀ z ∈ [0, 4, 11], (bench.zone z).warn ≤ sgn 16 760 ∧ (critOf z : Int) ≤ sgn 16 920 ∧ sgn 16 759 < (bench.zone z).warn) ∧
    (let s := { bench with sys := { bench.sys with selfRefresh := [7] } }
     7 ∈ s.sys.selfRefresh ∧ sgn 16 800 ≤ (critOf (4 + 7) : Int) - 40) ∧
    ((bench.errUnit 3).per ≠ 0 ∧ 3 ∉ bench.sys.selfRefresh ∧ (bench.errUnit 3).lines < stackLines ∧ 15 < (bench.errUnit 3).thr) ∧
    bench.plat.bootSt = 0 ∧ ({ bench.plat with bootSt := 1, bootErr := 2 } : Platform).bootSt = 1 ∧
    { bench with plat := { bootSt := 1, bootErr := 2 } }.bootHeld = true ∧ bench.bootHeld = false ∧ bench.host.session = 0 := by decide

/-- No core of the bench holds a Dirty sector, and its group has no belay record. -/
theorem witness_PlatformSteps_resets :
    (∀ c, (bench.core c).l1Dirty = []) ∧ isHbm 0x200000 = true ∧ (∀ g ∈ bench.groups, g.2.recb = 0) ∧
    { bench with plat := { bench.plat with crit := true } }.plat.crit = true := by
  refine ⟨fun c => ?_, by decide⟩
  by_cases h : c = 0
  · subst h; decide
  · simp [bench, State.core, Table.get, Table.find, Ne.symm h]

theorem witness_PlatformSteps_pages :
    (tables.sys.moves = [] ∧ tables.canMove 0x430080 (2 ^ 40 / 2 ^ 16) = true) ∧
    (moving.sys.moves.find? (fun m => m.1 = 0x430080) = some (0x430080, 0x200005) ∧ moving.moveReady 0x430080 0x200005 = true ∧
      moving.movable (2 ^ 40 / 2 ^ 16) = true ∧ moving.sleeping (2 ^ 40 / 2 ^ 16 * 2 ^ 16) = false) ∧
    (tables.sys.walks = [] ∧ tables.walkSleeps 0 0x400000 0x100000 = false ∧ tables.walk 0x400000 0x100000 = some 0x200005 ∧
      pteGood 0x200005 = true) := by decide

theorem witness_PlatformSteps_ats :
    (asks 0 plain).askOf 0 (fun a => !a.paged && !a.queued && a.failedAt.isNone) = some plain ∧
    (asks (2 ^ 16) { plain with failedAt := some 0 }).askOf 0 (fun a => a.failedAt.any (fun n => decide (n + 2 ^ 16 ≤ 2 ^ 16))) =
      some { plain with failedAt := some 0 } ∧
    ((asks (2 ^ 28) { plain with paged := true }).askOf 0 (fun a => a.paged && decide (a.sentAt + 2 ^ 28 ≤ 2 ^ 28)) =
      some { plain with paged := true } ∧ ((asks 0 plain).strand 0).pri = some plain.addr) ∧
    plain.retried = false ∧
    (∀ e ∈ [({ die := 0, root := 3, page := 5, mask := 0, pte := 0x2000, host := true } : TlbEntry),
        { die := 0, root := 3, page := 0xF, mask := 1, pte := 0x2000, host := true }],
      e.meets 3 0x5000 0x1000 = true) := by decide

theorem witness_PlatformSteps_bar :
    barRange 0x200000 3 = true ∧ barRange (2 ^ 50) 3 = false ∧ bench.host.bar2 = [] ∧ bench.barWaits (.write 0x200000 [1, 2, 3] true) = false ∧
    bench.barWaits (.read 0x200000 3) = false ∧ (∀ l ∈ locsFrom 0x200000 3, l / 64 ∉ bench.sys.poison) ∧
    (bench.strand 0).loads = false ∧
    ({ inflight := [{ dest := .s 6, value := none, source := .memory }] } : Strand).loads = true := by decide
/-! ## Worked examples of the spec (the rule of each stands beside it) -/

/-- A strand alone on its core, about to issue one bundle at pc 0x40. -/
def alone (x : Strand) : State :=
  { State.reset.setStrand 0 x with issue := { strand := 0, pc := 0x40, succ := 0x42, pre := x } }

/-- What a step leaves in a register of its strand. -/
def after (i : Instr) (s : State) (d : Dest) : Option Nat :=
  match exec i s with
  | .next t => some (t.me.get d)
  | _ => none

/-- The value in flight to a destination after a step. -/
def owed (i : Instr) (s : State) (d : Dest) : Option Nat :=
  match exec i s with
  | .next t => (t.me.inflight.find? (fun e => e.dest = d)).bind (·.value)
  | _ => none

/-- R196: MOVI s3, -2 and then MOVHI s3, 0x1234. -/
theorem test_movi : after (.movi { d := 3, imm := 0xFFFFFFFE }) (alone {}) (.s 3) = some 0xFFFFFFFFFFFFFFFE := by decide

theorem test_movhi :
    after (.movhi { d := 3, imm := 0x1234 }) (alone { s := [(3, 0xFFFFFFFFFFFFFFFE)] }) (.s 3) = some 0x00001234FFFFFFFE := by
  decide

/-- R198: BEXT s3, s7, 12, 8. -/
theorem test_bext :
    after (.bext { d := 3, a := 7, pos := 12, len := 7 }) (alone { s := [(7, 0xABCDEF)] }) (.s 3) = some 0xBC := by decide

/-- R197: division rounds toward zero and the remainder takes the dividend's sign: -7 by 2. -/
theorem test_div : owed (.div { d := 3, a := 1, b := 2, f := 0, c := 0 }) (alone { s := [(1, -7), (2, 2)] }) (.s 3) =
    some (2 ^ 64 - 3) := by decide

theorem test_rem : owed (.rem { d := 3, a := 1, b := 2, f := 0, c := 0 }) (alone { s := [(1, -7), (2, 2)] }) (.s 3) =
    some (2 ^ 64 - 1) := by decide

/-- R196: the addition wraps. -/
theorem test_add_wraps : after (.add { d := 1, a := 1, b := 2, f := 0, c := 0 }) (alone { s := [(1, -1), (2, 2)] }) (.s 1) =
    some 1 := by decide

/-- R179: a CALL at pc 0x0200 of bank 1 writes 0x1_0202, and RET through it returns there from bank 0. -/
theorem test_call :
    after (.call { word := 0x40, lk := 9 })
      { alone { bank := 1 } with issue := { strand := 0, bank := 1, pc := 0x200, succ := 0x202, pre := { bank := 1 } } } (.a 9) =
      some 0x10202 := by decide

theorem test_ret : (match exec (.ret { tgt := 9, lk := 0 }) (alone { a := [(9, 0x10202)] }) with
    | .next t => some (t.me.bank, t.me.pc)
    | _ => none) = some (1, 0x202) := by decide

/-- R82: f32 500.0, 0.001, 0.0009 and 3.3 converted with rne: pattern and flags (OF 4, UF 8, NX 16). -/
theorem test_narrow : [(4, 0x43FA0000), (4, 0x3A83126F), (4, 0x3A6BEDFA), (7, 0x40533333)].map
    (fun e => convert e.1 0 0 (f32.value e.2)) =
    [(0x7E, flOF + flNX), (1, flUF + flNX), (0, flUF + flNX), (5, flNX)] := by decide

/-- R86: a block of bk4 with 3.0, 1.0, -0.5, 0.2 and zeros. -/
theorem test_block :
    let r := toBlock 4 0 false (fun _ => 0)
      ([0x40400000, 0x3F800000, 0xBF000000, 0x3E4CCCCD].map f32.value ++ List.replicate 28 (f32.value 0))
    r.1 = 0x80B6DC ∧ r.2.1.take 4 = [7, 2, 15, 0] ∧ r.2.2 = flNX + flUF := by decide

/-- R87: the mantissas 7, 2, -1 and 0 of that block as f32, all exact. -/
theorem test_unblock : [7, 2, 15, 0].map (fun m =>
    (blockValue 4 m (scaleOf 0x80B6DC)).map (f32.deliver 0 0)) =
    [some (0x40400040, 0), some (0x3F5B6E00, 0), some (0xBEDB6E00, 0), some (0, 0)] := by decide

/-- R110: the element at x0 = 300, x1 = 70 of a Z-order e4m3 tensor read with T = 1: tile 4, byte 0x18B2 of its page. -/
theorem test_tensor :
    ({ fmt := 4, z := true, t := true, tr := 8, tc := 8, nd := 2, tiles := 0, ext := [1024, 512, 1, 1, 1], word := 0 } :
      Tensor).place [300, 70, 0, 0, 0] = (4, 0x18B2) := by decide

/-- R275: vector 37 of a stream with counts 4 and 16 and strides 128 and 2,048. -/
theorem test_stream : streamOffset [4, 16] [128, 2048] 37 = 0x80 + 0x4800 := by decide

/-- R338: g(0, 0) and the parity delta of the worked change. -/
theorem test_parity : coef 0 0 = 0x1B ∧ gfMul 0x1B (0x3C ^^^ 0xA5) = 0x6F := by decide

/-- R348: PACE for C = 2,500,000 and M = 18,000,000,000,000. -/
theorem test_pace : (State.repace { State.reset with
    cairn := { State.reset.cairn with c := 2500000, m := 18000000000000 } }).cairn.pace = 9486832980 := by decide

/-- R317: the delays of slots 5 and 6 at attempt 2. -/
theorem test_backoff : backoff 5 2 = 1648 ∧ backoff 6 2 = 1152 := by decide

/-- R44: the coordinates of core 27 on rope 3, with ropes 2 and 3 of CD0 and CD1. -/
theorem test_coordinates :
    let g : Gang := { desc := { gdies := 2, gropes := 2, loop := [(3, 2), (2, 4), (2, 4), (1, 64)] }, ropes := [2, 3, 10, 11] }
    g.coreIndex 27 = 11 ∧ Table.get (g.coords 27) 0 2 = 3 ∧ Table.get (g.coords 27) 0 1 = 2 ∧
      Table.get (g.coords 27) 0 0 = 0 := by decide

/-- R235: the worked MOP holds the array for 8,192 cycles and lands 12 later. -/
theorem test_mop_time : ({ strand := 0, num := 0, i := .mop { acc := 0, w := 2, aa := 6, wa := 7, wb := 3, kb := 127, rows := 127, cols := 95, lat := 0x28C, am := 0 } } : MxCmd).duration = 9212 - 1008 ∧ latBound 0x28C = 9024 := by decide

/-- R327, R425: station 7 of destination 517 for strand 2 of core 37 in class 3, and station 12 in class 4; with station 7
retired, stations 6 and 12. -/
theorem test_path :
    let f : Fabric := { State.reset.fab with egress := [(517, 0xF0F0), (1024 + 517, 0xF0F0)] }
    let s : State := { State.reset with fab := f }
    let r : State := { State.reset with fab := { f with stations := [(7, { ret := true })] } }
    s.stationFor 517 150 3 = some 7 ∧ s.stationFor 517 150 4 = some 12 ∧
      r.stationFor 517 150 3 = some 6 ∧ r.stationFor 517 150 4 = some 12 := by decide

/-- R418: three quarters into the period a scrubber that is 62,500,000 lines behind escalates, and one that is 31,250,000
behind does not. -/
theorem test_scrub : ({ lines := 125000000 } : ErrUnit).escalates (3 * 2 ^ 40) = true ∧
    ({ lines := 187500000 - 31250000 } : ErrUnit).escalates (3 * 2 ^ 40) = false := by decide

/-- R223: the indices that VCOMPRESS keeps of the groups of R224's example. -/
theorem test_compress :
    [[0x7FC00001, 0x3F800000, 0xFF800000, 0xFFC00002], [0x80000000, 0, 0, 0x80000000],
      [0x40000000, 0xC0400000, 0x40400000, 0x3F800000], [0x7F800000, 0x7FC00003, 0x7FC00004, 0x40A00000]].map
      (fun g => keptPair (g.map (rankOf 0))) = [(0, 3), (0, 1), (1, 2), (1, 2)] := by decide

/-- R374: the registers of the worked trap. -/
theorem test_trap_registers :
    let t := trapRec { rvec := 0x44 } 0x140
      [{ slot := 1, cause := .illegalOperand, info := 0xECC1C31F }, { slot := 2, cause := .lateResult, info := 5 },
       { slot := 4, cause := .badAddress, info := 0x101 }]
    t.tfm = 0b010110 ∧ t.tcause = 0x0000000D00200300 ∧ t.tinfo = 0xECC1C31F ∧ t.tba = 0x140 ∧ t.toRvec = false := by decide

/-- R244: the worked element of OMOM.bf16: first moment 0x40980000, weight 0x3F74, and NX. -/
theorem test_omom :
    let r := momCell 2 0 0 (f32.value 0x3C23D70A) (f32.value 0x3F600000) (f32.value 0x40400000) (f32.value 0x3F800000) (f32.value 0x40000000)
    (r.m, r.w, r.flags) = (0x40980000, 0x3F74, flNX) := by decide

theorem witness_BitFields :
    (Instr.bins { d := 44, a := 33, pos := 0, len := 63 }).wf = true ∧ 64 < 63 + (1 + 1) ∧
    b0.ready (.bext ⟨6, 4, 1, 3⟩) ∧ b0.ready (.bins ⟨6, 4, 1, 62⟩) ∧
    (let s := setMe b0 (fun x => { x with s := (7, 0xABCDEF) :: x.s })
     s.ready (.bext { d := 3, a := 7, pos := 12, len := 7 }) ∧ s.rs 7 = 0xABCDEF) := by unfold State.ready; decide

end Sys2Proof.Tests
end

namespace Sys2Proof
section
/-! ### Numbers and their bytes (R4) -/

@[simp] theorem length_toBytes (n v : Nat) : (toBytes n v).length = n := by
  induction n generalizing v with
  | zero => rfl
  | succ n ih => simp [toBytes, ih]

theorem toBytes_getElem (n v j : Nat) (h : j < (toBytes n v).length) :
    (toBytes n v)[j] = BitVec.ofNat 8 (v / 256 ^ j) := by
  induction n generalizing v j with
  | zero => simp [toBytes] at h
  | succ n ih =>
    cases j with
    | zero => simp [toBytes]
    | succ j => simp [toBytes, ih, Nat.div_div_eq_div_mul, Nat.pow_succ, Nat.mul_comm]

theorem ofBytes_toBytes (n v : Nat) : ofBytes (toBytes n v) = v % 256 ^ n := by
  induction n generalizing v with
  | zero => simp [toBytes, ofBytes, Nat.mod_one]
  | succ n ih =>
    rw [toBytes, ofBytes, ih, BitVec.toNat_ofNat, pow_succ' 256 n, Nat.mod_mul]

end
end Sys2Proof

namespace Sys2Proof.Machine
section
/-! ### Runs of locations -/

theorem locsFrom_eq_map (l n : Nat) : locsFrom l n = (List.range n).map (l + ·) := by
  induction n generalizing l with
  | zero => rfl
  | succ n ih =>
    rw [locsFrom, ih, List.range_succ_eq_map, List.map_cons, List.map_map]
    simp only [Nat.add_zero, List.cons.injEq, true_and]
    exact List.map_congr_left fun a _ => by simp only [Function.comp_apply]; omega

@[simp] theorem mem_locsFrom (l n a : Nat) : a ∈ locsFrom l n ↔ l ≤ a ∧ a < l + n := by
  rw [locsFrom_eq_map, List.mem_map]
  constructor
  · rintro ⟨j, hj, rfl⟩
    have := List.mem_range.mp hj
    omega
  · rintro ⟨h1, h2⟩
    exact ⟨a - l, List.mem_range.mpr (by omega), by omega⟩

@[simp] theorem length_locsFrom (l n : Nat) : (locsFrom l n).length = n := by simp [locsFrom_eq_map]

theorem locsFrom_getElem (l n j : Nat) (h : j < (locsFrom l n).length) : (locsFrom l n)[j] = l + j := by
  simp [locsFrom_eq_map]

theorem nodup_locsFrom (l n : Nat) : (locsFrom l n).Nodup := by
  rw [locsFrom_eq_map]
  exact List.nodup_range.map fun a b h => Nat.add_left_cancel h

/-! ### Numbers in memory -/

theorem State.byte_setNum_other (s : State) (l n v a : Nat) (h : a < l ∨ l + n ≤ a) :
    (s.setNum l n v).byte a = s.byte a := by
  refine State.byte_setBytes_other _ s a fun c hc he => ?_
  have hm := (mem_locsFrom l n c.1).mp (List.of_mem_zip hc).1
  omega

theorem State.byte_setNum_mem (s : State) (l n v j : Nat) (h : j < n) :
    (s.setNum l n v).byte (l + j) = BitVec.ofNat 8 (v / 256 ^ j) := by
  have hz : j < ((locsFrom l n).zip (toBytes n v)).length := by simpa using h
  have hc := List.getElem_mem hz
  rw [List.getElem_zip, locsFrom_getElem, toBytes_getElem] at hc
  refine State.byte_setBytes_mem _ s ?_ _ hc
  rw [List.map_fst_zip (by simp)]
  exact nodup_locsFrom l n

/-- The bytes that a number's write leaves are the number's bytes. -/
theorem State.bytes_setNum (s : State) (l n v : Nat) : (locsFrom l n).map (s.setNum l n v).byte = toBytes n v := by
  refine List.ext_getElem (by simp) fun j h _ => ?_
  have hj : j < n := by simpa using h
  rw [List.getElem_map, locsFrom_getElem, s.byte_setNum_mem l n v j hj, toBytes_getElem]

theorem State.num_setNum_same (s : State) (l n v : Nat) : (s.setNum l n v).num l n = v % 256 ^ n := by
  rw [State.num, s.bytes_setNum, ofBytes_toBytes]

end
end Sys2Proof.Machine

open Sys2Proof Sys2Proof.Machine in
/-- Settles O7: the bytes that the write leaves at its locations are the bytes of the number. -/
theorem numbersReadBack : Obligations.NumbersReadBack := fun s l n v =>
  ⟨s.num_setNum_same l n v, fun j hj => s.byte_setNum_mem l n v j hj, fun a ha => s.byte_setNum_other l n v a ha⟩

/-! ## The agenda and the passing of time (R7, R15, R365, R383) -/

namespace Sys2Proof.Machine
section

/-- The second state differs from the first in what strands and cores hold, and every strand stands in the stage in which it
stood. -/
def StagesKept (s t : State) : Prop :=
  (∃ x c, t = { s with strands := x, cores := c }) ∧ ∀ k, (t.strand k).st = (s.strand k).st

theorem StagesKept.refl (s : State) : StagesKept s s := ⟨⟨_, _, rfl⟩, fun _ => rfl⟩

theorem StagesKept.trans {s t u : State} (h : StagesKept s t) (k : StagesKept t u) : StagesKept s u := by
  refine ⟨?_, fun i => (k.2 i).trans (h.2 i)⟩
  obtain ⟨⟨x, c, rfl⟩, -⟩ := h
  obtain ⟨⟨x, c, rfl⟩, -⟩ := k
  exact ⟨_, _, rfl⟩

theorem StagesKept.foldl {α : Type} (f : State → α → State) (h : ∀ s a, StagesKept s (f s a)) (l : List α) (s : State) :
    StagesKept s (l.foldl f s) := by
  induction l generalizing s with
  | nil => exact .refl s
  | cons a l ih => exact (h s a).trans (ih _)

theorem State.onCore_stagesKept (s : State) (c : Nat) (f : Core → Core) : StagesKept s (s.onCore c f) :=
  ⟨⟨_, _, rfl⟩, fun _ => rfl⟩

theorem State.onStrand_stagesKept (s : State) (j : Nat) (f : Strand → Strand) (h : ∀ x, (f x).st = x.st) :
    StagesKept s (s.onStrand j f) := by
  refine ⟨⟨_, _, rfl⟩, fun k => ?_⟩
  by_cases hk : k = j
  · rw [hk, State.onStrand_strand, h]
  · rw [State.onStrand_strand_other _ _ _ _ hk]

@[simp] theorem Strand.put_st (x : Strand) (d : Dest) (v : Nat) : (x.put d v).st = x.st := by
  unfold Strand.put; split <;> rfl

@[simp] theorem Strand.keep_st (x : Strand) (d : Dest) : (x.keep d).st = x.st := by
  unfold Strand.keep; split <;> rfl

@[simp] theorem Strand.landValue_st (x : Strand) (e : InFlight) (v : Nat) : (x.landValue e v).st = x.st := by
  unfold Strand.landValue
  split
  · split <;> rfl
  · split <;> simp

theorem State.setPlaces_stagesKept (s : State) (k port : Nat) (push : Bool) (l : List Place) :
    StagesKept s (s.setPlaces k port push l) := by
  unfold State.setPlaces
  split
  · exact s.onStrand_stagesKept _ _ fun x => by split <;> rfl
  split
  · exact s.onCore_stagesKept _ _
  split
  · dsimp only
    split <;> exact s.onCore_stagesKept _ _
  · exact s.onStrand_stagesKept _ _ fun _ => rfl

theorem State.landAt_stagesKept (s : State) (k i v : Nat) : StagesKept s (s.landAt k i v) := by
  unfold State.landAt
  split
  · exact .refl s
  · dsimp only
    split
    · refine (State.onStrand_stagesKept s k _ ?_).trans (State.setPlaces_stagesKept _ _ _ _ _)
      exact fun x => by split <;> simp
    · refine State.onStrand_stagesKept s k _ ?_
      exact fun x => by split <;> simp

/-- Settling results lands them, or changes their notes: no strand changes its stage (R34, R37). -/
theorem State.settle_stagesKept (s : State) (k : Nat) : StagesKept s (s.settle k) := by
  have from_ (n i : Nat) (s : State) : StagesKept s (s.settleFrom k i n) := by
    induction n generalizing i s with
    | zero => exact .refl s
    | succ n ih =>
      unfold State.settleFrom
      split
      · exact .refl s
      · split
        · exact ih _ _
        · exact (s.landAt_stagesKept _ _ _).trans (ih _ _)
        · refine (s.onStrand_stagesKept k _ ?_).trans (ih _ _)
          exact fun _ => rfl
        · refine (s.onStrand_stagesKept k _ ?_).trans (ih _ _)
          exact fun _ => rfl
  unfold State.settle
  split
  · exact .refl s
  · exact from_ _ _ s

/-- A strand that does not wait is not woken. -/
theorem State.wakeStrand_of_not_waiting (s : State) (k : Nat) (h : (s.strand k).st ≠ .waiting) : s.wakeStrand k = s := by
  unfold State.wakeStrand
  dsimp only
  split
  · rw [if_neg (by simp [h])]
  · rfl

/-- Where no strand waits, a cycle counts CYC and settles results: memory stays. -/
theorem State.tick_of_none_waits (s : State) (h : ∀ k, (s.strand k).st ≠ .waiting) :
    s.tick.cycle = s.cycle + 1 ∧ s.tick.mem = s.mem ∧ s.tick.cyc = s.countCyc.cyc ∧ s.tick.cycRest = s.countCyc.cycRest := by
  have settled := StagesKept.foldl (fun s e => s.settle e.1) (fun s e => s.settle_stagesKept e.1) s.strands { s.countCyc with
    cycle := s.cycle + 1, turn := 0, granted := [], deferred := [], arrived := false, raised := [] }
  have wake (l : List (Nat × Strand)) (v : State) (hv : ∀ k, (v.strand k).st ≠ .waiting) :
      l.foldl (fun s e => s.wakeStrand e.1) v = v := by
    induction l with
    | nil => rfl
    | cons e l ih => rw [List.foldl_cons, v.wakeStrand_of_not_waiting e.1 (hv e.1), ih]
  unfold State.tick
  obtain ⟨⟨x, c, hx⟩, hst⟩ := settled
  rw [wake]
  · exact ⟨(congrArg State.cycle hx :), (congrArg State.mem hx :), (congrArg State.cyc hx :), (congrArg State.cycRest hx :)⟩
  · exact fun k e => h k ((hst k).symm.trans e)

/-- With a clock above 0, FREQ divides the counts of a cycle (R7, R365). -/
theorem State.countCyc_eq (s : State) (h : 1 ≤ s.plat.freq) : s.countCyc = { s with
    cyc := s.cyc + BitVec.ofNat 64 ((s.cycRest + 2500) / s.plat.freq), cycRest := (s.cycRest + 2500) % s.plat.freq } := by
  unfold State.countCyc
  rw [Nat.max_eq_right h]

theorem proceed_of_stopped (s : State) (h : s.plat.stopped = true) : proceed s = .next s.tick := by
  unfold proceed
  rw [if_pos h]

theorem step_of_event (s : State) (i : Instr) (rest : List Agendum) (ha : s.agenda = .event i :: rest)
    (hi : i.unitsExist = true) (h : s.plat.stopped = false ∨ i.fromHost = true) :
    step s = exec i { s with agenda := rest } := by
  simp only [step, ha, Agendum.exists, hi, if_true]
  rw [if_neg]
  rcases h with h | h <;> simp [h]

theorem step_of_no_such_unit (s : State) (i : Instr) (rest : List Agendum) (ha : s.agenda = .event i :: rest)
    (hi : i.unitsExist = false) : step s = .fault .noSuchUnit := by
  simp [step, ha, Agendum.exists, hi]

theorem step_of_stopped (s : State) (ha : s.agenda = []) (h : s.plat.stopped = true) : step s = .next s.tick := by
  rw [step, ha]
  exact proceed_of_stopped s h

end
end Sys2Proof.Machine

open Sys2Proof Sys2Proof.Machine in
/-- Settles O11: the step on an event by its definition; and where no strand waits, a cycle is the count of CYC and the
settling of results, which leave memory alone. -/
theorem stepRunsTheAgenda : Obligations.StepRunsTheAgenda := by
  refine ⟨step_of_event, step_of_no_such_unit, fun s ha hs hw hf => ⟨s.tick, step_of_stopped s ha hs, ?_⟩⟩
  obtain ⟨hc, hm, hy, hr⟩ := s.tick_of_none_waits hw
  rw [s.countCyc_eq hf] at hy hr
  exact ⟨hc, hm, hy, hr⟩

/-! ## What reaches the homes of locations: frames of caches and before-images (R112, R117, R118, R339) -/

namespace Sys2Proof.Machine
section

/-- The core holds the tiles, latches, semaphores and rings that it held. -/
def Core.SameFile (x y : Core) : Prop :=
  y.tiles = x.tiles ∧ y.latches = x.latches ∧ y.sems = x.sems ∧ y.rings = x.rings

theorem Core.SameFile.refl (x : Core) : x.SameFile x := ⟨rfl, rfl, rfl, rfl⟩

theorem Core.SameFile.trans {x y z : Core} (h : x.SameFile y) (k : y.SameFile z) : x.SameFile z := by
  obtain ⟨htiles, hlatches, hsems, hrings⟩ := h
  obtain ⟨ktiles, klatches, ksems, krings⟩ := k
  exact ⟨ktiles.trans htiles, klatches.trans hlatches, ksems.trans hsems, krings.trans hrings⟩

theorem Core.SameFile.tiles {x y : Core} (h : x.SameFile y) : y.tiles = x.tiles ∧ y.latches = x.latches := by
  obtain ⟨htiles, hlatches, -, -⟩ := h
  exact ⟨htiles, hlatches⟩

theorem Core.SameFile.shared {x y : Core} (h : x.SameFile y) : y.sems = x.sems ∧ y.rings = x.rings := by
  obtain ⟨-, -, hsems, hrings⟩ := h
  exact ⟨hsems, hrings⟩

/-- Of memory below the host's, only locations with `p` and undo areas may have changed; core `c` has gained no Dirty
sector, and no area or entry has joined the undo areas. -/
structure Homes (c : Nat) (p : Nat → Prop) (s t : State) : Prop where
  stored : Stored s t
  cores : ∀ k, (s.core k).SameFile (t.core k)
  dirty : ∀ sec ∈ (t.core c).l1Dirty, sec ∈ (s.core c).l1Dirty
  undo : ∀ a, t.inUndoArea a → s.inUndoArea a
  bytes : ∀ a, a < 2 ^ 64 → ¬ p a → ¬ s.inUndoArea a → t.byte a = s.byte a
  still : (∀ a, ¬ p a) → t.mem = s.mem

variable {c : Nat} {p q : Nat → Prop} {s t u : State}

theorem Homes.refl (s : State) : Homes c p s s :=
  ⟨.refl s, fun _ => .refl _, fun _ h => h, fun _ h => h, fun _ _ _ _ => rfl, fun _ => rfl⟩

/-- The second of two changes may reach what the first does. -/
theorem Homes.trans' (h : Homes c p s t) (k : Homes c q t u) (hq : ∀ a, q a → p a) : Homes c p s u where
  stored := h.stored.trans k.stored
  cores i := (h.cores i).trans (k.cores i)
  dirty sec hs := h.dirty sec (k.dirty sec hs)
  undo a ha := h.undo a (k.undo a ha)
  bytes a ha hp hu :=
    (k.bytes a ha (fun hqa => hp (hq a hqa)) (fun hua => hu (h.undo a hua))).trans (h.bytes a ha hp hu)
  still hp := (k.still fun a hqa => hp a (hq a hqa)).trans (h.still hp)

theorem Homes.trans (h : Homes c p s t) (k : Homes c p t u) : Homes c p s u := h.trans' k fun _ h => h

theorem Homes.foldl {α : Type} (f : State → α → State) (l : List α) (h : ∀ a ∈ l, ∀ s, Homes c p s (f s a)) (s : State) :
    Homes c p s (l.foldl f s) := by
  induction l generalizing s with
  | nil => exact .refl s
  | cons a l ih =>
    exact (h a List.mem_cons_self s).trans (ih (fun b hb => h b (List.mem_cons_of_mem a hb)) _)

/-- A change that leaves memory, cores, groups and undo entries. -/
theorem Homes.of_rest (h : Stored s t) (hm : t.mem = s.mem) (hc : t.cores = s.cores) (hg : t.groups = s.groups)
    (hu : t.cairn.undo = s.cairn.undo) : Homes c p s t where
  stored := h
  cores k := by unfold State.core; rw [hc]; exact .refl _
  dirty sec := by unfold State.core; rw [hc]; exact id
  undo a := by unfold State.inUndoArea State.group; rw [hg, hu]; exact id
  bytes a _ _ _ := by unfold State.byte; rw [hm]
  still _ := hm

theorem State.setSys_homes (s : State) (y : Mem) : Homes c p s { s with sys := y } :=
  .of_rest (s.setSys_stored y) rfl rfl rfl rfl

theorem State.recount_homes (s : State) : Homes c p s s.recount := .of_rest s.recount_stored rfl rfl rfl rfl

theorem State.msix_homes (s : State) (v : Nat) : Homes c p s (s.msix v) := by
  refine .of_rest (s.msix_stored v) ?_ ?_ ?_ ?_ <;>
  · unfold State.msix
    split
    · rfl
    · split <;> rfl

/-- A core that keeps its file and gains no Dirty sector. -/
theorem State.onCore_homes (s : State) (j : Nat) (f : Core → Core) (hf : ∀ x : Core, x.SameFile (f x))
    (hd : ∀ x, ∀ sec ∈ (f x).l1Dirty, sec ∈ x.l1Dirty) : Homes c p s (s.onCore j f) where
  stored := s.onCore_stored j f
  cores k := by
    by_cases hk : k = j
    · rw [hk, State.onCore_core]; exact hf _
    · rw [State.onCore_core_other _ _ _ _ hk]; exact .refl _
  dirty sec := by
    by_cases hk : c = j
    · rw [hk, State.onCore_core]; exact hd _ sec
    · rw [State.onCore_core_other _ _ _ _ hk]; exact id
  undo _ h := h
  bytes _ _ _ _ := rfl
  still _ := rfl

/-! ### Bytes -/

theorem State.setBytes_rest (l : List (Nat × Byte)) (s : State) : ∃ m, s.setBytes l = { s with mem := m } := by
  induction l generalizing s with
  | nil => exact ⟨_, rfl⟩
  | cons d l ih =>
    obtain ⟨m, hm⟩ := ih (s.setByte d.1 d.2)
    exact ⟨m, hm⟩

theorem State.setBytes_inUndoArea (l : List (Nat × Byte)) (s : State) (a : Nat) :
    (s.setBytes l).inUndoArea a ↔ s.inUndoArea a := by
  obtain ⟨m, hm⟩ := State.setBytes_rest l s
  rw [hm]
  exact Iff.rfl

/-- Bytes are written where they may be, and somewhere. -/
theorem State.setBytes_homes (s : State) (l : List (Nat × Byte)) (hl : ∀ d ∈ l, 2 ^ 64 ≤ d.1 ∨ s.inUndoArea d.1 ∨ p d.1)
    (hp : ∃ a, p a) : Homes c p s (s.setBytes l) := by
  have hb (a : Nat) (ha : a < 2 ^ 64) (hpa : ¬ p a) (hu : ¬ s.inUndoArea a) : (s.setBytes l).byte a = s.byte a := by
    refine State.byte_setBytes_other l s a fun d hd he => ?_
    rcases hl d hd with h | h | h
    · omega
    · exact hu (he ▸ h)
    · exact hpa (he ▸ h)
  have hs := s.setBytes_stored l
  obtain ⟨m, hm⟩ := State.setBytes_rest l s
  rw [hm] at hs hb ⊢
  exact ⟨hs, fun _ => .refl _, fun _ h => h, fun _ h => h, hb, fun h => absurd hp fun ⟨a, ha⟩ => h a ha⟩

theorem State.setNum_homes (s : State) (l n v : Nat)
    (hl : ∀ a, l ≤ a → a < l + n → 2 ^ 64 ≤ a ∨ s.inUndoArea a ∨ p a) (hp : ∃ a, p a) : Homes c p s (s.setNum l n v) :=
  s.setBytes_homes _ (fun d hd => by
    obtain ⟨h1, h2⟩ := (mem_locsFrom l n d.1).mp (List.of_mem_zip hd).1
    exact hl _ h1 h2) hp

/-- An event is written to the host's memory. -/
theorem State.postEvent_homes (s : State) (k n d : Nat) (hp : ∃ a, p a) : Homes c p s (s.postEvent k n d) := by
  have hs (s : State) (l n v : Nat) (h : 2 ^ 64 ≤ l) : Homes c p s (s.setNum l n v) :=
    s.setNum_homes l n v (fun a ha _ => .inl (h.trans ha)) hp
  unfold State.postEvent
  split
  · exact .refl s
  · refine Homes.trans ?_ (State.msix_homes _ _)
    refine Homes.trans ?_ (hs _ _ _ _ (by unfold hostLoc; omega))
    refine Homes.trans ?_ (hs _ _ _ _ (by unfold hostLoc; omega))
    refine Homes.trans ?_ (hs _ _ _ _ (by unfold hostLoc; omega))
    refine Homes.trans ?_ (hs _ _ _ _ (by unfold hostLoc; omega))
    refine Homes.trans ?_ (hs _ _ _ _ (by unfold hostLoc; omega))
    exact .of_rest (.of_rest rfl rfl ⟨_, _, _, _, _, _, _, _, rfl⟩) rfl rfl rfl rfl

/-! ### Before-images (R335, R339, R340) -/

/-- The header of an entry lies in its area. -/
theorem Group.headerAt_in_area (g : Group) (off e a : Nat) (he : e < g.room off) (h1 : g.headerAt off e ≤ a)
    (h2 : a < g.headerAt off e + 8) : (g.area off).1 ≤ a ∧ a < (g.area off).1 + (g.area off).2 := by
  unfold Group.headerAt at h1 h2
  unfold Group.room at he
  omega

/-- The image of an entry lies in its area: areas are whole numbers of 64 KiB. -/
theorem Group.imageAt_in_area (g : Group) (off e a : Nat) (he : e < g.room off) (h1 : g.imageAt off e ≤ a)
    (h2 : a < g.imageAt off e + 256) : (g.area off).1 ≤ a ∧ a < (g.area off).1 + (g.area off).2 := by
  unfold Group.imageAt at h1 h2
  unfold Group.room at h1 h2 he
  have ha : (g.area off).2 = 65536 * fld (g.reg off) 40 24 := Nat.mul_comm _ _
  rw [ha] at h1 h2 he ⊢
  omega

theorem freePlace_le (used : List Nat) : freePlace used ≤ used.length := by
  unfold freePlace
  cases h : (List.range (used.length + 1)).find? (fun e => !used.contains e) with
  | none => exact Nat.zero_le _
  | some e => exact Nat.lt_succ_iff.mp (List.mem_range.mp (List.mem_of_find?_eq_some h))

/-- Undo areas come from the registers of groups, and headers from undo entries. -/
theorem State.inUndoArea_of (hr : ∀ g, (t.group g).regs = (s.group g).regs)
    (hu : ∀ e ∈ t.cairn.undo, e ∈ s.cairn.undo ∨ ∃ stack, e.reg = undoReg stack ∧ e.place < (s.group e.grp).undoRoom stack)
    (a : Nat) (h : t.inUndoArea a) : s.inUndoArea a := by
  have hreg (g off : Nat) : (t.group g).reg off = (s.group g).reg off := by unfold Group.reg; rw [hr]
  have harea (g off : Nat) : (t.group g).area off = (s.group g).area off := by unfold Group.area; rw [hreg]
  have hhead (g off e : Nat) : (t.group g).headerAt off e = (s.group g).headerAt off e := by unfold Group.headerAt; rw [harea]
  rcases h with ⟨g, stack, h1, h2⟩ | ⟨e, he, h1, h2⟩
  · rw [harea] at h1 h2
    exact .inl ⟨g, stack, h1, h2⟩
  · rw [hhead] at h1 h2
    rcases hu e he with h | ⟨stack, hst, hroom⟩
    · exact .inr ⟨e, h, h1, h2⟩
    · rw [hst] at h1 h2
      exact .inl ⟨e.grp, stack, Group.headerAt_in_area _ _ _ _ hroom h1 h2⟩

/-- A group whose registers stay. -/
theorem State.setGroup_homes (s : State) (g : Nat) (x : Group) (h : x.regs = (s.group g).regs) :
    Homes c p s (s.setGroup g x) where
  stored := s.setGroup_stored g x
  cores _ := .refl _
  dirty _ h := h
  undo := State.inUndoArea_of (fun k => by
    by_cases hk : k = g
    · rw [hk, State.setGroup_group, h]
    · rw [State.setGroup_group_other _ _ _ _ hk]) fun e he => .inl he
  bytes _ _ _ _ := rfl
  still _ := rfl

/-- An entry with a place in its undo area is written in that area. -/
theorem State.openEntry_homes (s : State) (g stack e b w : Nat) (l : List Byte) (he : e < (s.group g).undoRoom stack)
    (hp : ∃ a, p a) : Homes c p s (s.openEntry g (undoReg stack) e b w l) := by
  unfold State.openEntry
  dsimp only
  refine Homes.trans ?_ (State.setSys_homes _ _)
  refine Homes.trans (s.setNum_homes _ _ _ ?_ hp) (State.setBytes_homes _ _ (fun d hd => ?_) hp)
  · exact fun a h1 h2 => .inr (.inl (.inl ⟨g, stack, Group.headerAt_in_area _ _ _ _ he h1 h2⟩))
  · obtain ⟨h1, h2⟩ := (mem_locsFrom _ _ _).mp (List.of_mem_zip hd).1
    exact .inr (.inl ((State.setBytes_inUndoArea _ s _).mpr
      (.inl ⟨g, stack, Group.imageAt_in_area _ _ _ _ he h1 h2⟩)))

theorem State.openEntry_rest (s : State) (g o e b w : Nat) (l : List Byte) :
    ∃ m y, s.openEntry g o e b w l = { s with mem := m, sys := y } := by
  unfold State.openEntry
  dsimp only
  obtain ⟨m, hm⟩ := State.setBytes_rest ((locsFrom ((s.group g).headerAt o e) 8).zip
    (toBytes 8 (2 ^ 63 + b * 2 ^ 62 + g * 2 ^ 40 + w))) s
  obtain ⟨m', hm'⟩ := State.setBytes_rest ((locsFrom ((s.group g).imageAt o e) 256).zip l)
    (s.setNum ((s.group g).headerAt o e) 8 (2 ^ 63 + b * 2 ^ 62 + g * 2 ^ 40 + w))
  rw [hm', State.setNum, hm]
  exact ⟨_, _, rfl⟩

/-- A new entry with a place in its undo area. -/
theorem State.addUndo_homes (s : State) (e : Undo) (r : Bool) (he : e.place < (s.group e.grp).room e.reg) :
    Homes c p s { s with cairn := { s.cairn with undo := s.cairn.undo ++ [e], request := r } } where
  stored := s.setCairn_stored _
  cores _ := .refl _
  dirty _ h := h
  undo := State.inUndoArea_of (fun _ => rfl) fun d hd => by
    rcases List.mem_append.mp hd with h | h
    · exact .inl h
    · obtain rfl := List.mem_singleton.mp h
      exact .inr ⟨_, rfl, he⟩
  bytes _ _ _ _ := rfl
  still _ := rfl

theorem State.capture_homes (s : State) (line : Nat) (hp : ∃ a, p a) : Homes c p s (s.capture line) := by
  unfold State.capture
  split
  · exact .refl s
  · rename_i r _
    dsimp only
    split
    · exact .refl s
    · split
      · exact s.setGroup_homes _ _ rfl
      · rename_i hroom
        generalize hl : (s.cairn.undo.filter (fun u => u.grp = r.grp ∧ u.line * 256 / 2 ^ 36 = line * 256 / 2 ^ 36)).map
          (·.place) = places at hroom
        have hfree : freePlace places < (s.group r.grp).undoRoom (line * 256 / 2 ^ 36) :=
          Nat.lt_of_le_of_lt (freePlace_le places) (Nat.lt_of_not_le hroom)
        have hset := s.setGroup_homes (c := c) (p := p) r.grp
          { s.group r.grp with dirty := line :: (s.group r.grp).dirty } rfl
        have hgrp := State.setGroup_group s r.grp { s.group r.grp with dirty := line :: (s.group r.grp).dirty }
        generalize s.setGroup r.grp { s.group r.grp with dirty := line :: (s.group r.grp).dirty } = v at hset hgrp ⊢
        have hv : freePlace places < (v.group r.grp).undoRoom (line * 256 / 2 ^ 36) := by rw [hgrp]; exact hfree
        have hopen (b : Nat) (im : List Byte) :=
          v.openEntry_homes (c := c) (p := p) r.grp (line * 256 / 2 ^ 36) (freePlace places) b line im hv hp
        obtain ⟨m, y, hmy⟩ := v.openEntry_rest r.grp (undoReg (line * 256 / 2 ^ 36)) (freePlace places)
          ((s.group r.grp).tracked % 2) line ((locsFrom (line * 256) 256).map s.byte)
        have hw := hopen ((s.group r.grp).tracked % 2) ((locsFrom (line * 256) 256).map s.byte)
        rw [hmy] at hw
        have hadd := fun q => State.addUndo_homes (c := c) (p := p) { v with mem := m, sys := y }
          { grp := r.grp, line := line, pitch := (s.group r.grp).tracked, place := freePlace places } q hv
        have hall := fun q => (hset.trans hw).trans (hadd q)
        split
        · refine Homes.trans ?_ (State.postEvent_homes _ _ _ _ hp)
          unfold Undo.reg
          rw [hmy]
          exact hall _
        · unfold Undo.reg
          rw [hmy]
          exact hall _

theorem State.captureFor_homes (s : State) (l : List Nat) (hp : ∃ a, p a) : Homes c p s (s.captureFor l) := by
  unfold State.captureFor
  split
  · exact .refl s
  · exact .foldl _ _ (fun line _ s => s.capture_homes line hp) s

/-! ### Caches (R112, R117, R118) -/

theorem State.useL2_homes (s : State) (sec ev : Nat) : Homes c p s (s.useL2 sec ev) := by
  unfold State.useL2
  dsimp only
  split
  · exact .refl s
  · refine Homes.trans ?_ (State.setSys_homes _ _)
    split
    · exact .refl s
    · split
      · exact s.setSys_homes _
      · exact .refl s

theorem State.dirtyL2_homes (s : State) (sec ev : Nat) : Homes c p s (s.dirtyL2 sec ev) := by
  unfold State.dirtyL2
  refine (s.useL2_homes sec ev).trans ?_
  dsimp only
  split
  · exact .refl _
  · split
    · exact .refl _
    · exact State.setSys_homes _ _

/-- A write to homes changes the bytes of its cells, and the undo areas. -/
theorem State.writeHome_homes (s : State) (cells : List (Nat × Byte)) (l : List Nat) (ev : Nat)
    (hl : ∀ d ∈ cells, 2 ^ 64 ≤ d.1 ∨ p d.1) (hp : ∃ a, p a) : Homes c p s (s.writeHome cells l ev) := by
  unfold State.writeHome State.putBytes
  refine Homes.trans ?_ (State.recount_homes _)
  refine Homes.trans ?_ (State.setSys_homes _ _)
  refine Homes.trans ((s.captureFor_homes _ hp).trans (Homes.foldl _ _ (fun _ _ s => s.dirtyL2_homes _ _) _))
    (State.setBytes_homes _ _ (fun d hd => ?_) hp)
  exact (hl d hd).imp_right .inr

/-- A change of what core `c` caches: where the locations with `p` hold its Dirty sectors, memory changes only there and in
undo areas. -/
def Cached (c : Nat) (p : Nat → Prop) (s t : State) : Prop :=
  (∀ a, a / 64 ∈ (s.core c).l1Dirty → p a) → Homes c p s t

theorem Cached.refl (s : State) : Cached c p s s := fun _ => .refl s

theorem Cached.trans (h : Cached c p s t) (k : Cached c p t u) : Cached c p s u := fun hd =>
  (h hd).trans (k fun a ha => hd a ((h hd).dirty _ ha))

theorem Cached.foldl {α : Type} (f : State → α → State) (l : List α) (h : ∀ a ∈ l, ∀ s, Cached c p s (f s a)) (s : State) :
    Cached c p s (l.foldl f s) := by
  induction l generalizing s with
  | nil => exact .refl s
  | cons a l ih =>
    exact (h a List.mem_cons_self s).trans (ih (fun b hb => h b (List.mem_cons_of_mem a hb)) _)

theorem Homes.cached (h : Homes c p s t) : Cached c p s t := fun _ => h

theorem State.cleanL1_cached (s : State) (sec : Nat) : Cached c p s (s.cleanL1 c sec) := by
  intro hd
  unfold State.cleanL1
  split
  · rename_i hc
    have hsec (a : Nat) (ha : a / 64 = sec) : p a := hd a (ha ▸ List.contains_iff_mem.mp hc)
    refine Homes.trans (s.writeHome_homes _ _ _ (fun d hd => ?_) ⟨64 * sec, hsec _ (by omega)⟩)
      (State.onCore_homes _ _ _ (fun _ => .refl _) fun x a ha => (List.mem_filter.mp ha).1)
    have hm := (mem_locsFrom _ _ _).mp (List.of_mem_zip hd).1
    exact .inr (hsec _ (by omega))
  · exact .refl s

theorem State.dropL1_cached (s : State) : Cached c p s (s.dropL1 c) := by
  unfold State.dropL1 State.cleanCore
  refine Cached.trans (Cached.foldl _ _ (fun sec _ s => s.cleanL1_cached sec) s) (State.onCore_homes _ _ _ ?_ ?_).cached
  · exact fun _ => .refl _
  · exact fun _ _ h => h

theorem State.evictL1_cached (s : State) (line : Nat) : Cached c p s (s.evictL1 c line) := by
  unfold State.evictL1
  refine Cached.trans (Cached.foldl _ _ (fun sec _ s => s.cleanL1_cached sec) s) (State.onCore_homes _ _ _ ?_ ?_).cached
  · exact fun _ => .refl _
  · exact fun _ _ h => h

theorem State.useL1_cached (s : State) (sec ev : Nat) : Cached c p s (s.useL1 c sec ev) := by
  unfold State.useL1
  dsimp only
  refine Cached.trans ?_ (State.onCore_homes _ _ _ ?_ ?_).cached
  · split
    · exact .refl s
    · split
      · exact s.evictL1_cached _
      · exact .refl s
  · exact fun _ => .refl _
  · exact fun _ _ h => h

theorem State.fillL1_cached (s : State) (sec ev : Nat) : Cached c p s (s.fillL1 c sec ev) := by
  unfold State.fillL1
  split
  · exact s.useL1_cached sec ev
  · refine (s.useL2_homes sec ev).cached.trans ?_
    dsimp only
    split
    · refine (State.useL1_cached _ sec ev).trans (State.onCore_homes _ _ _ ?_ ?_).cached
      · exact fun _ => .refl _
      · exact fun _ _ h => h
    · exact .refl _

/-! ### Dropping sectors (R118, R413) -/

theorem State.inUndoArea_of_mem {e : Undo} (he : e ∈ s.cairn.undo) (a : Nat) (h1 : (s.group e.grp).headerAt e.reg e.place ≤ a)
    (h2 : a < (s.group e.grp).headerAt e.reg e.place + 8) : s.inUndoArea a := .inr ⟨e, he, h1, h2⟩

theorem State.closeEntry_homes (s : State) (e : Undo) (he : e ∈ s.cairn.undo) (hp : ∃ a, p a) :
    Homes c p s (s.closeEntry e.grp e.reg e.place) := by
  unfold State.closeEntry
  dsimp only
  exact s.setNum_homes _ _ _ (fun a h1 h2 => .inr (.inl (State.inUndoArea_of_mem he a h1 h2))) hp

theorem State.onGroup_homes (s : State) (g : Nat) (f : Group → Group) (h : ∀ x, (f x).regs = x.regs) :
    Homes c p s (s.onGroup g f) := s.setGroup_homes g _ (h _)

theorem State.eraseUndo_homes (s : State) (e : Undo) :
    Homes c p s { s with cairn := { s.cairn with undo := s.cairn.undo.erase e } } where
  stored := s.setCairn_stored _
  cores _ := .refl _
  dirty _ h := h
  undo := State.inUndoArea_of (fun _ => rfl) fun _ hd => .inl (List.mem_of_mem_erase hd)
  bytes _ _ _ _ := rfl
  still _ := rfl

theorem State.uncapture_homes (s : State) (line : Nat) (hp : ∃ a, p a) : Homes c p s (s.uncapture line) := by
  unfold State.uncapture
  split
  · exact .refl s
  · split
    · exact .refl s
    · rename_i e he
      split
      · refine ((s.closeEntry_homes e (List.mem_of_find?_eq_some he) hp).trans
          (State.onGroup_homes _ _ _ ?_)).trans (State.eraseUndo_homes _ _)
        exact fun _ => rfl
      · exact .refl s

/-- A dropped sector holds what its controller does. -/
theorem State.dropL2_homes (s : State) (sec : Nat) (hp : ∀ a, a / 64 = sec → p a) : Homes c p s (s.dropL2 sec) := by
  have he : ∃ a, p a := ⟨64 * sec, hp _ (by omega)⟩
  unfold State.dropL2
  dsimp only
  split
  · exact s.setSys_homes _
  · refine Homes.trans ?_ (State.uncapture_homes _ _ he)
    refine Homes.trans ?_ (State.setSys_homes _ _)
    refine (s.setSys_homes _).trans (State.setNum_homes _ _ _ _ ?_ he)
    exact fun a h1 h2 => .inr (.inr (hp a (by omega)))

theorem State.lastRead_homes (s : State) (j sec : Nat) (hp : ∀ a, a / 64 = sec → p a) : Homes c p s (s.lastRead j sec) := by
  unfold State.lastRead State.dropSector
  refine Homes.trans ?_ (State.dropL2_homes _ _ hp)
  refine Homes.trans ?_ (State.onCore_homes _ _ _ (fun _ => .refl _) fun x a ha => (List.mem_filter.mp ha).1)
  refine (s.onCore_homes j _ ?_ ?_).trans (State.setSys_homes _ _)
  · exact fun _ => .refl _
  · exact fun _ _ h => h

/-! ### Loads (R112, R117, R118) -/

/-- A load leaves memory but for the Dirty sectors of its core, and with ev = 7 its own sectors. -/
theorem State.touch_cached (s : State) (k ev : Nat) (ps : List Piece) (hp : ev = 7 → ∀ a, a / 64 ∈ l1Sectors ps → p a) :
    Cached (coreOf k) p s (s.touch k ev ps) := by
  unfold State.touch
  refine Cached.foldl _ _ (fun sec hsec s => ?_) s
  split
  · rename_i hev
    exact (s.lastRead_homes _ _ fun a ha => hp hev a (ha ▸ hsec)).cached
  · exact s.fillL1_cached sec ev

theorem State.fillFor_homes (s : State) (k va : Nat) : Homes c p s (s.fillFor k va) := by
  have hcore (f : TlbEntry → Bool) : Homes c p s (s.fillCore k f) := by
    unfold State.fillCore
    split
    · exact .refl s
    · split
      · exact .refl s
      · exact s.onCore_homes _ _ (fun _ => .refl _) fun _ _ h => h
  unfold State.fillFor
  split
  · exact hcore _
  · exact hcore _
  · exact .refl s

theorem State.walked_homes (s : State) (a n : Nat) : Homes c p s (s.walked a n) := by
  unfold State.walked
  split
  · dsimp only
    split
    · exact s.fillFor_homes _ _
    · exact (s.fillFor_homes _ _).trans (State.fillFor_homes _ _ _)
  · exact .refl s

theorem State.acquired_cached (s : State) (at_ : Attr) : Cached s.myCore p s (s.acquired at_) := by
  unfold State.acquired
  split
  · unfold State.acquire State.acquireLevel
    split
    · exact .refl s
    · exact s.dropL1_cached
  · exact .refl s

/-- A load of pieces at an address leaves memory as R117 and R118 have it. -/
theorem State.loadNum_cached (s : State) (a n : Nat) (use : Use) (at_ : Attr)
    (hp : at_.ev = 7 → ∀ b, b / 64 ∈ l1Sectors ((s.acquired at_).pieces a n false use) → p b) :
    Cached s.myCore p s (s.loadNum a n use at_).2 := by
  unfold State.loadNum
  exact ((s.acquired_cached at_).trans (State.walked_homes _ _ _).cached).trans (State.touch_cached _ _ _ _ hp)

end
end Sys2Proof.Machine

/-! ## Loads (R34, R146, R148, R254, R255) -/

namespace Sys2Proof.Machine
section

variable {c : Nat} {p : Nat → Prop} {s t o u v : State}

/-! ### Putting a result in flight -/

/-- Of a state that has put results in flight: the issuing strand differs in its ports, reports and results in flight, cores
in their queues, and the serial number of places. -/
structure Queued (s t : State) : Prop where
  rest : ∃ x c n, t = { s with strands := x, cores := c, serial := n }
  me : ∃ po re fl, t.me = { s.me with ports := po, reports := re, inflight := fl }
  other : ∀ k, k ≠ s.issue.strand → t.strand k = s.strand k
  cores : ∀ k, (s.core k).SameFile (t.core k)

theorem Queued.refl (s : State) : Queued s s := ⟨⟨_, _, _, rfl⟩, ⟨_, _, _, rfl⟩, fun _ _ => rfl, fun _ => .refl _⟩

theorem Queued.issue (h : Queued s t) : t.issue = s.issue := by
  obtain ⟨⟨x, c, n, rfl⟩, -, -, -⟩ := h
  rfl

theorem Queued.trans (h : Queued s t) (k : Queued t u) : Queued s u := by
  refine ⟨?_, ?_, fun i hi => ?_, fun i => (h.cores i).trans (k.cores i)⟩
  · obtain ⟨x, c, n, rfl⟩ := h.rest
    obtain ⟨x, c, n, rfl⟩ := k.rest
    exact ⟨_, _, _, rfl⟩
  · obtain ⟨po, re, fl, hm⟩ := h.me
    obtain ⟨po, re, fl, km⟩ := k.me
    exact ⟨po, re, fl, by rw [km, hm]⟩
  · rw [k.other i (by rw [h.issue]; exact hi), h.other i hi]

theorem State.onMe_queued (s : State) (f : Strand → Strand)
    (h : ∀ x, ∃ po re fl, f x = { x with ports := po, reports := re, inflight := fl }) : Queued s (s.onMe f) :=
  ⟨⟨_, _, _, rfl⟩, by rw [State.onMe_me]; exact h _, fun _ hk => State.onMe_strand_other _ _ _ hk, fun _ => .refl _⟩

theorem State.onCore_queued (s : State) (j : Nat) (f : Core → Core) (h : ∀ x : Core, x.SameFile (f x)) :
    Queued s (s.onCore j f) := by
  refine ⟨⟨_, _, _, rfl⟩, ⟨_, _, _, rfl⟩, fun _ _ => rfl, fun k => ?_⟩
  by_cases hk : k = j
  · rw [hk, State.onCore_core]; exact h _
  · rw [State.onCore_core_other _ _ _ _ hk]; exact .refl _

theorem State.later_queued (s : State) (d : Dest) (w : Option Nat) (src : Source) (lat tag : Nat) :
    Queued s (s.later d w src lat tag) := by
  unfold State.later
  split
  · exact .refl s
  · exact s.onMe_queued _ fun _ => ⟨_, _, _, rfl⟩

theorem State.setPlaces_queued (s : State) (port : Nat) (push : Bool) (l : List Place) :
    Queued s (s.setPlaces s.issue.strand port push l) := by
  unfold State.setPlaces
  split
  · exact s.onMe_queued _ fun x => by split <;> exact ⟨_, _, _, rfl⟩
  split
  · refine s.onCore_queued _ _ ?_; exact fun _ => .refl _
  split
  · dsimp only
    split <;> refine s.onCore_queued _ _ ?_ <;> exact fun _ => .refl _
  · exact s.onMe_queued _ fun _ => ⟨_, _, _, rfl⟩

theorem State.countStream_queued (s : State) (port : Nat) : Queued s (s.countStream s.issue.strand port) := by
  unfold State.countStream
  split
  · exact s.onMe_queued _ fun x => by split <;> exact ⟨_, _, _, rfl⟩
  · exact .refl s

theorem State.reservePlace_queued (s : State) (port : Nat) : Queued s (s.reservePlace s.issue.strand port).2 := by
  have h1 : Queued s { s with serial := s.serial + 1 } :=
    ⟨⟨_, _, _, rfl⟩, ⟨_, _, _, rfl⟩, fun _ _ => rfl, fun _ => .refl _⟩
  have h2 := State.setPlaces_queued { s with serial := s.serial + 1 } port true
    (s.places s.issue.strand port true ++ [{ id := s.serial, val := none }])
  have h3 := State.countStream_queued (State.setPlaces { s with serial := s.serial + 1 } s.issue.strand port true
    (s.places s.issue.strand port true ++ [{ id := s.serial, val := none }])) port
  rw [h2.issue] at h3
  exact (h1.trans h2).trans h3

theorem State.laterVec_queued (s : State) (x : Nat) (w : Option Nat) (src : Source) (lat tag : Nat) :
    Queued s (s.laterVec x w src lat tag) := by
  unfold State.laterVec
  split
  · exact s.later_queued _ _ _ _ _
  · exact (s.reservePlace_queued x).trans (State.later_queued _ _ _ _ _ _)

/-! ### Committing -/

theorem State.endResume_core (s : State) (k j : Nat) :
    ∃ t q r, (s.endResume k).core j = { s.core j with tickets := t, mxq := q, mxRun := r } := by
  have hmap (ropes : List Nat) : ∃ t, Table.get (s.cores.map (fun e => (e.1,
      if ropes.contains (e.1 / 8) then e.2.mapTickets (fun t => t.countOn s.cyc.toNat) else e.2))) {} j =
        { s.core j with tickets := t } := by
    rw [Table.get_mapVal (fun i (x : Core) => if ropes.contains (i / 8) then x.mapTickets (fun t => t.countOn s.cyc.toNat) else x)]
    unfold State.core Table.get
    cases Table.find s.cores j with
    | none => exact ⟨_, rfl⟩
    | some x =>
      simp only [Option.elim_some, Option.getD_some]
      split
      · exact ⟨_, rfl⟩
      · exact ⟨_, rfl⟩
  unfold State.endResume
  dsimp only
  split
  · obtain ⟨t, ht⟩ := hmap (s.gangOf k).ropes
    by_cases hj : j = coreOf k
    · subst hj
      rw [State.onCore_core]
      exact ⟨t, _, _, by rw [State.onStrand_core]; unfold State.core at ht ⊢; rw [ht]⟩
    · rw [State.onCore_core_other _ _ _ _ hj]
      exact ⟨t, _, _, by rw [State.onStrand_core]; unfold State.core at ht ⊢; rw [ht]⟩
  · exact ⟨_, _, _, rfl⟩

theorem State.commit_core (s : State) (h : s.issue.Plain) (j : Nat) :
    ∃ t q r, s.commit.core j = { s.core j with tickets := t, mxq := q, mxRun := r } := by
  rw [s.commit_eq h]
  exact s.endResume_core _ j

theorem State.commit_transit (s : State) (h : s.issue.Plain) : s.commit.transit = s.transit := by
  rw [s.commit_eq h]
  obtain ⟨x, c, e, he⟩ := s.endResume_resumed s.issue.strand
  rw [he]
  rfl

theorem State.places_congr {k : Nat} (port : Nat) (push : Bool) (hp : (t.strand k).ports = (s.strand k).ports)
    (hr : (t.strand k).reports = (s.strand k).reports) (hq : ∀ j, (t.core j).cq = (s.core j).cq ∧ (t.core j).inq = (s.core j).inq) :
    t.places k port push = s.places k port push := by
  unfold State.places
  simp only [hp, hr, fun j => (hq j).1, fun j => (hq j).2]

/-- A commit leaves the places of every port. -/
theorem State.commit_places (s : State) (h : s.issue.Plain) (port : Nat) :
    s.commit.places s.issue.strand port true = s.places s.issue.strand port true := by
  obtain ⟨r, f, b, l, hme, -⟩ := s.commit_strand h
  have hi : s.commit.issue.strand = s.issue.strand := by rw [s.commit_issue h]
  have hs : s.commit.strand s.issue.strand = s.commit.me := by unfold State.me; rw [hi]
  have hcq (j : Nat) : (s.commit.core j).cq = (s.core j).cq ∧ (s.commit.core j).inq = (s.core j).inq := by
    obtain ⟨t, q, r, hc⟩ := s.commit_core h j
    rw [hc]
    exact ⟨rfl, rfl⟩
  exact State.places_congr port true (by rw [hs, hme]; rfl) (by rw [hs, hme]; rfl) hcq

/-! ### The frame of a load -/

theorem Stored.issue (h : Stored s t) : t.issue = s.issue := by
  obtain ⟨⟨_, _, _, _, _, _, _, _, rfl⟩, -⟩ := h
  rfl

theorem Stored.me (h : Stored s t) : s.me.Noted t.me := by
  unfold State.me
  rw [h.issue]
  exact h.2.1 _

theorem Strand.get_noted {x y : Strand} (h : x.Noted y) (d : Dest) : y.get d = x.get d := by
  obtain ⟨_, rfl⟩ := h
  match d with
  | .s 0 | .s (_ + 1) | .a _ | .v _ | .p 0 | .p (_ + 1) | .push _ _ | .tile _ => rfl

theorem Strand.get_queued (x : Strand) (po re fl) (d : Dest) :
    ({ x with ports := po, reports := re, inflight := fl } : Strand).get d = x.get d := by
  match d with
  | .s 0 | .s (_ + 1) | .a _ | .v _ | .p 0 | .p (_ + 1) | .push _ _ | .tile _ => rfl

/-- Caches filled and a result put in flight, a committed bundle has changed no register and no unit beside memory. -/
theorem Homes.calm (h : Homes c p o u) (k : Queued u v) (ho : o.issue.Plain) : Calm o v.commit := by
  have hi : v.issue = o.issue := k.issue.trans h.stored.issue
  have hv : v.issue.Plain := hi ▸ ho
  obtain ⟨hmem, hropes, hslots, hqueues, -, -, hfull, htokens, -⟩ := v.commit_rest hv
  obtain ⟨r, f, b, l, hcm, -⟩ := v.commit_strand hv
  obtain ⟨po, re, fl, hvm⟩ := k.me
  obtain ⟨m, hum⟩ := h.stored.me
  have hcore (j : Nat) : (o.core j).SameFile (v.commit.core j) := by
    refine ((h.cores j).trans (k.cores j)).trans ?_
    obtain ⟨t, q, r, hc⟩ := v.commit_core hv j
    rw [hc]
    exact .refl _
  have hs : v.ropes = o.ropes ∧ v.slots = u.slots ∧ v.queues = o.queues ∧ v.full = o.full ∧ v.tokens = o.tokens ∧
      v.transit = o.transit := by
    obtain ⟨_, _, _, rfl⟩ := k.rest
    obtain ⟨⟨_, _, _, _, _, _, _, _, rfl⟩, -⟩ := h.stored
    exact ⟨rfl, rfl, rfl, rfl, rfl, rfl⟩
  obtain ⟨hr, hsl, hq, hfu, hto, htr⟩ := hs
  have hme : v.commit.me = { o.me with
      met := none, ports := po, reports := re, inflight := fl.map l, resumed := r, frozenAt := f, replayBuf := b
      flags := o.me.flags ||| (o.issue.flags ||| o.issue.pre.mxFlags), mxFlags := 0, redo := false, found := [] } := by
    rw [hcm, hvm, hum, hi]
  refine ⟨⟨fun e _ => ?_, ?_, ?_, ?_, fun j => (hcore j).tiles, fun j hj => ?_, ?_⟩,
    fun j => (hcore j).shared, ?_, ?_, ?_, fun j => ?_⟩
  · rw [State.commit_get _ hv, hvm, Strand.get_queued, Strand.get_noted h.stored.me]
  · rw [SpecialsKept, hme]
    exact ⟨rfl, rfl, rfl, rfl, rfl, rfl, rfl, rfl, rfl, rfl, rfl, rfl, rfl, rfl, rfl, rfl⟩
  · rw [LoopsKept, hme]
    exact ⟨rfl, rfl⟩
  · refine ⟨0, ?_, rfl⟩
    rw [hme, Nat.or_zero]
  · rw [State.commit_other _ hv j (by rw [hi]; exact hj), k.other j (by rw [h.stored.issue]; exact hj)]
    exact h.stored.2.1 j
  · rw [hqueues, hq]
  · exact ⟨htokens.trans hto, (v.commit_transit hv).trans htr⟩
  · rw [hfull, hfu]
  · rw [hropes, hr]
  · have : v.commit.slot j = u.slot j := by unfold State.slot; rw [hslots, hsl]
    rw [this]
    exact h.stored.2.2 j

/-- What a load may write: the Dirty sectors of its core, and with ev = 7 its own sectors. -/
def loadReach (o : State) (ev : Nat) (ps : List Piece) (a : Nat) : Prop :=
  a / 64 ∈ (o.core o.myCore).l1Dirty ∨ ev = 7 ∧ a / 64 ∈ l1Sectors ps

theorem Homes.loadKept {at_ : Attr} {ps : List Piece} (h : Homes c (loadReach o at_.ev ps) o u) (hm : t.mem = u.mem) :
    LoadKept o t at_ ps := by
  have hb (a : Nat) : t.byte a = u.byte a := by unfold State.byte; rw [hm]
  refine ⟨fun a ha hl hd hu => ?_, fun hev hd => .of_mem (hm.trans (h.still fun a => ?_)) _⟩
  · rw [hb, h.bytes a ha ?_ hu]
    rintro (hp | ⟨hev, hsec⟩)
    · exact hd hp
    · rw [if_pos hev] at hl
      exact hl (List.mem_flatMap.mpr ⟨a / 64, hsec, (mem_locsFrom _ _ _).mpr (by omega)⟩)
  · rintro (hp | ⟨h7, -⟩)
    · rw [hd] at hp
      exact List.not_mem_nil hp
    · exact hev h7

/-- A result that waits in flight after a load's caches have been filled. -/
theorem Homes.pending {d : Dest} {w : Option Nat} {lat : Nat} (h : Homes c p o u) (hp : Pending u t d w lat) :
    Pending o t d w lat := by
  have hcyc : u.cycle = o.cycle := by
    obtain ⟨⟨_, _, _, _, _, _, _, _, rfl⟩, -⟩ := h.stored
    rfl
  unfold Pending at hp ⊢
  split
  · rename_i hf
    rw [if_pos hf] at hp
    exact fun e => (hp e).trans (Strand.get_noted h.stored.me e)
  · rename_i hf
    rw [if_neg hf, hcyc] at hp
    exact hp

/-- A reserved place stands in the queue of a port that is bound for it. -/
theorem State.reservePlace_places (s : State) (port : Nat)
    (h : port < 416 → ((Table.find s.me.ports (port - 384)).isSome = true)) :
    ({ id := s.serial, val := none } : Place) ∈
      (s.reservePlace s.issue.strand port).2.places s.issue.strand port true := by
  have hin (l : List Place) : ({ id := s.serial, val := none } : Place) ∈ l ++ [{ id := s.serial, val := none }] :=
    List.mem_append_right _ (List.mem_singleton.mpr rfl)
  unfold State.reservePlace
  dsimp only
  unfold State.countStream State.setPlaces State.places
  by_cases h1 : port < 416
  · obtain ⟨q, hq⟩ := Option.isSome_iff_exists.mp (h h1)
    have hq' : Table.find (s.strand s.issue.strand).ports (port - 384) = some q := hq
    have hq'' : Table.find (({ s with serial := s.serial + 1 } : State).strand s.issue.strand).ports (port - 384) = some q := hq
    simp only [h1, if_true, State.onStrand_strand, hq'', Table.find_set_same, Option.map_some, Option.getD_some]
    exact hin _
  · by_cases h2 : port < 432
    · simp only [h1, h2, if_true, if_false, State.onCore_core, Table.get_set_same]
      exact hin _
    · by_cases h3 : port < 440
      · simp only [h1, h2, h3, if_true, if_false, State.onCore_core, Table.get_set_same]
        exact hin _
      · simp only [h1, h2, h3, if_false, State.onStrand_strand, Table.get_set_same]
        exact hin _

theorem State.later_places (s : State) (d : Dest) (w : Option Nat) (src : Source) (lat tag port : Nat) :
    (s.later d w src lat tag).places s.issue.strand port true = s.places s.issue.strand port true := by
  unfold State.later
  split
  · rfl
  · refine State.places_congr port true ?_ ?_ fun _ => ⟨rfl, rfl⟩
    · exact (congrArg Strand.ports (State.onStrand_strand s s.issue.strand _)).trans rfl
    · exact (congrArg Strand.reports (State.onStrand_strand s s.issue.strand _)).trans rfl

/-- A vector result of variable latency waits in flight for its register, or for the place that it has reserved. -/
theorem State.laterVec_pendingVec (s : State) (x : Nat) (w : Option Nat) (src : Source) (lat tag : Nat) (hs : s.issue.Plain)
    (h : 384 ≤ x → x < 416 → ((Table.find s.me.ports (x - 384)).isSome = true)) :
    PendingVec s (s.laterVec x w src lat tag).commit x w lat := by
  unfold PendingVec State.laterVec
  by_cases hx : x < 384
  · rw [if_pos hx, if_pos hx]
    exact s.later_pending _ w src lat tag hs
  · rw [if_neg hx, if_neg hx]
    have hr := s.reservePlace_queued x
    have hi := hr.issue
    have hin := s.reservePlace_places x (h (Nat.le_of_not_lt hx))
    have hcyc : (s.reservePlace s.issue.strand x).2.cycle = s.cycle := by
      obtain ⟨x, c, n, he⟩ := hr.rest
      rw [he]
    refine ⟨s.serial, ⟨{ id := s.serial, val := none }, ?_, rfl, rfl⟩, ?_⟩
    · have hl := State.later_issue (s.reservePlace s.issue.strand x).2 (.push x s.serial) w src lat tag
      have hc := State.commit_places ((s.reservePlace s.issue.strand x).2.later (.push x s.serial) w src lat tag)
        (by rw [hl, hi]; exact hs) x
      have hp := State.later_places (s.reservePlace s.issue.strand x).2 (.push x s.serial) w src lat tag x
      rw [hl, hi] at hc
      rw [hi] at hp
      show _ ∈ ((s.reservePlace s.issue.strand x).2.later (.push x s.serial) w src lat tag).commit.places _ _ _
      rw [hc, hp]
      exact hin
    · have hp := State.later_pending (s.reservePlace s.issue.strand x).2 (.push x s.serial) w src lat tag (by rw [hi]; exact hs)
      unfold Pending at hp ⊢
      rw [hcyc] at hp
      exact hp

theorem Homes.pendingVec {x : Nat} {w : Option Nat} {lat : Nat} (h : Homes c p o u) (hp : PendingVec u t x w lat) :
    PendingVec o t x w lat := by
  unfold PendingVec at hp ⊢
  rw [h.stored.issue] at hp
  split
  · rename_i hx
    rw [if_pos hx] at hp
    exact h.pending hp
  · rename_i hx
    rw [if_neg hx] at hp
    obtain ⟨id, hid, hp⟩ := hp
    exact ⟨id, hid, h.pending hp⟩

theorem Queued.plain (k : Queued u v) (hu : u.issue.Plain) : v.issue.Plain := by
  rw [k.issue]
  exact hu

theorem Queued.committed (k : Queued u v) (hu : u.issue.Plain) : v.commit.issue.committed = true := by
  rw [v.commit_issue (k.plain hu)]

theorem Queued.commit_mem (k : Queued u v) (hu : u.issue.Plain) : v.commit.mem = u.mem := by
  rw [(v.commit_rest (k.plain hu)).1]
  obtain ⟨_, _, _, rfl⟩ := k.rest
  rfl

/-! ### LD and VLD (R254, R255) -/

/-- The sign extension of a number of `n` bytes to 64 bits (R10, R254). -/
theorem extendTo64_eq (fmt n v : Nat) :
    extendTo64 fmt n v = if fmt ≤ 11 then ((BitVec.ofNat (8 * n) v).signExtend 64).toNat else v := by
  have hsgn (m : Nat) : sgn m v = (BitVec.ofNat m v).toInt := by
    unfold sgn
    rw [BitVec.toInt_eq_toNat_cond, BitVec.toNat_ofNat]
    rcases m with _ | m
    · simp [Nat.mod_one]
    · have : 2 ^ (m + 1) = 2 * 2 ^ m := pow_succ' 2 m
      simp only [Nat.add_sub_cancel]
      split <;> split <;> omega
  unfold extendTo64
  by_cases h : fmt ≤ 11
  · rw [if_pos (Nat.lt_succ_of_le h), if_pos h, hsgn, wrap, BitVec.signExtend, BitVec.toNat_ofInt]
  · rw [if_neg (fun hlt => h (Nat.le_of_lt_succ hlt)), if_neg h]

theorem State.acquired_issue (s : State) (at_ : Attr) : (s.acquired at_).issue = s.issue :=
  (s.acquired_cached (p := fun _ => True) at_ fun _ _ => trivial).stored.issue

/-- The number that a load reads is that of the bytes that its strand sees after the load's acquire. -/
theorem State.loadNum_value (s : State) (a n : Nat) (use : Use) (at_ : Attr) :
    (s.loadNum a n use at_).1 = ofBytes ((s.acquired at_).seenBytes a n use) := by
  unfold State.loadNum State.seenBytes
  rw [s.acquired_issue]

theorem State.opened_plain (s : State) (i : Instr) (h : s.issue.Plain) : (s.opened i).issue.Plain := by
  unfold State.opened
  rw [State.openBundle_issue]
  exact h

theorem State.loadNum_homes (s : State) (a n : Nat) (use : Use) (at_ : Attr) :
    Homes s.myCore (loadReach s at_.ev ((s.acquired at_).pieces a n false use)) s (s.loadNum a n use at_).2 :=
  s.loadNum_cached a n use at_ (fun hev _ hb => .inr ⟨hev, hb⟩) fun _ ha => .inl ha

/-- A slot whose checks find nothing in its way pushes to ports that are bound for it (R276, R399). -/
theorem State.portFault_of_slotHurdle {i : Instr} {more : List Dest} {value : Option Hurdle}
    (h : s.slotHurdle i more value = none) : s.portFault true s.issue.pushes i.pushes = false := by
  have hv : ∃ b, s.valueStage i b value = none := by
    unfold State.slotHurdle at h
    split at h
    · cases h
    · dsimp only at h
      split at h
      · rw [Option.or_eq_none_iff] at h
        cases h.2
      · split at h
        · rename_i hf
          rw [h] at hf
          cases hf
        · split at h
          · cases h
          · exact ⟨_, (Option.or_eq_none_iff.mp h).2⟩
  obtain ⟨b, hv⟩ := hv
  unfold State.valueStage lowestFault at hv
  by_contra hp
  rw [Bool.not_eq_false] at hp
  rw [hp, Bool.or_true] at hv
  dsimp only at hv
  split at hv <;> simp_all

theorem State.opened_ports (s : State) (i : Instr) : (s.opened i).me.ports = s.me.ports := by
  obtain ⟨_, _, _, _, _, _, _, _, h⟩ := (s.openBundle_opened [i]).me
  unfold State.opened
  rw [h]

theorem execLd_ready (f : LA) (s : State) (h : s.ready (.ld f)) :
    exec (.ld f) s = .next (((s.opened (.ld f)).loadNum ((s.opened (.ld f)).effective f.ab f.off) (fmtBytes f.fmt)
      (useOf (fmtBytes f.fmt)) f.at_).2.later (.s f.d) (some (extendTo64 f.fmt (fmtBytes f.fmt)
        ((s.opened (.ld f)).loadNum ((s.opened (.ld f)).effective f.ab f.off) (fmtBytes f.fmt)
          (useOf (fmtBytes f.fmt)) f.at_).1)) .memory f.at_.lat 0).commit := by
  obtain ⟨hp, -, -, hh, hw⟩ := h
  have hexec : exec (.ld f) s = execLd f s := rfl
  rw [hexec, execLd, runSlot, runSlotWith_ready (.ld f) (fun _ => []) (ldHurdle f) _ s hp hh hw]

theorem execVld_ready (f : LA) (s : State) (h : s.ready (.vld f)) :
    exec (.vld f) s = .next (((s.opened (.vld f)).loadNum ((s.opened (.vld f)).effective f.ab f.off) 128 .data f.at_).2.laterVec
      f.d (some ((s.opened (.vld f)).loadNum ((s.opened (.vld f)).effective f.ab f.off) 128 .data f.at_).1) .memory
        f.at_.lat 0).commit := by
  obtain ⟨hp, -, -, hh, hw⟩ := h
  have hexec : exec (.vld f) s = execVld f s := rfl
  rw [hexec, execVld, runSlot, runSlotWith_ready (.vld f) (fun _ => []) (vldHurdle f) _ s hp hh hw]

/-- A VLD with nothing in its way that names a stream port finds it bound. -/
theorem vld_port_bound (f : LA) (s : State) (h : s.ready (.vld f)) (h1 : 384 ≤ f.d) (h2 : f.d < 416) :
    (Table.find (s.opened (.vld f)).me.ports (f.d - 384)).isSome = true := by
  obtain ⟨-, -, hpre, hh, -⟩ := h
  have hport := State.portFault_of_slotHurdle (more := (Instr.vld f).moreSources s) (value := (Instr.vld f).valueHurdle s) hh
  have hpush : (Instr.vld f).pushes = [f.d] := by
    show portOf f.d = _
    unfold portOf
    rw [if_neg (Nat.not_lt.mpr h1)]
  rw [hpush, State.portFault, Bool.or_eq_false_iff] at hport
  have hbad := hport.1
  unfold State.badPort at hbad
  rw [if_pos h2, hpre] at hbad
  rw [s.opened_ports]
  cases hfind : Table.find s.me.ports (f.d - 384) with
  | none => rw [hfind] at hbad; cases hbad
  | some q => rfl

end
end Sys2Proof.Machine

open Sys2Proof Sys2Proof.Machine in
/-- Settles O41: a load is its acquire, the filling of caches and a result put in flight; of these only the caches reach
memory, as `Homes` says. -/
theorem loadsDeliver : Obligations.LoadsDeliver := by
  constructor
  · intro f s h
    have ho := s.opened_plain (.ld f) h.2.1
    have hh := (s.opened (.ld f)).loadNum_homes ((s.opened (.ld f)).effective f.ab f.off) (fmtBytes f.fmt)
      (useOf (fmtBytes f.fmt)) f.at_
    have hrun := execLd_ready f s h
    rw [State.loadNum_value, extendTo64_eq] at hrun
    generalize ((s.opened (.ld f)).loadNum ((s.opened (.ld f)).effective f.ab f.off) (fmtBytes f.fmt)
      (useOf (fmtBytes f.fmt)) f.at_).2 = u at hh hrun
    have hu : u.issue.Plain := hh.stored.issue ▸ ho
    exact ⟨_, hrun, (u.later_queued _ _ _ _ _).committed hu, hh.pending (u.later_pending _ _ _ _ _ hu), hh.calm (u.later_queued _ _ _ _ _) ho,
      hh.loadKept ((u.later_queued _ _ _ _ _).commit_mem hu)⟩
  · intro f s h
    have ho := s.opened_plain (.vld f) h.2.1
    have hh := (s.opened (.vld f)).loadNum_homes ((s.opened (.vld f)).effective f.ab f.off) 128 .data f.at_
    have hrun := execVld_ready f s h
    have hbound := vld_port_bound f s h
    rw [State.loadNum_value] at hrun
    generalize ((s.opened (.vld f)).loadNum ((s.opened (.vld f)).effective f.ab f.off) 128 .data f.at_).2 = u at hh hrun
    have hu : u.issue.Plain := hh.stored.issue ▸ ho
    have hports : u.me.ports = (s.opened (.vld f)).me.ports := by
      obtain ⟨_, hm⟩ := hh.stored.me
      rw [hm]
    exact ⟨_, hrun, (u.laterVec_queued _ _ _ _ _).committed hu,
      hh.pendingVec (u.laterVec_pendingVec _ _ _ _ _ hu fun h1 h2 => by rw [hports]; exact hbound h1 h2), hh.calm (u.laterVec_queued _ _ _ _ _) ho,
      hh.loadKept ((u.laterVec_queued _ _ _ _ _).commit_mem hu)⟩

/-! ## What gang handling leaves: the units beside cores, ropes, slots, queues and engines -/

namespace Sys2Proof.Machine
section

/-- The second state differs from the first in strands, groups, memory, caches, fabric, protected-state units, host interface
and what the model counts for itself. -/
def Beside (s t : State) : Prop :=
  ∃ x g m y f a h n i, t = { s with strands := x, groups := g, mem := m, sys := y, fab := f, cairn := a, host := h
                                    freeCount := n, serial := i }

variable {s t u : State}

theorem Beside.refl (s : State) : Beside s s := ⟨_, _, _, _, _, _, _, _, _, rfl⟩

theorem Beside.trans (h : Beside s t) (k : Beside t u) : Beside s u := by
  obtain ⟨_, _, _, _, _, _, _, _, _, rfl⟩ := h
  obtain ⟨_, _, _, _, _, _, _, _, _, rfl⟩ := k
  exact ⟨_, _, _, _, _, _, _, _, _, rfl⟩

theorem Beside.foldl {α : Type} (f : State → α → State) (h : ∀ s a, Beside s (f s a)) (l : List α) (s : State) :
    Beside s (l.foldl f s) := by
  induction l generalizing s with
  | nil => exact .refl s
  | cons a l ih => exact (h s a).trans (ih _)

/-! ### Memory and events -/

theorem State.setBytes_beside (s : State) (l : List (Nat × Byte)) : Beside s (s.setBytes l) := by
  obtain ⟨m, hm⟩ := State.setBytes_rest l s
  rw [hm]
  exact ⟨_, _, _, _, _, _, _, _, _, rfl⟩

theorem State.setNum_beside (s : State) (l n v : Nat) : Beside s (s.setNum l n v) := s.setBytes_beside _

theorem State.setHost_beside (s : State) (h : HostIf) : Beside s { s with host := h } := ⟨_, _, _, _, _, _, _, _, _, rfl⟩

theorem State.setSys_beside (s : State) (y : Mem) : Beside s { s with sys := y } := ⟨_, _, _, _, _, _, _, _, _, rfl⟩

theorem State.setCairn_beside (s : State) (a : Cairn) : Beside s { s with cairn := a } := ⟨_, _, _, _, _, _, _, _, _, rfl⟩

theorem State.setFab_beside (s : State) (f : Fabric) : Beside s { s with fab := f } := ⟨_, _, _, _, _, _, _, _, _, rfl⟩

theorem State.onGroup_beside (s : State) (g : Nat) (f : Group → Group) : Beside s (s.onGroup g f) :=
  ⟨_, _, _, _, _, _, _, _, _, rfl⟩

theorem State.msix_beside (s : State) (v : Nat) : Beside s (s.msix v) := by
  unfold State.msix
  split
  · exact .refl s
  · split <;> exact s.setHost_beside _

theorem State.postEvent_beside (s : State) (k q d : Nat) : Beside s (s.postEvent k q d) := by
  unfold State.postEvent
  split
  · exact .refl s
  · exact (((((s.setHost_beside _).trans (State.setNum_beside _ _ _ _)).trans (State.setNum_beside _ _ _ _)).trans
      (State.setNum_beside _ _ _ _)).trans (State.setNum_beside _ _ _ _)).trans
      ((State.setNum_beside _ _ _ _).trans (State.msix_beside _ _))

/-- A fault record is written to the host's memory (R385). -/
theorem State.faultRecord_beside (s : State) (kind qnum core strand tfm tba tcause tinfo seq detail : Nat) :
    Beside s (s.faultRecord kind qnum core strand tfm tba tcause tinfo seq detail) := by
  unfold State.faultRecord
  split
  · exact .refl s
  · exact ((s.setHost_beside _).trans (State.setBytes_beside _ _)).trans (State.postEvent_beside _ _ _ _)

/-! ### Messages (R327, R345) -/

theorem State.countStat_beside (s : State) (reg lo n : Nat) : Beside s (s.countStat reg lo n) := by
  unfold State.countStat
  dsimp only
  split <;> exact s.setFab_beside _

theorem State.depart_beside (s : State) (die : Nat) (x : Sent) : Beside s (s.depart die x) := by
  unfold State.depart
  split <;> exact s.setFab_beside _

theorem State.loseMessage_beside (s : State) (m : Msg) : Beside s (s.loseMessage m) := by
  unfold State.loseMessage
  split <;> exact s.countStat_beside _ _ _

theorem State.leave_beside (s : State) (dest : Nat) (p : Parcel) : Beside s (s.leave dest p) := by
  unfold State.leave
  split
  · exact .refl s
  · exact s.loseMessage_beside _
  · exact (s.setFab_beside _).trans (State.depart_beside _ _ _)
  · exact s.depart_beside _ _

theorem State.post_beside (s : State) (dest : Nat) (p : Parcel) : Beside s (s.post dest p) := by
  unfold State.post
  split
  · exact s.setFab_beside _
  · exact s.leave_beside _ _

theorem State.sendMsg_beside (s : State) (dest who cls : Nat) (m : Msg) : Beside s (s.sendMsg dest who cls m) := by
  unfold State.sendMsg
  split
  · exact s.post_beside _ _
  · exact s.loseMessage_beside _

/-! ### Pages (R102, R105) -/

theorem State.startWalk_beside (s : State) (who die root page : Nat) (sup : Bool) :
    Beside s (s.startWalk who die root page sup) := by
  unfold State.startWalk
  generalize (if sup = true then 1024 else 960) = room
  split
  · exact s.setSys_beside _
  split
  · exact s.setSys_beside _
  split
  · exact s.setSys_beside _
  · exact .refl s

theorem State.askPage_beside (s : State) (who die : Nat) (sp : Option Space) (addr tba : Nat) :
    Beside s (s.askPage who die sp addr tba) := by
  unfold State.askPage
  dsimp only
  split
  · split
    · exact .refl s
    · exact s.setHost_beside _
  · split
    · exact .refl s
    · exact s.setHost_beside _

/-- What stops an access of a slot is waited for, unless nothing can resolve it. -/
theorem State.orElse_beside (s : State) (h n : Nat) (e : EngStop) (t : State) (die : Nat) (he : e ≠ .fail) :
    Beside s (s.orElse h n e t die) := by
  unfold State.orElse
  split
  · exact .refl s
  · exact .refl s
  · exact s.startWalk_beside _ _ _ _ _
  · exact s.askPage_beside _ _ _ _ _
  · exact absurd rfl he

/-! ### A pitch ends (R346, R347) -/

theorem State.closeEntry_beside (s : State) (g o e : Nat) : Beside s (s.closeEntry g o e) := s.setNum_beside _ _ _

theorem State.poisonLine_beside (s : State) (line : Nat) : Beside s (s.poisonLine line) := s.setSys_beside _

theorem State.recPut_beside (s : State) (g off n v : Nat) : Beside s (s.recPut g off n v) := s.setNum_beside _ _ _

theorem State.recDecide_beside (s : State) (g v : Nat) : Beside s (s.recDecide g v) :=
  (s.recPut_beside _ _ _ _).trans (State.recPut_beside _ _ _ _ _)

theorem State.pitchEvent_beside (s : State) (g n outcome cause : Nat) : Beside s (s.pitchEvent g n outcome cause) :=
  s.postEvent_beside _ _ _

theorem State.tellWaiters_beside (s : State) (g : Nat) (ok : Bool) : Beside s (s.tellWaiters g ok) :=
  ⟨_, _, _, _, _, _, _, _, _, rfl⟩

theorem State.dropUndo_beside (s : State) (p : Undo → Bool) : Beside s (s.dropUndo p) :=
  ((Beside.foldl _ (fun s _ => s.closeEntry_beside _ _ _) _ s).trans (State.setCairn_beside _ _)).trans
    (State.setCairn_beside _ _)

theorem State.restoreUndo_beside (s : State) (u : Undo) : Beside s (s.restoreUndo u) := by
  unfold State.restoreUndo
  split
  · exact s.poisonLine_beside _
  · exact (s.setBytes_beside _).trans (State.setSys_beside _ _)

theorem State.undoPitches_beside (s : State) (g : Nat) (p : Nat → Bool) : Beside s (s.undoPitches g p) :=
  ((Beside.foldl _ State.restoreUndo_beside _ s).trans (State.dropUndo_beside _ _)).trans (State.setCairn_beside _ _)

theorem State.loseLines_beside (s : State) (g : Nat) (p : Nat → Bool) (lines : List Nat) : Beside s (s.loseLines g p lines) := by
  refine Beside.foldl _ (fun s line => ?_) _ s
  split
  · exact .refl s
  · exact s.poisonLine_beside _

theorem State.abortTracked_beside (s : State) (g cause : Nat) : Beside s (s.abortTracked g cause) :=
  (((s.loseLines_beside _ _ _).trans (State.undoPitches_beside _ _ _)).trans (State.onGroup_beside _ _ _)).trans
    (State.pitchEvent_beside _ _ _ _ _)

theorem State.scramble_beside (s : State) (base n : Nat) : Beside s (s.scramble base n) := by
  have h : Beside s { s with freeCount := s.freeCount + 1 } := ⟨_, _, _, _, _, _, _, _, _, rfl⟩
  exact h.trans (State.setBytes_beside _ _)

theorem State.endProtection_beside (s : State) (g : Nat) : Beside s (s.endProtection g) :=
  (((s.dropUndo_beside _).trans (State.setCairn_beside _ _)).trans (State.onGroup_beside _ _ _)).trans
    (State.scramble_beside _ _ _)

theorem State.afterOutcome_beside (s : State) (g : Nat) : Beside s (s.afterOutcome g) := by
  unfold State.afterOutcome
  split
  · exact s.endProtection_beside _
  · exact .refl s

theorem State.dropStage_beside (s : State) (p : Stage → Bool) : Beside s (s.dropStage p) :=
  (Beside.foldl _ (fun s _ => s.closeEntry_beside _ _ _) _ s).trans (State.setCairn_beside _ _)

theorem State.applyAbort_beside (s : State) (g n cause : Nat) : Beside s (s.applyAbort g n cause) :=
  ((((((((s.recDecide_beside _ _).trans (State.loseLines_beside _ _ _ _)).trans (State.undoPitches_beside _ _ _)).trans
    (State.dropStage_beside _ _)).trans (State.recPut_beside _ _ _ _ _)).trans (State.onGroup_beside _ _ _)).trans
    (State.tellWaiters_beside _ _ _)).trans (State.pitchEvent_beside _ _ _ _ _)).trans (State.afterOutcome_beside _ _)

theorem State.conclude_abort_beside (s : State) (g n cause : Nat) : Beside s (s.conclude g n false cause) := by
  unfold State.conclude
  simp only [Bool.false_eq_true, if_false]
  refine Beside.trans ?_ (State.applyAbort_beside _ _ _ _)
  exact (s.recDecide_beside _ _).trans (Beside.foldl _ (fun s _ => s.sendMsg_beside _ _ _ _) _ _)

/-- An abort vote concludes the commit at its coordinator, and goes there otherwise (R346). -/
theorem State.sendVote_abort_beside (s : State) (g n cause : Nat) : Beside s (s.sendVote g n false cause) := by
  unfold State.sendVote
  dsimp only
  generalize hu : State.onGroup s g _ = u
  have h : Beside s u := hu ▸ s.onGroup_beside g _
  split
  · refine h.trans ?_
    rw [State.castVote, if_neg Bool.false_ne_true]
    exact u.conclude_abort_beside _ _ _
  · split
    · exact h
    · exact h.trans (State.sendMsg_beside _ _ _ _ _)

/-- The pitches of a killed launch end beside its gang (R347). -/
theorem State.killPitch_beside (s : State) (q : Nat) : Beside s (s.killPitch q) := by
  refine Beside.foldl _ (fun s g => ?_) _ s
  dsimp only
  split
  · exact .refl s
  · split
    · exact s.onGroup_beside _ _
    · refine Beside.trans ?_ (State.abortTracked_beside _ _ _)
      split
      · split
        · exact .refl s
        · exact s.sendVote_abort_beside _ _ _
      · exact .refl s

end
end Sys2Proof.Machine

/-! ## What ending a launch leaves: the platform and the clock (R308, R381) -/

namespace Sys2Proof.Machine
section

/-- The platform and CYC are as they were. -/
structure Clocked (s t : State) : Prop where
  plat : t.plat = s.plat
  cyc : t.cyc = s.cyc

variable {s t u : State}

theorem Clocked.refl (s : State) : Clocked s s := ⟨rfl, rfl⟩

theorem Clocked.trans (h : Clocked s t) (k : Clocked t u) : Clocked s u := ⟨k.plat.trans h.plat, k.cyc.trans h.cyc⟩

theorem Clocked.foldl {α : Type} (f : State → α → State) (h : ∀ s a, Clocked s (f s a)) (l : List α) (s : State) :
    Clocked s (l.foldl f s) := by
  induction l generalizing s with
  | nil => exact .refl s
  | cons a l ih => exact (h s a).trans (ih _)

theorem Beside.clocked (h : Beside s t) : Clocked s t := by
  obtain ⟨_, _, _, _, _, _, _, _, _, rfl⟩ := h
  exact ⟨rfl, rfl⟩

theorem Stored.clocked (h : Stored s t) : Clocked s t := by
  obtain ⟨⟨_, _, _, _, _, _, _, _, rfl⟩, -⟩ := h
  exact ⟨rfl, rfl⟩

theorem State.freeRopes_clocked (s : State) (h : Nat) (l : List Nat) : Clocked s (s.freeRopes h l) := by
  refine Clocked.foldl _ (fun s r => ?_) l s
  split
  · exact ⟨rfl, rfl⟩
  · exact .refl s

theorem State.pend_clocked (s : State) (q : Nat) : Clocked s (s.pend q) := by
  unfold State.pend
  dsimp only
  split
  · exact .refl s
  · split
    · exact ⟨rfl, rfl⟩
    · exact .refl s

theorem State.dispatch_clocked (s : State) (h : Nat) : Clocked s (s.dispatch h) := by
  unfold State.dispatch
  split
  · exact .refl s
  · dsimp only
    split
    · split
      · exact .refl s
      · exact ⟨rfl, rfl⟩
    · exact .refl s

theorem State.unmap_clocked (s : State) (h : Nat) : Clocked s (s.unmap h) := by
  unfold State.unmap
  split
  · exact .refl s
  · refine Clocked.trans ?_ (State.pend_clocked _ _)
    dsimp only
    split
    · exact ⟨rfl, rfl⟩
    · split <;> exact (s.freeRopes_clocked h _).trans ⟨rfl, rfl⟩

theorem State.msix_rest (s : State) (v : Nat) : ∃ a, s.msix v = { s with host := a } := by
  unfold State.msix
  split
  · exact ⟨_, rfl⟩
  · split <;> exact ⟨_, rfl⟩

/-- The slot and its queue after steps 4 and 5 of a completion, before the queue goes on (R308). -/
def State.launchEnded (s : State) (h q : Nat) (g : Gang) : State :=
  ({ s with mapDue := s.mapDue + 1 } : State).onQueue q (fun c => { c with ldone := g.launch.seq, froz := false, ropes := 0 })
    |>.onSlot h (fun x => { x with gang := none })

/-- The end of a launch: the slot's queue goes on with its next launch, or loses its slot (R308, R314). -/
theorem State.endLaunch_eq {h q : Nat} {g : Gang} (hq : (s.slot h).queue = some q) (hg : (s.slot h).gang = some g) :
    ∃ a y, s.endLaunch h = (if (s.slot h).evicting
      then ({ s.launchEnded h q g with host := a, sys := y } : State).unmap h
      else ({ s.launchEnded h q g with host := a, sys := y } : State).dispatch h) := by
  have hev (a y) : (({ s.launchEnded h q g with host := a, sys := y } : State).slot h).evicting = (s.slot h).evicting :=
    (congrArg Slot.evicting (State.onSlot_slot (({ s with mapDue := s.mapDue + 1 } : State).onQueue q
      (fun c => { c with ldone := g.launch.seq, froz := false, ropes := 0 })) h (fun x => { x with gang := none })) :)
  obtain ⟨a, ha⟩ := State.msix_rest
    (s.onQueue q (fun c => { c with ldone := g.launch.seq, froz := false, ropes := 0 })) (2 + q % 2046)
  unfold State.endLaunch
  rw [hq, hg]
  dsimp only
  rw [ha]
  split <;> split
  · exact ⟨_, _, if_congr (by rw [← hev]; rfl) rfl rfl⟩
  · exact ⟨_, _, if_congr (by rw [← hev]; rfl) rfl rfl⟩
  · exact ⟨_, _, if_congr (by rw [← hev]; rfl) rfl rfl⟩
  · exact ⟨_, _, if_congr (by rw [← hev]; rfl) rfl rfl⟩

theorem State.endLaunch_clocked (s : State) (h : Nat) : Clocked s (s.endLaunch h) := by
  cases hq : (s.slot h).queue with
  | none => unfold State.endLaunch; rw [hq]; exact .refl s
  | some q =>
    cases hg : (s.slot h).gang with
    | none => unfold State.endLaunch; rw [hq, hg]; exact .refl s
    | some g =>
      obtain ⟨a, y, he⟩ := s.endLaunch_eq hq hg
      rw [he]
      split
      · refine Clocked.trans ?_ (State.unmap_clocked _ _)
        exact ⟨rfl, rfl⟩
      · refine Clocked.trans ?_ (State.dispatch_clocked _ _)
        exact ⟨rfl, rfl⟩

theorem State.queuePut_stored {q va : Nat} {bytes : List Byte} (h : s.queuePut q va bytes = .ok t) : Stored s t := by
  unfold State.queuePut at h
  cases hr : s.queueReach q va bytes.length true with
  | error e => rw [hr] at h; cases h
  | ok l =>
    rw [hr] at h
    obtain rfl := Except.ok.inj h
    exact s.writeHome_stored _ _ _

theorem State.record_stored {q seq status code : Nat} (h : s.record q seq status code = .ok t) : Stored s t := by
  unfold State.record at h
  dsimp only at h
  split at h
  · obtain rfl := Except.ok.inj h
    exact .refl _
  · exact State.queuePut_stored h

theorem State.orElse_clocked (s : State) (h n : Nat) (e : EngStop) (t : State) (die : Nat) (ht : Clocked s t) :
    Clocked s (s.orElse h n e t die) := by
  by_cases he : e = .fail
  · subst he
    exact ht
  · exact (s.orElse_beside h n e t die he).clocked

theorem State.closeLaunch_clocked (s : State) (h status code : Nat) : Clocked s (s.closeLaunch h status code) := by
  unfold State.closeLaunch
  split
  · split
    · rename_i hr
      exact (State.record_stored hr).clocked.trans (State.endLaunch_clocked _ _)
    · generalize hu : State.onGang s h _ = u
      have h1 : Clocked u s := hu ▸ ⟨rfl, rfl⟩
      have h2 : Clocked s u := hu ▸ ⟨rfl, rfl⟩
      exact h2.trans (State.orElse_clocked _ _ _ _ _ _ (h1.trans (s.endLaunch_clocked h)))
  · exact .refl s

theorem State.cleanCore_stored (s : State) (c : Nat) : Stored s (s.cleanCore c) :=
  .foldl _ (fun s sec => s.cleanL1_stored c sec) _ s

/-- Units of a gang stop: of slots only notes of dependences that are met change, and no rope and no queue. -/
structure Stops (s t : State) : Prop where
  rest : ∃ x l c e g m k r y a h, t = { s with
    strands := x, slots := l, cores := c, engines := e, groups := g, mem := m, tokens := k, transit := r, sys := y
    cairn := a, host := h }
  slots : ∀ h, (s.slot h).Noted (t.slot h)

theorem Stops.of_rest (hl : t.slots = s.slots) (h : ∃ x l c e g m k r y a h, t = { s with
    strands := x, slots := l, cores := c, engines := e, groups := g, mem := m, tokens := k, transit := r, sys := y
    cairn := a, host := h }) : Stops s t :=
  ⟨h, fun i => by unfold State.slot; rw [hl]; exact .refl _⟩

theorem Stops.refl (s : State) : Stops s s := .of_rest rfl ⟨_, _, _, _, _, _, _, _, _, _, _, rfl⟩

theorem Stops.trans (h : Stops s t) (k : Stops t u) : Stops s u := by
  refine ⟨?_, fun i => (h.slots i).trans (k.slots i)⟩
  obtain ⟨_, _, _, _, _, _, _, _, _, _, _, rfl⟩ := h.rest
  obtain ⟨_, _, _, _, _, _, _, _, _, _, _, rfl⟩ := k.rest
  exact ⟨_, _, _, _, _, _, _, _, _, _, _, rfl⟩

theorem Stops.foldl {α : Type} (f : State → α → State) (h : ∀ s a, Stops s (f s a)) (l : List α) (s : State) :
    Stops s (l.foldl f s) := by
  induction l generalizing s with
  | nil => exact .refl s
  | cons a l ih => exact (h s a).trans (ih _)

theorem Stored.stops (h : Stored s t) : Stops s t := by
  refine ⟨?_, h.2.2⟩
  obtain ⟨⟨_, _, _, _, _, _, _, _, rfl⟩, -⟩ := h
  exact ⟨_, _, _, _, _, _, _, _, _, _, _, rfl⟩

theorem Stops.clocked (h : Stops s t) : Clocked s t := by
  obtain ⟨_, _, _, _, _, _, _, _, _, _, _, rfl⟩ := h.rest
  exact ⟨rfl, rfl⟩

/-- The strands, cores, engines and tokens of a killed gang have stopped (R381). -/
def State.killUnits (s : State) (h : Nat) (g : Gang) : State :=
  let s := if g.saved.isSome then s else
    let s := g.strands.foldl (fun s k => if s.slotOfRope (ropeOf k) = some h then s.onStrand k Strand.killed else s) s
    g.cores.foldl (fun s c => if s.slotOfRope (c / 8) = some h then (s.cleanCore c).onCore c Core.killed else s) s
  let s : State := { s with engines := s.engines.map (fun e => (e.1, { e.2 with
    buf := e.2.buf.filter (fun c => c.slot ≠ h), run := e.2.run.filter (fun c => c.slot ≠ h) })) }
  let mine (i : Nat) : Bool := g.desc.regions.any (fun r => 1024 * r.die + r.tok = i)
  { s with tokens := s.tokens.filter (fun e => !mine e.1), transit := s.transit.filter (fun e => !mine e.token) }

theorem State.killGang_eq {h q : Nat} {g : Gang} (hq : (s.slot h).queue = some q) (hg : s.liveGang h = some g)
    (status code : Nat) : s.killGang h status code =
      ((((s.killUnits h g).freeRopes h g.ropes).onQueue q (fun c => { c with ropes := 0 })).killPitch q).closeLaunch h status code := by
  unfold State.killGang
  rw [hq, hg]
  rfl

theorem State.killUnits_stops (s : State) (h : Nat) (g : Gang) : Stops s (s.killUnits h g) := by
  have hlast (s : State) (e k r) : Stops s { s with engines := e, tokens := k, transit := r } :=
    .of_rest rfl ⟨_, _, _, _, _, _, _, _, _, _, _, rfl⟩
  have hone (s : State) (k : Nat) : Stops s (if s.slotOfRope (ropeOf k) = some h then s.onStrand k Strand.killed else s) := by
    split
    · exact .of_rest rfl ⟨_, _, _, _, _, _, _, _, _, _, _, rfl⟩
    · exact .refl s
  have hcore (s : State) (c : Nat) :
      Stops s (if s.slotOfRope (c / 8) = some h then (s.cleanCore c).onCore c Core.killed else s) := by
    split
    · exact ((s.cleanCore_stored c).trans (State.onCore_stored _ _ _)).stops
    · exact .refl s
  unfold State.killUnits
  split
  · exact hlast s _ _ _
  · exact ((Stops.foldl _ hone _ s).trans (Stops.foldl _ hcore _ _)).trans (hlast _ _ _ _)

/-- A killed gang leaves the platform and the clock. -/
theorem State.killGang_clocked (s : State) (h status code : Nat) : Clocked s (s.killGang h status code) := by
  have honq (s : State) (q : Nat) (f : Queue → Queue) : Clocked s (s.onQueue q f) := ⟨rfl, rfl⟩
  cases hq : (s.slot h).queue with
  | none => unfold State.killGang; rw [hq]; exact .refl s
  | some q =>
    cases hg : s.liveGang h with
    | none => unfold State.killGang; rw [hq, hg]; exact .refl s
    | some g =>
      rw [State.killGang_eq hq hg]
      exact ((((s.killUnits_stops h g).clocked.trans (State.freeRopes_clocked _ _ _)).trans (honq _ _ _)).trans
        (State.killPitch_beside _ _).clocked).trans (State.closeLaunch_clocked _ _ _ _)

theorem State.killSlot_clocked (s : State) (h kind status code detail : Nat) :
    Clocked s (s.killSlot h kind status code detail) := by
  unfold State.killSlot
  split
  · exact (s.faultRecord_beside _ _ _ _ _ _ _ _ _ _).clocked.trans (State.killGang_clocked _ _ _ _)
  · exact .refl s

/-- The stop of the device changes of the platform only that it has stopped, and perhaps by a die at CRIT (R367, R383). -/
theorem State.stopDevice_plat (s : State) (kind code detail : Nat) :
    (s.stopDevice kind code detail).plat =
      { s.plat with stopped := true, crit := s.plat.crit || kind == 6 } := by
  unfold State.stopDevice
  split
  · rename_i hs
    rw [← hs]
  · have h := ((Clocked.foldl (fun s h => s.killGang h 4 code) (fun s h => s.killGang_clocked h 4 code) (List.range 64) s).trans
      (State.faultRecord_beside _ kind 0xFFFF 0xFFFF 0xFF 0 0 0 0 0 detail).clocked).trans (State.msix_beside _ 1).clocked
    exact congrArg (fun p : Platform => { p with stopped := true, crit := p.crit || kind == 6 }) h.plat

end
end Sys2Proof.Machine

/-! ## The platform (R360 to R368, R383, R417 to R420) -/

namespace Sys2Proof.Machine
section

variable {s t : State} {i : Instr} {p : State → Prop}

theorem Leads.of_next (h : exec i s = .next t) (hp : p t) : Leads s i p := ⟨t, h, hp⟩

theorem Leads.of_happens {c : Bool} (h : exec i s = happens c s t) (hc : c = true) (hp : p t) : Leads s i p :=
  ⟨t, h.trans (happens_true hc), hp⟩

/-! ### Heartbeats and power (R365, R383) -/

theorem get_fourFold {f : Nat → Nat} {c : Nat} (hc : c < 4) :
    Table.get ([0, 1, 2, 3].map (fun c => (c, f c))) 0 c = f c := by
  have : c = 0 ∨ c = 1 ∨ c = 2 ∨ c = 3 := by omega
  rcases this with rfl | rfl | rfl | rfl <;> rfl

/-- The missed heartbeats in a row of a base camp core, after a check (R383). -/
def missedBeats (s : State) (beats c : Nat) : Nat := if bitAt beats c then 0 else Table.get s.plat.beats 0 c + 1

/-- Either no base camp core has missed two heartbeats in a row, or the device stops (R383). -/
theorem State.checkBeats_cases (s : State) (beats : Nat) :
    ((∀ c, c < 4 → missedBeats s beats c < 2) ∧ s.checkBeats beats = { s with plat := { s.plat with
        beats := [0, 1, 2, 3].map (fun c => (c, missedBeats s beats c)), beatAt := s.cyc.toNat } }) ∨
    ((∃ c, c < 4 ∧ 2 ≤ missedBeats s beats c) ∧ (s.checkBeats beats).plat.stopped = true) := by
  have hmem {c : Nat} (hc : c ∈ [0, 1, 2, 3]) : c < 4 := by
    simp only [List.mem_cons, List.not_mem_nil, or_false] at hc
    omega
  unfold State.checkBeats
  dsimp only
  split
  · rename_i c hc
    have hlt := hmem (List.mem_of_find?_eq_some hc)
    have hsome := List.find?_some hc
    have hge : 2 ≤ Table.get ([0, 1, 2, 3].map (fun c => (c, missedBeats s beats c))) 0 c := of_decide_eq_true hsome
    rw [get_fourFold hlt] at hge
    exact .inr ⟨⟨c, hlt, hge⟩, by rw [State.stopDevice_plat]⟩
  · rename_i hc
    refine .inl ⟨fun c hlt => ?_, rfl⟩
    have hge : ¬ 2 ≤ Table.get ([0, 1, 2, 3].map (fun c => (c, missedBeats s beats c))) 0 c := fun hge =>
      List.find?_eq_none.mp hc c (by simp only [List.mem_cons, List.not_mem_nil, or_false]; omega) (decide_eq_true hge)
    rw [get_fourFold hlt] at hge
    omega

theorem leads_heartbeatCheck (s : State) (beats : Nat) (hs : s.plat.stopped = false)
    (hb : s.plat.beatAt + 2 ^ 20 ≤ s.cyc.toNat) : Leads s (.heartbeatCheck beats) (fun t =>
      ((∀ c, c < 4 → bitAt beats c = true) → t.plat.stopped = false ∧ t.plat.beatAt = s.cyc.toNat) ∧
      (∀ c, c < 4 → bitAt beats c = false → 1 ≤ Table.get s.plat.beats 0 c → t.plat.stopped = true)) := by
  have hmiss (c : Nat) (h : bitAt beats c = false) : missedBeats s beats c = Table.get s.plat.beats 0 c + 1 := by
    simp [missedBeats, h]
  refine .of_happens (t := s.checkBeats beats) rfl (by rw [hs, decide_eq_true hb]; rfl) ?_
  rcases s.checkBeats_cases beats with ⟨hnone, ht⟩ | ⟨⟨c, hc, hmissed⟩, ht⟩
  · refine ⟨fun _ => by rw [ht]; exact ⟨hs, rfl⟩, fun c hc hbit hold => ?_⟩
    have := hnone c hc
    rw [hmiss c hbit] at this
    omega
  · refine ⟨fun hall => ?_, fun _ _ _ _ => ht⟩
    simp [missedBeats, hall c hc] at hmissed

theorem leads_powerCompare (s : State) (w : Nat) (h : s.plat.comparedAt + 250000 ≤ s.cyc.toNat) :
    Leads s (.powerCompare w) (fun t =>
      t.plat.pavg = min w 65535 ∧ 1000 ≤ t.plat.freq ∧ t.plat.freq ≤ 2500 ∧ t.plat.comparedAt = s.cyc.toNat) := by
  refine .of_happens (t := s.compare w) rfl (decide_eq_true h) ⟨rfl, ?_, ?_, rfl⟩
  · show 1000 ≤ min 2500 (max 1000 _)
    omega
  · exact Nat.min_le_left _ _

/-! ### Zones (R366, R367, R420) -/

theorem mem_addTo (n m : Nat) (l : List Nat) : m ∈ addTo n l ↔ m = n ∨ m ∈ l := by
  unfold addTo
  split
  · rename_i h
    exact ⟨.inr, fun h' => h'.elim (fun e => e ▸ List.contains_iff_mem.mp h) id⟩
  · exact List.mem_cons

/-- A zone has a temperature: WRS, and a stack's refresh rate, follow WARN (R366, R367). -/
theorem State.exists_eq_warm (s : State) (z : Nat) (x : Int) : ∃ r y, s.warm z x = { s with
    plat := { s.plat with zones := Table.set s.plat.zones z { s.zone z with
      temp := x, wrs := (s.zone z).wrs || decide ((s.zone z).warn ≤ x) } }
    raised := r, sys := { s.sys with refresh2 := y } } ∧
    (4 ≤ z → y = if (s.zone z).warn ≤ x then addTo (z - 4) s.sys.refresh2 else s.sys.refresh2.filter (· ≠ z - 4)) := by
  unfold State.warm
  by_cases hw : (s.zone z).warn ≤ x <;> by_cases hz : 4 ≤ z <;>
    simp only [hw, hz, decide_true, decide_false, if_true, if_false, Bool.false_eq_true]
  · exact ⟨_, _, rfl, fun _ => rfl⟩
  · exact ⟨_, s.sys.refresh2, rfl, fun h => h.elim⟩
  · exact ⟨_, _, rfl, fun _ => rfl⟩
  · exact ⟨_, s.sys.refresh2, rfl, fun h => h.elim⟩

theorem State.zone_warm (s : State) (z : Nat) (x : Int) : (s.warm z x).zone z =
    { s.zone z with temp := x, wrs := (s.zone z).wrs || decide ((s.zone z).warn ≤ x) } := by
  obtain ⟨_, _, h, -⟩ := s.exists_eq_warm z x
  rw [h]
  exact Table.get_set_same _ _ _ _

theorem State.mem_warm (s : State) (z : Nat) (x : Int) : (s.warm z x).mem = s.mem := by
  obtain ⟨_, _, h, -⟩ := s.exists_eq_warm z x
  rw [h]

/-- The stop of the device leaves the zones and the stacks. -/
theorem State.stopDevice_zone (s : State) (kind code detail z : Nat) : (s.stopDevice kind code detail).zone z = s.zone z := by
  unfold State.zone
  rw [State.stopDevice_plat]

/-- A zone at CRIT: a die stops the device, and a stack is in self-refresh (R367). -/
theorem State.crit_spec (s : State) (z : Nat) (x : Int) :
    (s.crit z x).zone z = { (s.warm z x).zone z with crs := true } ∧ (z < 4 → (s.crit z x).plat.stopped = true) ∧
    (4 ≤ z → z - 4 ∈ (s.crit z x).sys.selfRefresh ∧ (s.crit z x).sys.refresh2 = (s.warm z x).sys.refresh2) := by
  have hz : (((s.warm z x).onZone z (fun x => { x with crs := true })).raiseBit (2 * z)).zone z =
      { (s.warm z x).zone z with crs := true } :=
    Table.get_set_same _ _ _ _
  have hsys : (((s.warm z x).onZone z (fun x => { x with crs := true })).raiseBit (2 * z)).sys = (s.warm z x).sys := rfl
  unfold State.crit
  dsimp only
  generalize ((s.warm z x).onZone z (fun x => { x with crs := true })).raiseBit (2 * z) = u at hz hsys ⊢
  split
  · rename_i hlt
    refine ⟨?_, fun _ => by rw [State.stopDevice_plat], fun h => absurd hlt (by omega)⟩
    rw [State.stopDevice_zone, hz]
  · rename_i hge
    split
    · rename_i hin
      exact ⟨hz, fun h => absurd h hge, fun _ => ⟨List.contains_iff_mem.mp hin, by rw [hsys]⟩⟩
    · obtain ⟨a, ha⟩ := u.msix_rest 1
      unfold State.enterSleep
      rw [ha]
      exact ⟨hz, fun h => absurd h hge, fun _ => ⟨(mem_addTo _ _ _).mpr (.inl rfl), (congrArg Mem.refresh2 hsys :)⟩⟩

theorem leads_zoneWarn (s : State) (z temp : Nat) (hw : (s.zone z).warn ≤ sgn 16 temp) : Leads s (.zoneWarn z temp) (fun t =>
    (t.zone z).temp = sgn 16 temp ∧ (t.zone z).wrs = true ∧ (4 ≤ z → z - 4 ∈ t.sys.refresh2) ∧
    ((critOf z : Int) ≤ sgn 16 temp → (t.zone z).crs = true ∧ (z < 4 → t.plat.stopped = true) ∧
      (4 ≤ z → z - 4 ∈ t.sys.selfRefresh))) := by
  refine .of_happens (t := s.heat z (sgn 16 temp)) rfl (decide_eq_true hw) ?_
  have hzone := s.zone_warm z (sgn 16 temp)
  have hwrs : ((s.warm z (sgn 16 temp)).zone z).wrs = true := by rw [hzone]; simp [hw]
  have htemp : ((s.warm z (sgn 16 temp)).zone z).temp = sgn 16 temp := by rw [hzone]
  have hrefresh (hz : 4 ≤ z) : z - 4 ∈ (s.warm z (sgn 16 temp)).sys.refresh2 := by
    obtain ⟨_, _, h, hy⟩ := s.exists_eq_warm z (sgn 16 temp)
    rw [h, hy hz, if_pos hw]
    exact (mem_addTo _ _ _).mpr (.inl rfl)
  obtain ⟨hc, hstop, hsleep⟩ := s.crit_spec z (sgn 16 temp)
  unfold State.heat
  split
  · rw [hc]
    exact ⟨htemp, hwrs, fun hz => (hsleep hz).2 ▸ hrefresh hz, fun _ => ⟨rfl, hstop, fun hz => (hsleep hz).1⟩⟩
  · rename_i hcrit
    exact ⟨htemp, hwrs, hrefresh, fun h => absurd h hcrit⟩

theorem leads_zoneCrit (s : State) (z temp : Nat) (h : (critOf z : Int) ≤ sgn 16 temp) : Leads s (.zoneCrit z temp) (fun t =>
    (t.zone z).crs = true ∧ (z < 4 → t.plat.stopped = true) ∧ (4 ≤ z → z - 4 ∈ t.sys.selfRefresh)) := by
  obtain ⟨hc, hstop, hsleep⟩ := s.crit_spec z (sgn 16 temp)
  exact .of_happens (t := s.crit z (sgn 16 temp)) rfl (decide_eq_true h) ⟨by rw [hc], hstop, fun hz => (hsleep hz).1⟩

theorem leads_zoneBelowWarn (s : State) (z temp : Nat) (hw : sgn 16 temp < (s.zone z).warn) :
    Leads s (.zoneBelowWarn z temp) (fun t => (t.zone z).temp = sgn 16 temp ∧ (4 ≤ z → z - 4 ∉ t.sys.refresh2)) := by
  refine .of_happens (t := s.heat z (sgn 16 temp)) rfl (decide_eq_true hw) ?_
  have htemp : ((s.warm z (sgn 16 temp)).zone z).temp = sgn 16 temp := by rw [State.zone_warm]
  have hrefresh (hz : 4 ≤ z) : z - 4 ∉ (s.warm z (sgn 16 temp)).sys.refresh2 := by
    obtain ⟨_, _, h, hy⟩ := s.exists_eq_warm z (sgn 16 temp)
    rw [h, hy hz, if_neg (not_le.mpr hw)]
    simp
  obtain ⟨hc, -, hsleep⟩ := s.crit_spec z (sgn 16 temp)
  unfold State.heat
  split
  · rw [hc]
    exact ⟨htemp, fun hz => (hsleep hz).2 ▸ hrefresh hz⟩
  · exact ⟨htemp, hrefresh⟩

theorem leads_selfRefreshExit (s : State) (k temp : Nat) (hk : k ∈ s.sys.selfRefresh)
    (h : sgn 16 temp ≤ (critOf (4 + k) : Int) - 40) : Leads s (.selfRefreshExit k temp) (fun t =>
      k ∉ t.sys.selfRefresh ∧ t.mem = s.mem) := by
  have hc : critOf (4 + k) = 840 := if_neg (by omega)
  refine .of_happens (t := s.wakeStack k (sgn 16 temp)) rfl ?_ ⟨?_, s.mem_warm (4 + k) (sgn 16 temp)⟩
  · rw [Bool.and_eq_true]
    refine ⟨List.contains_iff_mem.mpr hk, decide_eq_true ?_⟩
    rw [hc] at h ⊢
    exact h
  · show k ∉ List.filter (· ≠ k) _
    simp

theorem leads_bankRefresh (s : State) (k b : Nat) : Leads s (.bankRefresh k b) (fun t =>
    (k, b) ∈ t.sys.banks ∧ t.mem = s.mem) :=
  .of_next rfl ⟨List.mem_cons_self, rfl⟩

/-! ### Scrubbing (R414, R418) -/

/-- Errors are counted, and the sectors with `p` are poisoned beside those that were: no scrubber advances. -/
structure Scrubs (p : Nat → Prop) (s t : State) : Prop where
  mem : t.mem = s.mem
  below : t.sys.below = s.sys.below
  lines : ∀ k, (t.errUnit k).lines = (s.errUnit k).lines
  poison : ∀ sec, sec ∈ t.sys.poison ↔ sec ∈ s.sys.poison ∨ p sec

theorem State.onErr_lines (s : State) (u : Nat) (f : ErrUnit → ErrUnit) (hf : ∀ x, (f x).lines = x.lines) (k : Nat) :
    ((s.onErr u f).errUnit k).lines = (s.errUnit k).lines := by
  by_cases hk : k = u
  · subst hk
    exact (congrArg ErrUnit.lines (Table.get_set_same _ _ _ _)).trans (hf _)
  · exact congrArg ErrUnit.lines (Table.get_set_other _ _ _ _ _ hk)

theorem State.corrected_scrubs (s : State) (u : Nat) : Scrubs (fun _ => False) s (s.corrected u) := by
  refine ⟨rfl, rfl, ?_, fun _ => (or_false _).symm.to_iff⟩
  exact s.recoverable.onErr_lines u _ fun _ => rfl

theorem State.uncorrected_scrubs (s : State) (u : Nat) : Scrubs (fun _ => False) s (s.uncorrected u) := by
  refine ⟨rfl, rfl, ?_, fun _ => (or_false _).symm.to_iff⟩
  exact s.onErr_lines u _ fun _ => rfl

theorem State.poisonSector_poison (s : State) (sec a : Nat) :
    a ∈ (s.poisonSector sec).sys.poison ↔ a ∈ s.sys.poison ∨ a = sec := by
  unfold State.poisonSector
  split
  · rename_i h
    exact ⟨.inl, fun h' => h'.elim id fun e => e ▸ List.contains_iff_mem.mp h⟩
  · exact List.mem_cons.trans or_comm

theorem State.poisonSector_rest (s : State) (sec : Nat) : ∃ l, s.poisonSector sec = { s with sys := { s.sys with poison := l } } := by
  unfold State.poisonSector
  split <;> exact ⟨_, rfl⟩

theorem State.dramError_scrubs (s : State) (sec : Nat) :
    Scrubs (fun a => a = sec ∧ Table.find s.sys.below sec = none) s (s.dramError sec) := by
  have h := s.uncorrected_scrubs (errUnitOf (64 * sec))
  unfold State.dramError
  dsimp only
  rw [h.below]
  generalize s.uncorrected (errUnitOf (64 * sec)) = u at h ⊢
  cases hb : Table.find s.sys.below sec with
  | some x =>
    exact ⟨h.mem, h.below, h.lines, fun a => (h.poison a).trans (by simp)⟩
  | none =>
    obtain ⟨l, hl⟩ := u.poisonSector_rest sec
    rw [if_neg (by simp)]
    refine ⟨?_, ?_, ?_, fun a => ?_⟩
    · rw [hl]; exact h.mem
    · rw [hl]; exact h.below
    · rw [hl]; exact h.lines
    · rw [u.poisonSector_poison, h.poison]; simp

/-- The scrubber reads sector `i` of a line (R414, R418). -/
def State.scrubSector (line found : Nat) (s : State) (i : Nat) : State :=
  match found / 3 ^ i % 3 with
  | 0 => s
  | 1 => s.corrected (errUnitOf (256 * line))
  | _ => s.dramError (4 * line + i)

theorem State.scrubLine_eq (s : State) (line found : Nat) :
    s.scrubLine line found = (List.range 4).foldl (State.scrubSector line found) s := rfl

theorem State.scrubSector_scrubs (line found : Nat) (s : State) (i : Nat) :
    Scrubs (fun a => a = 4 * line + i ∧ found / 3 ^ i % 3 = 2 ∧ Table.find s.sys.below a = none) s
      (s.scrubSector line found i) := by
  have hdigit : found / 3 ^ i % 3 = 0 ∨ found / 3 ^ i % 3 = 1 ∨ found / 3 ^ i % 3 = 2 := by
    have := Nat.mod_lt (found / 3 ^ i) (show 0 < 3 by decide)
    omega
  unfold State.scrubSector
  rcases hdigit with h | h | h <;> rw [h]
  · exact ⟨rfl, rfl, fun _ => rfl, fun a => by simp⟩
  · have hc := s.corrected_scrubs (errUnitOf (256 * line))
    exact ⟨hc.mem, hc.below, hc.lines, fun a => (hc.poison a).trans (by simp)⟩
  · have hd := s.dramError_scrubs (4 * line + i)
    refine ⟨hd.mem, hd.below, hd.lines, fun a => (hd.poison a).trans (or_congr_right ?_)⟩
    constructor
    · rintro ⟨rfl, h⟩
      exact ⟨rfl, rfl, h⟩
    · rintro ⟨rfl, -, h⟩
      exact ⟨rfl, h⟩

theorem State.scrubSectors_scrubs (line found : Nat) (l : List Nat) (s : State) :
    Scrubs (fun a => ∃ i ∈ l, a = 4 * line + i ∧ found / 3 ^ i % 3 = 2 ∧ Table.find s.sys.below a = none) s
      (l.foldl (State.scrubSector line found) s) := by
  induction l generalizing s with
  | nil => exact ⟨rfl, rfl, fun _ => rfl, fun _ => by simp⟩
  | cons i l ih =>
    have h := s.scrubSector_scrubs line found i
    have k := ih (s.scrubSector line found i)
    refine ⟨k.mem.trans h.mem, k.below.trans h.below, fun j => (k.lines j).trans (h.lines j), fun a => ?_⟩
    rw [List.foldl_cons, k.poison, h.poison, h.below]
    simp only [List.mem_cons, exists_eq_or_imp, or_assoc]

theorem leads_scrubIssue (s : State) (k occ found : Nat) (hper : (s.errUnit k).per ≠ 0) (hsleep : k ∉ s.sys.selfRefresh)
    (hlines : (s.errUnit k).lines < stackLines) (hocc : occ < (s.errUnit k).thr) :
    Leads s (.scrubIssue k ⟨occ, found⟩) (fun t => (t.errUnit k).lines = (s.errUnit k).lines + 1 ∧
      t.mem = s.mem ∧ ∀ i, i < 4 → let sec := (k * 2 ^ 28 + (s.errUnit k).lines) * 4 + i
        (found / 3 ^ i % 3 ≠ 2 → (sec ∈ t.sys.poison ↔ sec ∈ s.sys.poison)) ∧
        (found / 3 ^ i % 3 = 2 → Table.find s.sys.below sec = none → sec ∈ t.sys.poison)) := by
  have hscrub : ((s.onErr k (fun u => u.scrub s.cyc.toNat occ)).errUnit k).lines = (s.errUnit k).lines + 1 := by
    refine (congrArg ErrUnit.lines (Table.get_set_same _ _ _ _)).trans ?_
    unfold ErrUnit.scrub
    dsimp only
    rw [if_neg (Nat.not_le.mpr hlines), decide_eq_true hocc, Bool.or_true, if_pos rfl]
  have hfold := State.scrubSectors_scrubs (k * 2 ^ 28 + (s.errUnit k).lines) found (List.range 4)
    (s.onErr k (fun u => u.scrub s.cyc.toNat occ))
  rw [← State.scrubLine_eq] at hfold
  refine .of_happens (t := if (s.errUnit k).lines < ((s.onErr k (fun u => u.scrub s.cyc.toNat occ)).errUnit k).lines
      then (s.onErr k (fun u => u.scrub s.cyc.toNat occ)).scrubLine (k * 2 ^ 28 + (s.errUnit k).lines) found
      else s.onErr k (fun u => u.scrub s.cyc.toNat occ)) rfl ?_ ?_
  · rw [Bool.and_eq_true, bne_iff_ne, Bool.not_eq_true', Bool.eq_false_iff]
    exact ⟨hper, fun h => hsleep (List.contains_iff_mem.mp h)⟩
  · rw [if_pos (by rw [hscrub]; exact Nat.lt_succ_self _)]
    refine ⟨(hfold.lines k).trans hscrub, hfold.mem, fun i hi => ⟨fun hne => ?_, fun h2 hb => ?_⟩⟩
    · refine (hfold.poison _).trans (or_iff_left ?_)
      rintro ⟨j, -, he, h2, -⟩
      obtain rfl : i = j := by omega
      exact hne h2
    · exact (hfold.poison _).mpr (.inr ⟨i, List.mem_range.mpr hi, by omega, h2, hb⟩)

end
end Sys2Proof.Machine

/-! ## Boot, the mailbox and PCIe errors (R319, R360 to R364, R432) -/

namespace Sys2Proof.Machine
section

variable {s t u : State} {i : Instr} {p : State → Prop}

/-! ### Boot (R360 to R362) -/

theorem leads_bootTrainingDone (s : State) (h : s.plat.bootSt = 0) :
    Leads s .bootTrainingDone (fun t => t.plat.bootSt = 1 ∧ t.plat.bootErr = 0) :=
  .of_happens rfl (beq_iff_eq.mpr h) ⟨rfl, rfl⟩

theorem leads_bootctlGo (s : State) (len : Nat) (h : s.plat.bootSt = 1) : Leads s (.bootctlGo len) (fun t =>
    t.plat.bootSt = 2 ∧ t.plat.bootErr = 0 ∧ t.plat.image = (locsFrom 0 (len * 4096)).map s.byte) := by
  refine .of_next (t := s.writeBootctl len) rfl ?_
  rw [State.writeBootctl, if_pos h]
  exact ⟨rfl, rfl, rfl⟩

theorem leads_bootVerify (s : State) (h : s.plat.bootSt = 2) : Leads s .bootVerify (fun t =>
    let e := imageError s.plat.image s.plat.bootLen
    t.plat.bootErr = e ∧ t.plat.bootSt = if e = 0 then 3 else 1) := by
  refine .of_happens (t := s.verifyImage) rfl (beq_iff_eq.mpr h) ?_
  unfold State.verifyImage
  dsimp only
  split
  · rename_i he
    exact ⟨he.symm, rfl⟩
  · exact ⟨rfl, rfl⟩

/-! ### The mailbox (R319, R364, R434) -/

theorem leads_doeDiscovery (s : State) :
    Leads s (.doeDiscovery 0) (fun t => ∃ p : List Nat, t.host.doe = s.host.doe ++ [(0, p)]) :=
  .of_next rfl ⟨_, rfl⟩

/-- After a failed verification every request is answered by Busy (R434). -/
theorem Leads.of_spdm_held (h : exec i s = s.spdm u) (hb : s.bootHeld = true) :
    Leads s i (fun t => t.host.doe = s.host.doe ++ [(0x7F, [3])]) := by
  refine .of_next (t := s.mailbox 0x7F [3]) ?_ rfl
  rw [h, State.spdm, if_pos hb]

theorem Leads.of_spdm (h : exec i s = s.spdm u) (hb : s.bootHeld = false)
    (hp : p { u with host := { u.host with algs := spdmAlgs } }) : Leads s i p := by
  refine .of_next ?_ hp
  rw [h, State.spdm, if_neg (by rw [hb]; exact Bool.false_ne_true)]

theorem leads_spdm_busy (s : State) (hb : s.bootHeld = true) (i : Instr) (hi : i ∈ [Instr.getDigests, .getCertificate 0 1,
    .challenge 0, .getMeasurements ⟨0, none⟩, .keyExchange 0, .finish 0, .ideKm 0 0]) :
    Leads s i (fun t => t.host.doe = s.host.doe ++ [(0x7F, [3])]) := by
  simp only [List.mem_cons, List.not_mem_nil, or_false] at hi
  rcases hi with rfl | rfl | rfl | rfl | rfl | rfl | rfl
  · exact .of_spdm_held rfl hb
  · exact .of_spdm_held rfl hb
  · exact .of_spdm_held rfl hb
  · exact .of_spdm_held rfl hb
  · exact .of_spdm_held rfl hb
  · exact .of_spdm_held rfl hb
  · exact .of_spdm_held rfl hb

theorem leads_getMeasurements (s : State) (hb : s.bootHeld = false) (n i : Nat) (hi : i ≤ 4) :
    Leads s (.getMeasurements ⟨i, none⟩) (fun t => ∃ p : List Nat, t.host.doe = s.host.doe ++ [(0xE0, p)]) ∧
    Leads s (.getMeasurements ⟨i, some n⟩) (fun t => ∃ p : List Nat, t.host.doe = s.host.doe ++ [(0xE0, p)] ∧
      p.getLast? = some (Config.aliasSign s.plat.digest n) ∧
      t.host.algs = [.sha384, .ecdsaP384, .secp384r1, .aes256Gcm]) := by
  constructor
  · refine .of_spdm rfl hb ?_
    dsimp only
    rw [if_pos (.inl hi)]
    exact ⟨_, rfl⟩
  · refine .of_spdm rfl hb ?_
    dsimp only
    rw [if_pos (.inl hi)]
    exact ⟨_, rfl, List.getLast?_concat, rfl⟩

theorem leads_finish (s : State) (hb : s.bootHeld = false) (n : Nat) : Leads s (.finish n) (fun t =>
    s.host.session = 1 → Config.finishVerifies n = true → t.host.session = 2) := by
  refine .of_spdm rfl hb fun hs hv => ?_
  dsimp only
  rw [if_pos ⟨hs, hv⟩]
  rfl

theorem leads_ideKm (s : State) (hb : s.bootHeld = false) (n : Nat) : Leads s (.ideKm 0 n) (fun t =>
    s.host.session = 2 → Table.find t.host.ideKeys 0 = some n) := by
  refine .of_spdm rfl hb fun hs => ?_
  dsimp only
  rw [if_pos ⟨hs, rfl⟩]
  exact Table.find_set_same _ _ _

theorem leads_spdm (s : State) (hb : s.bootHeld = false) (n m i : Nat) (hi : i ≤ 4) :
    Leads s .getDigests (fun t => ∃ p : List Nat, t.host.doe = s.host.doe ++ [(0x81, p)]) ∧
    Leads s (.getCertificate n m) (fun t => t.host.doe =
      s.host.doe ++ [(0x82, (s.chain.length - (n + m)) :: natsOf ((s.chain.drop n).take m))]) ∧
    Leads s (.challenge n) (fun t => ∃ p : List Nat, t.host.doe = s.host.doe ++ [(0x83, p)]) ∧
    Leads s (.getMeasurements ⟨i, none⟩) (fun t => ∃ p : List Nat, t.host.doe = s.host.doe ++ [(0xE0, p)]) ∧
    Leads s (.getMeasurements ⟨i, some n⟩) (fun t => ∃ p : List Nat, t.host.doe = s.host.doe ++ [(0xE0, p)] ∧
      p.getLast? = some (Config.aliasSign s.plat.digest n) ∧
      t.host.algs = [.sha384, .ecdsaP384, .secp384r1, .aes256Gcm]) ∧
    Leads s (.keyExchange n) (fun t => (∃ p : List Nat, t.host.doe = s.host.doe ++ [(0xE4, p)]) ∧ t.host.session = 1) ∧
    Leads s (.finish n) (fun t => s.host.session = 1 → Config.finishVerifies n = true → t.host.session = 2) ∧
    Leads s (.ideKm 0 n) (fun t => s.host.session = 2 → Table.find t.host.ideKeys 0 = some n) :=
  ⟨.of_spdm rfl hb ⟨_, rfl⟩, .of_spdm rfl hb rfl, .of_spdm rfl hb ⟨_, rfl⟩, (leads_getMeasurements s hb n i hi).1,
    (leads_getMeasurements s hb n i hi).2, .of_spdm rfl hb ⟨⟨_, rfl⟩, rfl⟩, leads_finish s hb n, leads_ideKm s hb n⟩

/-! ### PCIe errors (R427, R432) -/

theorem leads_pcieCorrectableError (s : State) (kind : Nat) : Leads s (.pcieCorrectableError kind) (fun t =>
    t.host.aer = s.host.aer ++ [(0, kind)] ∧ t.cairn.recoverable = s.cairn.recoverable + 1) :=
  .of_next rfl ⟨rfl, rfl⟩

theorem leads_unexpectedCompletion (s : State) (tag : Nat) : Leads s (.unexpectedCompletion tag) (fun t => t = s.aer 1 4) :=
  .of_next rfl rfl

theorem leads_pcieFatalError (s : State) (kind : Nat) : Leads s (.pcieFatalError kind) (fun t => t = s.aer 2 kind) :=
  .of_next rfl rfl

theorem execPcieCompletionError_read (s : State) (k : Nat) :
    exec (.pcieCompletionError k false) s = .next ((s.aer 1 3).readFails k) := rfl

theorem leads_pcieCompletionError (s : State) (k : Nat) (ats : Bool) : Leads s (.pcieCompletionError k ats) (fun t =>
    (ats = false → k < 1024 → (s.strand k).loads = false → t = s.aer 1 3) ∧
    (ats = false → k < 1024 → (s.strand k).loads = true → ∃ n, n < 2 ^ 56 ∧ (t.strand k).fw =
      (s.strand k).fw.or (some (.kill 1 0x18 0 0 0x18 (3 * 2 ^ 56 + n) 0))) ∧
    (ats = true → ∀ a, s.askOf k (fun a => !a.paged && !a.queued && a.failedAt.isNone) = some a → a.retried = false →
      t = (s.aer 1 3).putAsk a { a with failedAt := some s.cyc.toNat })) := by
  cases ats with
  | false =>
    refine .of_next (execPcieCompletionError_read s k) ⟨fun _ hk hl => ?_, fun _ hk hl => ?_, fun h => Bool.noConfusion h⟩
    · rw [State.readFails, if_pos hk, if_neg]
      exact fun h => Bool.false_ne_true (hl.symm.trans h)
    · rw [State.readFails, if_pos hk, if_pos (show ((s.aer 1 3).strand k).loads = true from hl)]
      exact ⟨_, Nat.mod_lt _ (Nat.two_pow_pos 56), congrArg Strand.fw (State.onStrand_strand _ _ _)⟩
  | true =>
    refine ⟨_, rfl, fun h => Bool.noConfusion h, fun h => Bool.noConfusion h, fun _ a ha hr => ?_⟩
    have ha' : (s.aer 1 3).askOf k (fun a => !a.paged && !a.queued && a.failedAt.isNone) = some a := ha
    rw [if_pos rfl, ha']
    show (s.aer 1 3).atsError a = _
    rw [State.atsError, if_neg (by rw [hr]; exact Bool.false_ne_true)]
    rfl

end
end Sys2Proof.Machine

/-! ## The host's port (R104, R105, R320, R321, R407, R432) -/

namespace Sys2Proof.Machine
section

variable {s t u : State}

/-! ### Rolling back (R42) -/

/-- The second state differs from the first in strands, cores, ropes and engines. -/
def RollsBack (s t : State) : Prop := ∃ x c r e, t = { s with strands := x, cores := c, ropes := r, engines := e }

theorem RollsBack.refl (s : State) : RollsBack s s := ⟨_, _, _, _, rfl⟩

theorem RollsBack.trans (h : RollsBack s t) (k : RollsBack t u) : RollsBack s u := by
  obtain ⟨_, _, _, _, rfl⟩ := h
  obtain ⟨_, _, _, _, rfl⟩ := k
  exact ⟨_, _, _, _, rfl⟩

theorem RollsBack.foldl {α : Type} (f : State → α → State) (h : ∀ s a, RollsBack s (f s a)) (l : List α) (s : State) :
    RollsBack s (l.foldl f s) := by
  induction l generalizing s with
  | nil => exact .refl s
  | cons a l ih => exact (h s a).trans (ih _)

theorem StagesKept.rollsBack (h : StagesKept s t) : RollsBack s t := by
  obtain ⟨⟨_, _, rfl⟩, -⟩ := h
  exact ⟨_, _, _, _, rfl⟩

theorem State.landAll_rollsBack (s : State) (k : Nat) : RollsBack s (s.landAll k) := by
  have from_ (n i : Nat) (s : State) : RollsBack s (s.landAllFrom k i n) := by
    induction n generalizing i s with
    | zero => exact .refl s
    | succ n ih =>
      unfold State.landAllFrom
      split
      · exact .refl s
      · split
        · exact ih _ _
        · exact ih _ _
        · exact ((s.landAt_stagesKept _ _ _).rollsBack.trans ⟨_, _, _, _, rfl⟩).trans (ih _ _)
  exact from_ _ _ s

theorem State.leaveStream_rollsBack (s : State) (k : Nat) : RollsBack s (s.leaveStream k) := by
  have hmopr (s : State) : RollsBack s (s.abandonMopr k) := by
    refine RollsBack.foldl _ (fun s p => ?_) _ s
    unfold State.abandonAt
    dsimp only
    split
    · exact .refl s
    · exact ⟨_, _, _, _, rfl⟩
  have hpark (s : State) (r c : Nat) : RollsBack s (s.parkIfLeft r c) := by
    unfold State.parkIfLeft
    dsimp only
    split
    · exact .refl s
    split
    · exact ⟨_, _, _, _, rfl⟩
    split
    · exact ⟨_, _, _, _, rfl⟩
    · exact .refl s
  have honstrand (s : State) (f : Strand → Strand) : RollsBack s (s.onStrand k f) := ⟨_, _, _, _, rfl⟩
  unfold State.leaveStream
  dsimp only
  split
  · exact (((honstrand s _).trans (honstrand _ _)).trans (hmopr _)).trans (hpark _ _ _)
  · exact honstrand s _

theorem State.rollBack_rollsBack (s : State) (k : Nat) : RollsBack s (s.rollBack k) := by
  have hres (s : State) : RollsBack s (s.endResume k) := by
    obtain ⟨_, _, _, h⟩ := s.endResume_resumed k
    rw [h]
    exact ⟨_, _, _, _, rfl⟩
  have honstrand (s : State) (f : Strand → Strand) : RollsBack s (s.onStrand k f) := ⟨_, _, _, _, rfl⟩
  have hend (s : State) : RollsBack s (s.endTurnOf k) := ⟨_, _, _, _, rfl⟩
  have hfinish (s : State) : RollsBack s (s.finishRollback k) := by
    unfold State.finishRollback
    exact ((honstrand s _).trans (State.landAll_rollsBack _ _)).trans (honstrand _ _)
  unfold State.rollBack
  split
  · exact .refl s
  · dsimp only
    have h := ((hend s).trans (hres _)).trans (State.leaveStream_rollsBack _ k)
    split
    · exact (h.trans (honstrand _ _)).trans (hfinish _)
    · exact h.trans (honstrand _ _)

/-! ### ATS and PRI (R105, R320, R407) -/

theorem State.askOf_some {k : Nat} {f : Ask → Bool} {a : Ask} (h : s.askOf k f = some a) : a.who = k ∧ f a = true := by
  have h := List.find?_some h
  rw [Bool.and_eq_true, beq_iff_eq] at h
  exact h

theorem State.giveEntry_rest (s : State) (who : List Nat) (e : TlbEntry) :
    ∃ x l, s.giveEntry who e = { s with strands := x, sys := { s.sys with found := l } } := by
  unfold State.giveEntry
  induction who generalizing s with
  | nil => exact ⟨_, _, rfl⟩
  | cons w who ih =>
    rw [List.foldl_cons]
    obtain ⟨x, l, h⟩ := ih (if w < 1024 then s.onStrand w (fun x => { x with found := e :: x.found })
      else { s with sys := { s.sys with found := (w, e) :: s.sys.found } })
    rw [h]
    split <;> exact ⟨_, _, rfl⟩

/-- The TLB holds an entry that it has just taken. -/
theorem State.mem_addTlb (s : State) (e : TlbEntry) : e ∈ (s.addTlb e).sys.tlb :=
  List.mem_append_left _ List.mem_cons_self

theorem State.goOn_rest (s : State) (a : Ask) :
    ∃ x e, s.goOn a = { s with strands := x, engines := e, host := { s.host with asks := s.host.asks.erase a } } := by
  unfold State.goOn
  dsimp only
  split
  · exact ⟨_, _, rfl⟩
  · split <;> exact ⟨_, _, rfl⟩

theorem State.sendPage_ats (s : State) (a : Ask) :
    (s.sendPage a).host.ats = s.host.ats ++ (if s.pageRoom then [(2, a.pasid, a.addr)] else []) := by
  unfold State.sendPage
  split
  · rfl
  · exact (List.append_nil _).symm

theorem leads_atsCompletion (s : State) (k frame : Nat) (large : Bool) (a : Ask)
    (ha : s.askOf k (fun a => !a.paged && !a.queued && a.failedAt.isNone) = some a) :
    Leads s (.atsCompletion k 0 frame large) (fun t => t.host.asks = s.host.asks.erase a ∧
      ({ die := a.die, root := a.pasid, page := a.addr / 2 ^ 12, mask := if large then 1 else 0, pte := frame
         host := true } : TlbEntry) ∈ t.sys.tlb) ∧
    Leads s (.atsCompletion k 1 frame large) (fun t => t.host.ats = s.host.ats ++
      (if s.pageRoom then [(2, a.pasid, a.addr)] else [])) := by
  have hexec (status : Nat) : exec (.atsCompletion k status frame large) s =
      .next (if status = 0 then (s.takeAts a (a.entry frame large)).goOn a
        else if status = 1 then s.pageRequest a else s.atsError a) := by
    have h : exec (.atsCompletion k status frame large) s = execAtsCompletion k status frame large s := rfl
    rw [h, execAtsCompletion, ha]
  constructor
  · refine .of_next (hexec 0) ?_
    rw [if_pos rfl]
    obtain ⟨x, e, hgo⟩ := (s.takeAts a (a.entry frame large)).goOn_rest a
    have htake : (s.takeAts a (a.entry frame large)).host = s.host ∧
        a.entry frame large ∈ (s.takeAts a (a.entry frame large)).sys.tlb := by
      unfold State.takeAts
      obtain ⟨x, l, hgive⟩ := State.giveEntry_rest _ [s.holder a] (a.entry frame large)
      rw [hgive]
      exact ⟨rfl, State.mem_addTlb _ _⟩
    rw [hgo]
    exact ⟨congrArg (fun h : HostIf => h.asks.erase a) htake.1, htake.2⟩
  · refine .of_next (hexec 1) ?_
    rw [if_neg Nat.one_ne_zero, if_pos rfl, State.pageRequest, State.sendPage_ats]
    split
    · obtain ⟨_, _, _, _, h⟩ := s.rollBack_rollsBack a.who
      rw [h]
      rfl
    · rfl

theorem leads_atsRetry (s : State) (k : Nat) (a : Ask)
    (ha : s.askOf k (fun a => a.failedAt.any (fun n => decide (n + 2 ^ 16 ≤ s.cyc.toNat))) = some a) :
    Leads s (.atsRetry k) (fun t => t.host.ats = s.host.ats ++ [(1, a.pasid, a.addr)]) := by
  have h : exec (.atsRetry k) s = execAtsRetry k s := rfl
  rw [execAtsRetry, ha] at h
  exact .of_next h rfl

/-- A strand that still waits for the answer to a page request that has failed is killed (R407). -/
theorem State.askFails_of_asker (s : State) (a : Ask) (hp : a.paged = true) (hk : a.who < 1024)
    (hpri : (s.strand a.who).pri = some a.addr) : (s.askFails a).host.asks = s.host.asks.erase a ∧
      ((s.askFails a).strand a.who).fw = some (.kill 1 0x18 a.tba 0 0x18 a.addr 0) := by
  have hasker : (s.dropAsk a).asker a = true := by
    show (decide _ && (s.strand a.who).pri == some a.addr) = true
    rw [hpri, decide_eq_true hk]
    exact beq_self_eq_true _
  unfold State.askFails
  dsimp only
  rw [if_pos hasker, if_pos hp]
  exact ⟨rfl, congrArg Strand.fw (State.onStrand_strand _ _ _)⟩

theorem leads_priResponse (s : State) (k : Nat) (a : Ask) (ha : s.askOf k (·.paged) = some a) (hk : k < 1024)
    (hpri : (s.strand k).pri = some a.addr) :
    Leads s (.priResponse k true) (fun t => t.host.asks = s.host.asks.erase a ∧ (t.strand k).pri = none) ∧
    Leads s (.priResponse k false) (fun t => t.host.asks = s.host.asks.erase a ∧
      (t.strand k).fw = some (.kill 1 0x18 a.tba 0 0x18 a.addr 0)) := by
  obtain ⟨rfl, hp⟩ := State.askOf_some ha
  have hexec (ok : Bool) : exec (.priResponse a.who ok) s = .next (if ok then s.goOn a else s.askFails a) := by
    have h : exec (.priResponse a.who ok) s = execPriResponse a.who ok s := rfl
    rw [h, execPriResponse, ha]
  have hasker : (s.dropAsk a).asker a = true := by
    show (decide _ && (s.strand a.who).pri == some a.addr) = true
    rw [hpri, decide_eq_true hk]
    exact beq_self_eq_true _
  constructor
  · refine .of_next (hexec true) ?_
    rw [if_pos rfl, State.goOn, if_pos hasker]
    exact ⟨rfl, congrArg Strand.pri (State.onStrand_strand _ _ _)⟩
  · refine .of_next (hexec false) ?_
    rw [if_neg Bool.false_ne_true]
    exact s.askFails_of_asker a hp hk hpri

theorem leads_priTimeout (s : State) (k : Nat) (a : Ask)
    (ha : s.askOf k (fun a => a.paged && decide (a.sentAt + 2 ^ 28 ≤ s.cyc.toNat)) = some a) (hk : k < 1024)
    (hpri : (s.strand k).pri = some a.addr) : Leads s (.priTimeout k) (fun t => t.host.asks = s.host.asks.erase a ∧
      (t.strand k).fw = some (.kill 1 0x18 a.tba 0 0x18 a.addr 0)) := by
  obtain ⟨rfl, hp⟩ := State.askOf_some ha
  have h : exec (.priTimeout a.who) s = execPriTimeout a.who s := rfl
  rw [execPriTimeout, ha] at h
  exact .of_next h (s.askFails_of_asker a (Bool.and_eq_true_iff.mp hp).1 hk hpri)

/-! ### Invalidations (R104, R105, R332) -/

/-- No TLB keeps an entry that goes. -/
theorem State.loseEntries_tlb (s : State) (gone : TlbEntry → Bool) (e : TlbEntry)
    (h : e ∈ (s.loseEntries gone).sys.tlb ∨ ∃ c, e ∈ ((s.loseEntries gone).core c).tlb) : gone e = false := by
  rcases h with h | ⟨c, h⟩
  · simpa using (List.mem_filter.mp h).2
  · have hcore : (s.loseEntries gone).core c = (Table.find s.cores c).elim {} (fun x =>
        { x with tlb := x.tlb.filter (fun e => !gone e) }) :=
      Table.get_mapVal (fun _ (x : Core) => { x with tlb := x.tlb.filter (fun e => !gone e) }) s.cores {} c
    rw [hcore] at h
    cases hf : Table.find s.cores c with
    | none => rw [hf] at h; exact absurd h List.not_mem_nil
    | some x => rw [hf] at h; simpa using (List.mem_filter.mp h).2

theorem leads_atsInvalidation (s : State) (pasid va len : Nat) : Leads s (.atsInvalidation pasid va len) (fun t =>
    (∀ e, (e ∈ t.sys.tlb ∨ ∃ c, e ∈ (t.core c).tlb) → e.meets pasid va len = false) ∧ t.host = s.host ∧ t.mem = s.mem ∧
    ∃ l, t.sys.atsInvals = s.sys.atsInvals ++ [(pasid, va, l)]) :=
  .of_next rfl ⟨fun e h => s.loseEntries_tlb (·.meets pasid va len) e h, rfl, rfl, _, rfl⟩

/-- An entry that an invalidation of a range leaves names no page of it. -/
theorem Stale.range_kept {root va len : Nat} {e : TlbEntry} (h : (Stale.range root va len).drops e = false)
    (hh : e.host = false) (hr : e.root = root) (i : Nat) (hi : i < 16) (hb : bitAt e.mask i = true) :
    va + len ≤ (e.page / 16 * 16 + i) * 2 ^ 16 ∨ (e.page / 16 * 16 + i + 1) * 2 ^ 16 ≤ va := by
  unfold Stale.drops at h
  simp only [hh, hr, Bool.not_false, Bool.true_and, beq_self_eq_true, List.any_eq_false, List.mem_range, Bool.and_eq_true,
    decide_eq_true_eq, not_and] at h
  refine (Nat.lt_or_ge _ _).symm.imp id fun hlt => ?_
  have hend := h i hi ⟨hb, hlt⟩
  omega

theorem leads_tlbInvalidation (s : State) (root va len : Nat) : Leads s (.tlbInvalidation root va len) (fun t =>
    t.mem = s.mem ∧
    (∀ e, (e ∈ t.sys.tlb ∨ ∃ c, e ∈ (t.core c).tlb) → e.die = 0 → e.host = false → e.root = root →
      ∀ i, i < 16 → bitAt e.mask i = true →
        va + len ≤ (e.page / 16 * 16 + i) * 2 ^ 16 ∨ (e.page / 16 * 16 + i + 1) * 2 ^ 16 ≤ va) ∧
    t.fab.mcast = s.fab.mcast ++ [{ src := 0, dests := [1, 2, 3], what := .stale (.range root va len) }]) := by
  refine .of_next (t := s.invalidate (.range root va len)) rfl ⟨rfl, fun e he hd hh hr i hi hb => ?_, rfl⟩
  have h := s.loseEntries_tlb (fun e => [0].contains e.die && (Stale.range root va len).drops e) e he
  exact Stale.range_kept (by simpa [hd] using h) hh hr i hi hb

end
end Sys2Proof.Machine

/-! ## The host's accesses to memory (R321, R414, R432) -/

namespace Sys2Proof.Machine
section

variable {s t u : State}

/-! ### What a write at its home leaves of the logs -/

/-- The AER log and the count of recoverable events are as they were. -/
structure SameLogs (s t : State) : Prop where
  aer : t.host.aer = s.host.aer
  recoverable : t.cairn.recoverable = s.cairn.recoverable

theorem SameLogs.refl (s : State) : SameLogs s s := ⟨rfl, rfl⟩

theorem SameLogs.trans (h : SameLogs s t) (k : SameLogs t u) : SameLogs s u :=
  ⟨k.aer.trans h.aer, k.recoverable.trans h.recoverable⟩

theorem SameLogs.foldl {α : Type} (f : State → α → State) (h : ∀ s a, SameLogs s (f s a)) (l : List α) (s : State) :
    SameLogs s (l.foldl f s) := by
  induction l generalizing s with
  | nil => exact .refl s
  | cons a l ih => exact (h s a).trans (ih _)

theorem State.setBytes_sameLogs (s : State) (l : List (Nat × Byte)) : SameLogs s (s.setBytes l) := by
  obtain ⟨m, hm⟩ := State.setBytes_rest l s
  rw [hm]
  exact ⟨rfl, rfl⟩

theorem State.setNum_sameLogs (s : State) (l n v : Nat) : SameLogs s (s.setNum l n v) := s.setBytes_sameLogs _

theorem State.msix_sameLogs (s : State) (v : Nat) : SameLogs s (s.msix v) := by
  unfold State.msix
  split
  · exact .refl s
  · split <;> exact ⟨rfl, rfl⟩

theorem State.postEvent_sameLogs (s : State) (k q d : Nat) : SameLogs s (s.postEvent k q d) := by
  unfold State.postEvent
  split
  · exact .refl s
  · have h (e : Nat) : SameLogs s { s with host := { s.host with evseq := e } } := ⟨rfl, rfl⟩
    exact (((((h _).trans (State.setNum_sameLogs _ _ _ _)).trans (State.setNum_sameLogs _ _ _ _)).trans
      (State.setNum_sameLogs _ _ _ _)).trans (State.setNum_sameLogs _ _ _ _)).trans
      ((State.setNum_sameLogs _ _ _ _).trans (State.msix_sameLogs _ _))

theorem State.capture_sameLogs (s : State) (line : Nat) : SameLogs s (s.capture line) := by
  unfold State.capture
  split
  · exact .refl s
  · dsimp only
    split
    · exact .refl s
    split
    · exact ⟨rfl, rfl⟩
    obtain ⟨m, y, h⟩ := State.openEntry_rest _ _ _ _ _ _ _
    rw [h]
    split
    · refine SameLogs.trans ?_ (State.postEvent_sameLogs _ _ _ _)
      exact ⟨rfl, rfl⟩
    · exact ⟨rfl, rfl⟩

theorem State.captureFor_sameLogs (s : State) (locs : List Nat) : SameLogs s (s.captureFor locs) := by
  unfold State.captureFor
  split
  · exact .refl s
  · exact .foldl _ State.capture_sameLogs _ s

theorem State.useL2_rest (s : State) (sec ev : Nat) : ∃ y, s.useL2 sec ev = { s with sys := y } := by
  unfold State.useL2
  dsimp only
  split
  · exact ⟨_, rfl⟩
  · split
    · exact ⟨_, rfl⟩
    · split <;> exact ⟨_, rfl⟩

theorem State.dirtyL2_rest (s : State) (sec ev : Nat) : ∃ y, s.dirtyL2 sec ev = { s with sys := y } := by
  obtain ⟨y, h⟩ := s.useL2_rest sec ev
  unfold State.dirtyL2
  rw [h]
  dsimp only
  split
  · exact ⟨_, rfl⟩
  · split <;> exact ⟨_, rfl⟩

theorem State.dirtyL2_sameLogs (s : State) (sec ev : Nat) : SameLogs s (s.dirtyL2 sec ev) := by
  obtain ⟨y, h⟩ := s.dirtyL2_rest sec ev
  rw [h]
  exact ⟨rfl, rfl⟩

theorem State.writeHome_sameLogs (s : State) (cells : List (Nat × Byte)) (l : List Nat) (ev : Nat) :
    SameLogs s (s.writeHome cells l ev) := by
  have h := (((s.captureFor_sameLogs (cells.map (·.1))).trans (.foldl _ (fun s sec => s.dirtyL2_sameLogs sec ev) l _)).trans
    (State.setBytes_sameLogs _ cells))
  exact ⟨h.aer, h.recoverable⟩

theorem State.cleanL2s_rest (s : State) (l : List Nat) : ∃ y, l.foldl State.cleanL2 s = { s with sys := y } := by
  induction l generalizing s with
  | nil => exact ⟨_, rfl⟩
  | cons sec l ih =>
    obtain ⟨y, h⟩ := ih (s.cleanL2 sec)
    exact ⟨y, h⟩

/-! ### Writes -/

/-- A byte that is written at its home is there. -/
theorem State.byte_writeHome (s : State) (cells : List (Nat × Byte)) (l : List Nat) (ev : Nat) (hn : (cells.map (·.1)).Nodup)
    (d : Nat × Byte) (hd : d ∈ cells) : (s.writeHome cells l ev).byte d.1 = d.2 :=
  State.byte_setBytes_mem cells _ hn d hd

theorem State.barWrite_byte (s : State) (off : Nat) (data : List Byte) (j : Nat) (b : Byte) (hb : data[j]? = some b) :
    (s.barWrite off data false).byte (off + j) = b := by
  obtain ⟨hj, rfl⟩ := List.getElem?_eq_some_iff.mp hb
  have hz : j < ((locsFrom off data.length).zip data).length := by simpa using hj
  have hd := List.getElem_mem hz
  rw [List.getElem_zip, locsFrom_getElem] at hd
  unfold State.barWrite
  dsimp only
  rw [if_neg Bool.false_ne_true]
  refine State.byte_writeHome _ _ _ _ ?_ _ hd
  rw [List.map_fst_zip (by simp)]
  exact nodup_locsFrom _ _

theorem State.barWrite_sameLogs (s : State) (off : Nat) (data : List Byte) (p : Bool) : SameLogs s (s.barWrite off data p) := by
  obtain ⟨y, hy⟩ := s.cleanL2s_rest ((locsFrom off data.length).map (· / 64)).dedup
  unfold State.barWrite
  dsimp only
  rw [hy]
  have h := State.writeHome_sameLogs { s with sys := y } ((locsFrom off data.length).zip data) [] 0
  split
  · exact ⟨h.aer, h.recoverable⟩
  · exact ⟨h.aer, h.recoverable⟩

theorem State.barWrite_poison (s : State) (off : Nat) (data : List Byte) (l : Nat) (hl : l ∈ locsFrom off data.length) :
    l / 64 ∈ (s.barWrite off data true).sys.poison := by
  unfold State.barWrite
  dsimp only
  rw [if_pos rfl]
  exact List.mem_append_left _ (List.mem_dedup.mpr (List.mem_map_of_mem hl))

theorem State.barRequest_of_free (s : State) (r : HostReq) (hf : s.host.bar2 = []) (hw : s.barWaits r = false) :
    s.barRequest r = s.barServe r := by
  rw [State.barRequest, hf, hw]
  rfl

theorem leads_bar2Write (s : State) (off : Nat) (data : List Byte) :
    (barRange off data.length = true → s.host.bar2 = [] → s.barWaits (.write off data false) = false →
      Leads s (.bar2Write off data) (fun t => ∀ j b, data[j]? = some b → t.byte (off + j) = b)) ∧
    (barRange off data.length = false → Leads s (.bar2Write off data) (fun t => t.mem = s.mem ∧
      t.host.aer = s.host.aer ++ [(1, 1)])) := by
  have h : exec (.bar2Write off data) s = execBar2Write off data s := rfl
  rw [execBar2Write] at h
  constructor
  · intro hr hf hw
    rw [if_pos hr, s.barRequest_of_free _ hf hw] at h
    exact .of_next h (s.barWrite_byte off data)
  · intro hr
    rw [if_neg (by rw [hr]; exact Bool.false_ne_true)] at h
    exact .of_next h ⟨rfl, rfl⟩

theorem leads_pciePoisonedTlp (s : State) (off : Nat) (b : Byte) (data : List Byte) (hr : barRange off (data.length + 1) = true)
    (hf : s.host.bar2 = []) (hw : s.barWaits (.write off (b :: data) true) = false) :
    Leads s (.pciePoisonedTlp off (b :: data)) (fun t =>
      off / 64 ∈ t.sys.poison ∧ t.host.aer = s.host.aer ++ [(1, 2)]) := by
  have h : exec (.pciePoisonedTlp off (b :: data)) s = execPciePoisonedTlp off (b :: data) s := rfl
  rw [execPciePoisonedTlp, List.length_cons, if_pos hr, s.barRequest_of_free _ hf hw] at h
  refine .of_next h ⟨?_, ?_⟩
  · exact s.barWrite_poison off (b :: data) off (by simp)
  · exact congrArg (· ++ [(1, 2)]) (s.barWrite_sameLogs off (b :: data) true).aer

/-! ### Reads -/

theorem State.barRead_clean (s : State) (off n : Nat) (hp : ∀ l ∈ locsFrom off n, l / 64 ∉ s.sys.poison) :
    s.barRead off n = { s with host := { s.host with reads := s.host.reads ++ [(0, (locsFrom off n).map s.byte)] } } := by
  have hany : (locsFrom off n).any (fun l => s.sys.poison.contains (l / 64)) = false :=
    List.any_eq_false.mpr fun l hl => by simpa using hp l hl
  unfold State.barRead
  dsimp only
  rw [hany, if_neg Bool.false_ne_true]

theorem leads_bar2Read (s : State) (off n : Nat) :
    (barRange off n = true → s.host.bar2 = [] → s.barWaits (.read off n) = false →
      (∀ l ∈ locsFrom off n, l / 64 ∉ s.sys.poison) → Leads s (.bar2Read off n) (fun t => t.mem = s.mem ∧
        t.host.reads = s.host.reads ++ [(0, (locsFrom off n).map s.byte)])) ∧
    (barRange off n = false → Leads s (.bar2Read off n) (fun t => t.host.reads = s.host.reads ++ [(1, [])])) := by
  have h : exec (.bar2Read off n) s = execBar2Read off n s := rfl
  rw [execBar2Read] at h
  constructor
  · intro hr hf hw hp
    rw [if_pos hr, s.barRequest_of_free _ hf hw, State.barServe, s.barRead_clean off n hp] at h
    exact .of_next h ⟨rfl, rfl⟩
  · intro hr
    rw [if_neg (by rw [hr]; exact Bool.false_ne_true)] at h
    exact .of_next h rfl

end
end Sys2Proof.Machine

/-! ## Walks and moves of pages (R102, R103, R120, R413) -/

namespace Sys2Proof.Machine
section

variable {s t u : State}

/-! ### The entry of a walk (R103) -/

theorem bitAt_eq_testBit (n i : Nat) : bitAt n i = n.testBit i := by
  rw [Nat.testBit_eq_decide_div_mod_eq]
  rfl

/-- A sum of distinct powers of two has the bits of its powers. -/
theorem bitAt_sum_two_pow (l : List Nat) (h : l.Nodup) (i : Nat) (hi : i ∈ l) : bitAt (l.map (2 ^ ·)).sum i = true := by
  rw [bitAt_eq_testBit, ← Nat.mem_bitIndices, ← List.mem_toFinset, ← List.sum_toFinset _ h,
    Finset.toFinset_bitIndices_sum_two_pow]
  exact List.mem_toFinset.mpr hi

theorem foldl_add_two_pow (l : List (Nat × Nat)) (m : Nat) :
    l.foldl (fun m v => m + 2 ^ v.1) m = m + ((l.map (·.1)).map (2 ^ ·)).sum := by
  induction l generalizing m with
  | nil => rfl
  | cons v l ih => rw [List.foldl_cons, ih, List.map_cons, List.map_cons, List.sum_cons, Nat.add_assoc]

theorem State.groupPages_keys (s : State) (t3 idx : Nat) : ((s.groupPages t3 idx).map (·.1)).Nodup := by
  have h (g : Nat → Option Nat) (l : List Nat) :
      ((l.filterMap (fun i => (g i).map (fun f => (i, f)))).map (·.1)).Sublist l := by
    induction l with
    | nil => exact .slnil
    | cons i l ih =>
      rw [List.filterMap_cons]
      cases g i with
      | none => exact ih.cons i
      | some f => exact ih.cons_cons i
  exact (h _ _).nodup List.nodup_range

/-- The entry of a walk covers the walk's page. -/
theorem State.bitAt_tlbMask (s : State) (t3 idx : Nat) : bitAt (s.tlbMask t3 idx) (idx % 16) = true := by
  have hsum (l : List (Nat × Nat)) (hn : (l.map (·.1)).Nodup) (hne : ∀ v ∈ l, v.1 ≠ idx % 16) :
      bitAt (l.foldl (fun m v => m + 2 ^ v.1) (2 ^ (idx % 16))) (idx % 16) = true := by
    rw [foldl_add_two_pow, ← List.sum_cons, ← List.map_cons (f := (2 ^ · : Nat → Nat))]
    refine bitAt_sum_two_pow _ (List.nodup_cons.mpr ⟨?_, hn⟩) _ List.mem_cons_self
    intro hm
    obtain ⟨v, hv, he⟩ := List.mem_map.mp hm
    exact hne v hv he
  unfold State.tlbMask
  dsimp only
  split
  · refine hsum _ ((List.filter_sublist.map _).nodup (s.groupPages_keys t3 idx)) fun v hv => ?_
    have h := (List.mem_filter.mp hv).2
    simp only [Bool.and_eq_true, bne_iff_ne] at h
    exact h.2
  · exact hsum [] List.nodup_nil fun v hv => absurd hv List.not_mem_nil

/-! ### Walks (R102) -/

theorem State.tlbFor_congr (h : t.sys.tlb = s.sys.tlb) (d root va : Nat) : t.tlbFor d root va = s.tlbFor d root va := by
  unfold State.tlbFor
  rw [h]

/-- The TLB's entry for an address is that of its page. -/
theorem State.tlbFor_page (s : State) (d root va : Nat) : s.tlbFor d root (va / 2 ^ 16 * 2 ^ 16) = s.tlbFor d root va := by
  have h1 : va / 2 ^ 16 * 2 ^ 16 / 2 ^ 20 = va / 2 ^ 20 := by omega
  have h2 : va / 2 ^ 16 * 2 ^ 16 / 2 ^ 16 % 16 = va / 2 ^ 16 % 16 := by omega
  unfold State.tlbFor TlbEntry.covers
  rw [h1, h2]

/-- A walk that finds a good entry fills the TLB with it. -/
theorem State.tlbFor_fillTlb (s : State) (d root va pte : Nat) (hw : s.walk root va = some pte) (hg : pteGood pte = true) :
    ((s.fillTlb d root va).tlbFor d root va).isSome = true := by
  unfold State.fillTlb
  split
  · assumption
  · obtain ⟨t3, ht⟩ : ∃ t3, s.walkTo root va = some t3 := by
      cases ht : s.walkTo root va with
      | none => rw [State.walk, ht] at hw; cases hw
      | some t3 => exact ⟨t3, rfl⟩
    have hbit := s.bitAt_tlbMask t3 (fld va 16 10)
    have hidx : fld va 16 10 % 16 = va / 2 ^ 16 % 16 := by unfold fld; omega
    have hpage : va / 2 ^ 16 / 16 = va / 2 ^ 20 := by omega
    rw [State.walkEntry, ht, hw]
    dsimp only
    rw [if_pos hg]
    refine List.find?_isSome.mpr ⟨_, State.mem_addTlb _ _, ?_⟩
    simp only [TlbEntry.covers, beq_self_eq_true, Bool.not_false, Bool.true_and, hpage, ← hidx]
    exact hbit

theorem State.fillTlb_rest (s : State) (d root va : Nat) : ∃ y, s.fillTlb d root va = { s with sys := y } := by
  unfold State.fillTlb
  split
  · exact ⟨_, rfl⟩
  · split <;> exact ⟨_, rfl⟩

/-- One page of a walk that ends. -/
def State.endPage (w : Walk) (s : State) (p : Nat × Nat) : State :=
  let s := s.fillTlb w.die p.1 (p.2 * 2 ^ 16)
  match s.tlbFor w.die p.1 (p.2 * 2 ^ 16) with
  | some e => s.giveEntry w.who e
  | none => s

/-- A page that ends goes into the TLB, and to those who wait for it. -/
theorem State.endPage_rest (w : Walk) (s : State) (p : Nat × Nat) : ∃ x l,
    s.endPage w p = { s.fillTlb w.die p.1 (p.2 * 2 ^ 16) with
      strands := x, sys := { (s.fillTlb w.die p.1 (p.2 * 2 ^ 16)).sys with found := l } } := by
  unfold State.endPage
  dsimp only
  split
  · exact State.giveEntry_rest _ _ _
  · exact ⟨_, _, rfl⟩

theorem State.endPage_tlb (w : Walk) (s : State) (p : Nat × Nat) :
    (s.endPage w p).sys.tlb = (s.fillTlb w.die p.1 (p.2 * 2 ^ 16)).sys.tlb := by
  obtain ⟨x, l, h⟩ := s.endPage_rest w p
  rw [h]

theorem State.endPages_mem (w : Walk) (l : List (Nat × Nat)) (s : State) : (l.foldl (State.endPage w) s).mem = s.mem := by
  induction l generalizing s with
  | nil => rfl
  | cons p l ih =>
    obtain ⟨x, f, h⟩ := s.endPage_rest w p
    obtain ⟨y, hy⟩ := s.fillTlb_rest w.die p.1 (p.2 * 2 ^ 16)
    refine (ih _).trans ?_
    rw [h, hy]

/-- What is left of a walk that has ended, once its pages have. -/
theorem State.endWalk_eq (s : State) (w : Walk) : ∃ l, s.endWalk w =
    { w.pages.foldl (State.endPage w) s with sys := { (w.pages.foldl (State.endPage w) s).sys with walks := l } } :=
  ⟨_, rfl⟩

theorem State.endWalk_mem (s : State) (w : Walk) : (s.endWalk w).mem = s.mem := by
  obtain ⟨l, h⟩ := s.endWalk_eq w
  rw [h]
  exact State.endPages_mem w w.pages s

theorem leads_pageWalkComplete (s : State) (d root va : Nat) : Leads s (.pageWalkComplete d root va) (fun t => t.mem = s.mem ∧
    ∀ pte, (∀ w ∈ s.sys.walks, w.failed = false → w.isFor d root (va / 2 ^ 16) = false) →
      s.walkSleeps d root (va / 2 ^ 16 * 2 ^ 16) = false → s.walk root (va / 2 ^ 16 * 2 ^ 16) = some pte → pteGood pte = true →
      (t.tlbFor d root va).isSome = true) := by
  obtain ⟨w, hw⟩ : ∃ w, w = (s.sys.walks.find? (fun w => !w.failed && w.isFor d root (va / 2 ^ 16))).getD
      { die := d, pages := [(root, va / 2 ^ 16)], who := [] } := ⟨_, rfl⟩
  have h : exec (.pageWalkComplete d root va) s = happens (s.walkOver w) s (s.endWalk w) := by rw [hw]; rfl
  have hnew (hno : ∀ w ∈ s.sys.walks, w.failed = false → w.isFor d root (va / 2 ^ 16) = false) :
      w = { die := d, pages := [(root, va / 2 ^ 16)], who := [] } := by
    have hnone : s.sys.walks.find? (fun w => !w.failed && w.isFor d root (va / 2 ^ 16)) = none :=
      List.find?_eq_none.mpr fun w hw => by
        have := hno w hw
        cases hf : w.failed <;> simp_all
    rw [hw, hnone]
    rfl
  cases hover : s.walkOver w with
  | false =>
    refine .of_next (h.trans (happens_false hover)) ⟨rfl, fun pte hno hsl _ _ => ?_⟩
    have hends : s.walkOver { die := d, pages := [(root, va / 2 ^ 16)], who := [] } = true := by
      show (true && ((!s.walkSleeps d root (va / 2 ^ 16 * 2 ^ 16)) && true)) = true
      rw [hsl]
      rfl
    rw [hnew hno, hends] at hover
    cases hover
  | true =>
    refine .of_next (h.trans (happens_true hover)) ⟨s.endWalk_mem w, fun pte hno _ hwalk hgood => ?_⟩
    obtain ⟨l, he⟩ := s.endWalk_eq w
    rw [he, hnew hno, ← State.tlbFor_page]
    refine (congrArg Option.isSome (State.tlbFor_congr ?_ _ _ _)).trans (s.tlbFor_fillTlb d root _ pte hwalk hgood)
    exact State.endPage_tlb _ s _

/-! ### Moves (R120, R413) -/

theorem ofBytes_lt (l : List Byte) : ofBytes l < 256 ^ l.length := by
  induction l with
  | nil => exact Nat.one_pos
  | cons b l ih =>
    have hb : b.toNat < 256 := b.isLt
    rw [ofBytes, List.length_cons, pow_succ]
    omega

theorem State.num_lt (s : State) (l n : Nat) : s.num l n < 256 ^ n := by
  have h := ofBytes_lt ((locsFrom l n).map s.byte)
  rwa [List.length_map, length_locsFrom] at h

theorem State.num_congr (h : t.mem = s.mem) (l n : Nat) : t.num l n = s.num l n := by
  unfold State.num State.byte
  rw [h]

theorem leads_pageMigration_begin (s : State) (pte f resent : Nat) (failed : List Nat)
    (hn : s.sys.moves.find? (fun m => m.1 = pte) = none) (hc : s.canMove pte f = true) :
    Leads s (.pageMigration pte ⟨f, resent, failed⟩) (fun t =>
      t.sys.moves = s.sys.moves ++ [(pte, s.num pte 8)] ∧ t.num pte 8 = setFld (s.num pte 8) 60 2 1) := by
  have h : exec (.pageMigration pte ⟨f, resent, failed⟩) s = execPageMigration pte ⟨f, resent, failed⟩ s := rfl
  rw [execPageMigration, hn] at h
  refine .of_happens h hc ⟨?_, ?_⟩
  · obtain ⟨m, hm⟩ := State.setBytes_rest ((locsFrom pte 8).zip (toBytes 8 (setFld (s.num pte 8) 60 2 1))) s
    have hmoves : (s.setNum pte 8 (setFld (s.num pte 8) 60 2 1)).sys.moves = s.sys.moves := by rw [State.setNum, hm]
    exact congrArg (· ++ [(pte, s.num pte 8)]) hmoves
  · have hlt := s.num_lt pte 8
    refine (s.num_setNum_same pte 8 _).trans (Nat.mod_eq_of_lt ?_)
    unfold setFld fld
    omega

theorem State.cleanL1_sameLogs (s : State) (c sec : Nat) : SameLogs s (s.cleanL1 c sec) := by
  unfold State.cleanL1
  split
  · have h := s.writeHome_sameLogs ((locsFrom (sec * 64) 64).zip (toBytes 64 (Table.get (s.core c).l1 0 sec).toNat)) [sec]
      ((((s.core c).lines.find? (fun x => x.line == sec / 4)).map (·.ev)).getD 0)
    exact ⟨h.aer, h.recoverable⟩
  · exact .refl s

theorem State.flushFrame_sameLogs (s : State) (f : Nat) : SameLogs s (s.flushFrame f) := by
  refine .foldl _ (fun s e => ?_) _ s
  have h := SameLogs.foldl (fun s sec => State.cleanL1 s e.1 sec) (fun s sec => s.cleanL1_sameLogs e.1 sec)
    (e.2.l1Dirty.filter (fun sec => sec / 1024 = f)) s
  exact ⟨h.aer, h.recoverable⟩

theorem State.copyFrame_sameLogs (s : State) (src dst : Nat) : SameLogs s (s.copyFrame src dst) := by
  have huncorrected (s : State) (sec : Nat) : SameLogs s (s.uncorrected (errUnitOf (sec * 64))) := ⟨rfl, rfl⟩
  have hclear (s : State) (lo n : Nat) : SameLogs s (s.clearRange lo n) := ⟨rfl, rfl⟩
  have hsys (s : State) (y : Mem) : SameLogs s { s with sys := y } := ⟨rfl, rfl⟩
  unfold State.copyFrame
  exact ((((s.flushFrame_sameLogs src).trans (hclear _ _ _)).trans (State.setBytes_sameLogs _ _)).trans (hsys _ _)).trans
    (.foldl _ huncorrected _ _)

/-- Sectors of which each is poisoned in turn. -/
theorem State.poisonSectors_rest (l : List Nat) (f : Nat → Nat) (s : State) :
    ∃ p, l.foldl (fun s j => s.poisonSector (f j)) s = { s with sys := { s.sys with poison := p } } := by
  induction l generalizing s with
  | nil => exact ⟨_, rfl⟩
  | cons j l ih =>
    obtain ⟨p, hp⟩ := s.poisonSector_rest (f j)
    obtain ⟨p', h⟩ := ih { s with sys := { s.sys with poison := p } }
    exact ⟨p', by rw [List.foldl_cons, hp, h]⟩

theorem State.poisonSectors_poison (l : List Nat) (f : Nat → Nat) (s : State) (a : Nat) :
    a ∈ (l.foldl (fun s j => s.poisonSector (f j)) s).sys.poison ↔ a ∈ s.sys.poison ∨ ∃ j ∈ l, a = f j := by
  induction l generalizing s with
  | nil => simp
  | cons j l ih => rw [List.foldl_cons, ih, State.poisonSector_poison, or_assoc, List.exists_mem_cons_iff]

/-- A frame has been copied and its page leads to the copy, whose sectors that could not be written are poisoned. -/
def State.moved (s : State) (pte old frame : Nat) (failed : List Nat) : State :=
  (failed.filter (fun j => decide (j < 1024))).foldl (fun s j => s.poisonSector (frame * 1024 + j))
    ((s.copyFrame (fld old 16 32) frame).setNum pte 8 (setFld (setFld old 16 32 frame) 60 2 0))

theorem State.endMove_eq (s : State) (pte old frame : Nat) (failed : List Nat) : s.endMove pte old frame failed =
    ({ s.moved pte old frame failed with sys := { (s.moved pte old frame failed).sys with
      moves := (s.moved pte old frame failed).sys.moves.filter (fun m => m.1 ≠ pte) } } : State).invalidate (.entry pte) := rfl

theorem State.endMove_spec (s : State) (pte old frame : Nat) (failed : List Nat) :
    (∀ e ∈ (s.endMove pte old frame failed).sys.moves, e.1 ≠ pte) ∧
    (s.endMove pte old frame failed).num pte 8 = setFld (setFld old 16 32 frame) 60 2 0 % 2 ^ 64 ∧
    (∀ j ∈ failed, j < 1024 → frame * 1024 + j ∈ (s.endMove pte old frame failed).sys.poison) ∧
    (s.endMove pte old frame failed).cairn.recoverable = s.cairn.recoverable := by
  rw [State.endMove_eq]
  obtain ⟨p, hp⟩ := State.poisonSectors_rest (failed.filter (fun j => decide (j < 1024))) (frame * 1024 + ·)
    ((s.copyFrame (fld old 16 32) frame).setNum pte 8 (setFld (setFld old 16 32 frame) 60 2 0))
  refine ⟨fun e he => ?_, ?_, fun j hj hlt => ?_, ?_⟩
  · exact of_decide_eq_true (List.mem_filter.mp he).2
  · have hmem : (s.moved pte old frame failed).mem =
        ((s.copyFrame (fld old 16 32) frame).setNum pte 8 (setFld (setFld old 16 32 frame) 60 2 0)).mem := by
      rw [State.moved, hp]
    refine (State.num_congr ?_ pte 8).trans ((State.num_congr hmem pte 8).trans ?_)
    · rfl
    · rw [State.num_setNum_same, show 256 ^ 8 = 2 ^ 64 by norm_num]
  · exact (State.poisonSectors_poison _ _ _ _).mpr (.inr ⟨j, List.mem_filter.mpr ⟨hj, decide_eq_true hlt⟩, rfl⟩)
  · have hrec : (s.moved pte old frame failed).cairn.recoverable = s.cairn.recoverable := by
      rw [State.moved, hp]
      exact ((s.copyFrame_sameLogs (fld old 16 32) frame).trans (State.setNum_sameLogs _ _ _ _)).recoverable
    exact hrec

theorem State.repeat_recoverable (n : Nat) (s : State) :
    n.repeat State.recoverable s = { s with cairn := { s.cairn with recoverable := s.cairn.recoverable + n } } := by
  induction n with
  | zero => rfl
  | succ n ih => rw [Nat.repeat, ih]; rfl

theorem leads_pageMigration_end (s : State) (pte f : Nat) (m : Nat × Nat) (resent : Nat) (failed : List Nat)
    (hm : s.sys.moves.find? (fun m => m.1 = pte) = some m) (hr : s.moveReady pte m.2 = true) (hf : s.movable f = true)
    (hs : s.sleeping (f * 2 ^ 16) = false) : Leads s (.pageMigration pte ⟨f, resent, failed⟩) (fun t =>
      (∀ e ∈ t.sys.moves, e.1 ≠ pte) ∧ t.num pte 8 = setFld (setFld m.2 16 32 f) 60 2 0 % 2 ^ 64 ∧
      (∀ j ∈ failed, j < 1024 → f * 1024 + j ∈ t.sys.poison) ∧ t.cairn.recoverable = s.cairn.recoverable + resent) := by
  have h : exec (.pageMigration pte ⟨f, resent, failed⟩) s = execPageMigration pte ⟨f, resent, failed⟩ s := rfl
  rw [execPageMigration, hm] at h
  refine .of_happens h (by dsimp only; rw [hr, hf, hs]; rfl) ?_
  obtain ⟨hmoves, hnum, hpoison, hrec⟩ := s.endMove_spec pte m.2 f failed
  rw [State.repeat_recoverable]
  exact ⟨hmoves, hnum, hpoison, congrArg (· + resent) hrec⟩

end
end Sys2Proof.Machine

/-! ## Resets (R368) -/

namespace Sys2Proof.Machine
section

variable {s t u : State}

theorem Table.find_filter {α : Type} (p : Nat → Bool) (t : Table α) (i : Nat) :
    Table.find (t.filter (fun e => p e.1)) i = if p i then Table.find t i else none := by
  induction t with
  | nil => exact (ite_self _).symm
  | cons e t ih =>
    rw [List.filter_cons]
    by_cases hi : e.1 = i
    · subst hi
      cases hp : p e.1 with
      | true => rw [if_pos rfl, if_pos rfl, Table.find, Table.find, if_pos rfl, if_pos rfl]
      | false => rw [if_neg Bool.false_ne_true, ih, hp]; rfl
    · have hskip : Table.find (e :: t) i = Table.find t i := if_neg hi
      rw [hskip, ← ih]
      split
      · exact if_neg hi
      · rfl

/-- Memory of which the locations with `p` are kept. -/
theorem State.byte_of_filter {p : Nat → Bool} (h : t.mem = s.mem.filter (fun c => p c.1)) (a : Nat) :
    t.byte a = if p a then s.byte a else 0 := by
  unfold State.byte Table.get
  rw [h, Table.find_filter]
  split <;> rfl

/-- Cores with no Dirty sector have nothing to write back. -/
theorem State.cleanCores_of_clean (s : State) (hd : ∀ c, (s.core c).l1Dirty = []) (l : List (Nat × Core)) :
    l.foldl (fun s c => s.cleanCore c.1) s = s := by
  induction l with
  | nil => rfl
  | cons c l ih =>
    have hc : s.cleanCore c.1 = s := by rw [State.cleanCore, hd]; rfl
    rw [List.foldl_cons, hc, ih]

/-- The belay records that are lost are those of the group slots. -/
theorem State.loseRecords_byte (s : State) (a : Nat) (h : ∀ g ∈ s.groups, g.2.recb = 0 ∨ a < g.2.recb ∨ g.2.recb + 64 ≤ a) :
    s.loseRecords.byte a = s.byte a := by
  have hfold (l : List (Nat × Group)) (hl : ∀ g ∈ l, g.2.recb = 0 ∨ a < g.2.recb ∨ g.2.recb + 64 ≤ a) (u : State) :
      (l.foldl (fun s g => if g.2.recb = 0 then s
        else s.setBytes ((locsFrom g.2.recb 64).map (fun l => (l, Config.freeByte s.freeCount l)))) u).byte a = u.byte a := by
    induction l generalizing u with
    | nil => rfl
    | cons g l ih =>
      refine (ih (fun g hg => hl g (List.mem_cons_of_mem _ hg)) _).trans ?_
      dsimp only
      split
      · rfl
      · rename_i hne
        refine State.byte_setBytes_other _ u a fun d hd he => ?_
        obtain ⟨l, hl', rfl⟩ := List.mem_map.mp hd
        have hrange := (mem_locsFrom _ _ _).mp hl'
        have hout := hl g List.mem_cons_self
        dsimp only at he
        omega
  exact hfold s.groups h s

theorem keptByReset_of_memory {a : Nat} (h : isHbm a = true ∨ isTier a = true) : keptByReset a = true := by
  unfold keptByReset
  rcases h with h | h <;> simp [h]

theorem keptByReset_of_high {l : Nat} (h1 : 2 ^ 48 ≤ l) (h2 : l < 2 ^ 64) : keptByReset l = false := by
  simp only [keptByReset, isHbm, isTier, isStaging, Bool.or_eq_false_iff, Bool.and_eq_false_iff, decide_eq_false_iff_not]
  omega

theorem keptByReset_spmLoc {c o : Nat} (hc : c < 256) (ho : o < 2 ^ 23) : keptByReset (spmLoc c o) = false := by
  refine keptByReset_of_high ?_ ?_ <;>
  · unfold spmLoc
    omega

theorem State.hotReset_byte_kept (s : State) (hd : ∀ c, (s.core c).l1Dirty = []) (a : Nat) (ha : isHbm a = true ∨ isTier a = true)
    (hg : ∀ g ∈ s.groups, g.2.recb = 0 ∨ a < g.2.recb ∨ g.2.recb + 64 ≤ a) : s.hotReset.byte a = s.byte a := by
  have hmem : s.hotReset.mem = s.loseRecords.mem.filter (fun c => keptByReset c.1) := by
    unfold State.hotReset
    rw [s.cleanCores_of_clean hd]
  rw [State.byte_of_filter hmem, keptByReset_of_memory ha, if_pos rfl, s.loseRecords_byte a hg]

theorem State.hotReset_byte_spm (s : State) (c o : Nat) (hc : c < 256) (ho : o < 2 ^ 23) : s.hotReset.byte (spmLoc c o) = 0 := by
  have hmem : s.hotReset.mem =
      ((s.cores.foldl (fun s c => s.cleanCore c.1) s).loseRecords.mem).filter (fun c => keptByReset c.1) := rfl
  rw [State.byte_of_filter hmem, keptByReset_spmLoc hc ho]
  rfl

/-- What a clean-up before a hot reset leaves of the platform. -/
theorem State.cleanCores_plat (s : State) : (s.cores.foldl (fun s c => s.cleanCore c.1) s).plat = s.plat :=
  (Clocked.foldl _ (fun s c => (s.cleanCore_stored c.1).clocked) s.cores s).plat

theorem leads_reset (s : State) (i : Instr) (hi : i = .pcieLinkDown ∨ i = .fundamentalReset) : Leads s i (fun t =>
    t.cyc = 0 ∧ t.strands = [] ∧
    ((∀ c, (s.core c).l1Dirty = []) → ∀ a, isHbm a = true ∨ isTier a = true →
      (∀ g ∈ s.groups, g.2.recb = 0 ∨ a < g.2.recb ∨ g.2.recb + 64 ≤ a) → t.byte a = s.byte a) ∧
    (s.plat.crit = true → t.plat.stopped = true) ∧
    ∀ c o, c < 256 → o < 2 ^ 23 → t.byte (spmLoc c o) = 0) := by
  have hstop (hc : s.plat.crit = true) : s.hotReset.plat.stopped = true := (congrArg Platform.crit s.cleanCores_plat).trans hc
  rcases hi with rfl | rfl
  · exact .of_next (t := s.hotReset.aer 2 5) rfl
      ⟨rfl, rfl, s.hotReset_byte_kept, hstop, s.hotReset_byte_spm⟩
  · exact .of_next (t := s.hotReset) rfl ⟨rfl, rfl, s.hotReset_byte_kept, hstop, s.hotReset_byte_spm⟩

theorem leads_coldReset (s : State) : Leads s .coldReset (fun t =>
    t.cyc = 0 ∧ t.strands = [] ∧ ∀ a, a < 2 ^ 64 → t.byte a = 0) := by
  refine .of_next (t := s.coldReset) rfl ⟨rfl, rfl, fun a ha => ?_⟩
  have hmem : s.coldReset.mem = s.mem.filter (fun c => decide (2 ^ 64 ≤ c.1)) := rfl
  rw [State.byte_of_filter (p := fun a => decide (2 ^ 64 ≤ a)) hmem, if_neg]
  simpa using ha

theorem leads_functionLevelReset (s : State) : Leads s .functionLevelReset (fun t =>
    t.slots = [] ∧ t.queues = [] ∧ t.host.evseq = 0 ∧ t.host.evsize = 0 ∧ t.cyc = s.cyc) := by
  refine .of_next (t := s.functionReset) rfl ⟨rfl, rfl, rfl, rfl, ?_⟩
  have hfold (kind : Nat) (l : List Nat) (u : State) : Clocked u (l.foldl (fun s h => s.killSlot h kind 2 0x45 0) u) :=
    .foldl _ (fun s h => s.killSlot_clocked h kind 2 0x45 0) l u
  unfold State.functionReset
  dsimp only
  generalize (Config.freeEvent s.freeCount).toNat % 2 ^ 16 = kind
  rw [(hfold kind (List.range 64) _).cyc]

end
end Sys2Proof.Machine

open Sys2Proof Sys2Proof.Machine in
/-- Settles O60: each step of the platform and of the host's port does what its lemma says. -/
theorem platformSteps : Obligations.PlatformSteps :=
  ⟨leads_heartbeatCheck, leads_powerCompare, leads_zoneWarn, leads_zoneCrit, leads_selfRefreshExit, leads_bankRefresh,
    leads_scrubIssue, leads_pageMigration_begin, leads_pageMigration_end, leads_tlbInvalidation, leads_pageWalkComplete,
    leads_atsCompletion, leads_atsRetry, leads_priResponse, leads_priTimeout, leads_atsInvalidation, leads_bar2Write,
    leads_bar2Read, leads_pcieCorrectableError, leads_pciePoisonedTlp, leads_pcieCompletionError, leads_unexpectedCompletion,
    leads_pcieFatalError, leads_reset, leads_coldReset, leads_functionLevelReset, leads_bootTrainingDone, leads_bootctlGo,
    leads_bootVerify, leads_doeDiscovery, leads_spdm_busy, leads_spdm, leads_zoneBelowWarn⟩

/-! ## Writes of registers, and the watch over queues (R9, R98, R115, R303, R311 to R314, R318, R321, R322, R384, R458) -/

namespace Sys2Proof.Machine
section

variable {s t u : State}

/-! ### Fields of a write (R9, R321) -/

/-- A write of 64 bits takes its register's whole value over. -/
theorem mix_whole {old v : Nat} (ho : old < 2 ^ 64) (hv : v < 2 ^ 64) : mix old v (2 ^ 64 - 1) = v := by
  unfold mix
  rw [Nat.and_two_pow_sub_one_eq_mod, Nat.and_two_pow_sub_one_eq_mod]
  omega

theorem hostWrite_whole (s : State) (off v : Nat) (ho : off % 8 = 0) (hv : v < 2 ^ 64) :
    s.hostWrite off 64 v = s.regWrite off v (2 ^ 64 - 1) := by
  have hmask : writeMask off 64 = some (2 ^ 64 - 1) := by rw [writeMask, if_pos ⟨rfl, ho⟩]
  have hoff : off / 8 * 8 = off := by omega
  have hval : v % 2 ^ 64 * 2 ^ (8 * (off % 8)) = v := by rw [ho, Nat.mod_eq_of_lt hv, Nat.mul_zero, pow_zero, Nat.mul_one]
  unfold State.hostWrite
  rw [hmask, hoff, hval]

/-- A write at an offset below the queue table (R321). -/
theorem regWrite_front (s : State) (off v m : Nat) (hb : s.bootHeld = false) (h : off < 0x1000000) :
    s.regWrite off v m = s.writeFront off v m := by
  unfold State.regWrite
  rw [hb, if_neg (fun h => Bool.false_ne_true h.1), if_pos h]

/-! ### What the scheduling of queues changes (R307, R312, R314) -/

/-- A control block differs at most in what the scheduling of queues changes: whether it is pending, since when and with which
priority, the launches that wait and a frozen gang. -/
def Queue.Scheduled (x y : Queue) : Prop :=
  ∃ p e w a f, y = { x with pend := p, eprio := e, wstart := w, accepted := a, frozen := f }

theorem Queue.Scheduled.refl (x : Queue) : x.Scheduled x := ⟨_, _, _, _, _, rfl⟩

theorem Queue.Scheduled.trans {x y z : Queue} (h : x.Scheduled y) (k : y.Scheduled z) : x.Scheduled z := by
  obtain ⟨_, _, _, _, _, rfl⟩ := h
  obtain ⟨_, _, _, _, _, rfl⟩ := k
  exact ⟨_, _, _, _, _, rfl⟩

/-- The second state differs from the first in slots, ropes, decisions that are due, and the scheduling of queues. -/
structure Schedules (s t : State) : Prop where
  rest : ∃ l q r n, t = { s with slots := l, queues := q, ropes := r, mapDue := n }
  queues : ∀ q, (s.queue q).Scheduled (t.queue q)

theorem Schedules.refl (s : State) : Schedules s s := ⟨⟨_, _, _, _, rfl⟩, fun _ => .refl _⟩

theorem Schedules.trans (h : Schedules s t) (k : Schedules t u) : Schedules s u := by
  refine ⟨?_, fun q => (h.queues q).trans (k.queues q)⟩
  obtain ⟨_, _, _, _, rfl⟩ := h.rest
  obtain ⟨_, _, _, _, rfl⟩ := k.rest
  exact ⟨_, _, _, _, rfl⟩

theorem Schedules.foldl {α : Type} (f : State → α → State) (h : ∀ s a, Schedules s (f s a)) (l : List α) (s : State) :
    Schedules s (l.foldl f s) := by
  induction l generalizing s with
  | nil => exact .refl s
  | cons a l ih => exact (h s a).trans (ih _)

theorem Schedules.of_queues (h : ∃ l r n, t = { s with slots := l, ropes := r, mapDue := n }) : Schedules s t := by
  obtain ⟨_, _, _, rfl⟩ := h
  exact ⟨⟨_, _, _, _, rfl⟩, fun _ => .refl _⟩

theorem State.onQueue_schedules (s : State) (q : Nat) (f : Queue → Queue) (hf : (s.queue q).Scheduled (f (s.queue q))) :
    Schedules s (s.onQueue q f) := by
  refine ⟨⟨_, _, _, _, rfl⟩, fun r => ?_⟩
  by_cases hr : r = q
  · subst hr
    rw [State.onQueue_queue]
    exact hf
  · rw [State.onQueue_queue_other s q r f hr]
    exact .refl _

theorem State.pend_schedules (s : State) (q : Nat) : Schedules s (s.pend q) := by
  unfold State.pend
  dsimp only
  split
  · exact .refl s
  split
  · refine Schedules.trans (s.onQueue_schedules q _ ?_) (.of_queues ⟨_, _, _, rfl⟩)
    exact ⟨_, _, _, _, _, rfl⟩
  · exact .refl s

/-- The slot's queue goes on with its head accepted launch, or waits. -/
theorem State.dispatch_cases (s : State) (h : Nat) : s.dispatch h = s ∨ ∃ q l a, (s.slot h).queue = some q ∧
    s.dispatch h = (s.onQueue q (fun c => { c with accepted := a })).onSlot h (fun x => { x with gang := some { launch := l } }) := by
  unfold State.dispatch
  cases hq : (s.slot h).queue with
  | none => exact .inl rfl
  | some q =>
    dsimp only
    split
    · split
      · exact .inl rfl
      · exact .inr ⟨q, _, _, rfl, rfl⟩
    · exact .inl rfl

theorem State.dispatch_schedules (s : State) (h : Nat) : Schedules s (s.dispatch h) := by
  rcases s.dispatch_cases h with he | ⟨q, l, a, -, he⟩
  · rw [he]
    exact .refl s
  · rw [he]
    refine Schedules.trans (s.onQueue_schedules q _ ?_) (.of_queues ⟨_, _, _, rfl⟩)
    exact ⟨_, _, _, _, _, rfl⟩

theorem State.freeRopes_schedules (s : State) (h : Nat) (l : List Nat) : Schedules s (s.freeRopes h l) := by
  refine .foldl _ (fun s r => ?_) l s
  split
  · exact .of_queues ⟨_, _, _, rfl⟩
  · exact .refl s

theorem State.unmap_schedules (s : State) (h : Nat) : Schedules s (s.unmap h) := by
  unfold State.unmap
  split
  · exact .refl s
  · rename_i q _
    have hslot (s : State) (x : Slot) : Schedules s (s.setSlot h x) := .of_queues ⟨_, _, _, rfl⟩
    refine Schedules.trans ?_ (State.pend_schedules _ q)
    refine Schedules.trans ?_ (hslot _ _)
    split
    · exact .refl s
    · rename_i g _
      refine (s.freeRopes_schedules h g.ropes).trans ?_
      dsimp only
      split
      · exact State.onQueue_schedules _ q _ ⟨_, _, _, _, _, rfl⟩
      · exact State.onQueue_schedules _ q _ ⟨_, _, _, _, _, rfl⟩

theorem Schedules.qtail (h : Schedules s t) (q : Nat) : (t.queue q).qtail = (s.queue q).qtail := by
  obtain ⟨_, _, _, _, _, he⟩ := h.queues q
  rw [he]

theorem Schedules.froz (h : Schedules s t) (q : Nat) : (t.queue q).froz = (s.queue q).froz := by
  obtain ⟨_, _, _, _, _, he⟩ := h.queues q
  rw [he]

theorem Schedules.lacc (h : Schedules s t) (q : Nat) : (t.queue q).lacc = (s.queue q).lacc := by
  obtain ⟨_, _, _, _, _, he⟩ := h.queues q
  rw [he]

theorem Schedules.qhead (h : Schedules s t) (q : Nat) : (t.queue q).qhead = (s.queue q).qhead := by
  obtain ⟨_, _, _, _, _, he⟩ := h.queues q
  rw [he]

theorem Schedules.ldone (h : Schedules s t) (q : Nat) : (t.queue q).ldone = (s.queue q).ldone := by
  obtain ⟨_, _, _, _, _, he⟩ := h.queues q
  rw [he]

theorem State.freeRopes_slots (s : State) (h : Nat) (l : List Nat) : (s.freeRopes h l).slots = s.slots := by
  unfold State.freeRopes
  induction l generalizing s with
  | nil => rfl
  | cons r l ih =>
    refine (ih _).trans ?_
    dsimp only
    split
    · rfl
    · rfl

/-! ### Kicks (R303, R312) -/

theorem State.stopQueue_queue (s : State) (q : Nat) : (s.stopQueue q).queue q = { s.queue q with err := true } := by
  unfold State.stopQueue
  obtain ⟨_, _, _, _, _, _, _, _, _, h⟩ := State.postEvent_beside
    ((({ s with freeCount := s.freeCount + 1 } : State).onQueue q (fun c => { c with err := true })).raiseBit (64 + q)) 3 q
    (Config.freeEvent s.freeCount).toNat
  exact (congrArg (fun t : State => t.queue q) h).trans
    (State.onQueue_queue ({ s with freeCount := s.freeCount + 1 } : State) q (fun c => { c with err := true }))

theorem State.kick_qtail (s : State) (q tail : Nat) (he : (s.queue q).en = true) : ((s.kick q tail).queue q).qtail = tail := by
  have hset : ((s.onQueue q (fun c => { c with qtail := tail })).queue q).qtail = tail :=
    congrArg Queue.qtail (State.onQueue_queue s q _)
  have hpend (u : State) (b : Bool) (hu : (u.queue q).qtail = tail) : ((if b then u else u.pend q).queue q).qtail = tail := by
    split
    · exact hu
    · rw [(u.pend_schedules q).qtail, hu]
  unfold State.kick
  dsimp only
  rw [he, Bool.not_true, if_neg Bool.false_ne_true]
  generalize s.onQueue q (fun c => { c with qtail := tail }) = u at hset
  refine hpend _ _ ?_
  split
  · split
    · exact hset
    · rw [State.stopQueue_queue]
      exact hset
  · exact hset

theorem leads_kick (s : State) (q tail : Nat) (hb : s.bootHeld = false) (hq : q < 4096) (ht : tail < 2 ^ 32)
    (he : (s.queue q).en = true) : Leads s (.kick q tail) (fun t => (t.queue q).qtail = tail) := by
  refine .of_next (t := s.hostWrite (8 * q) 64 tail) rfl ?_
  have hfront : s.hostWrite (8 * q) 64 tail = s.kick q tail := by
    rw [hostWrite_whole s _ _ (by omega) (by omega), regWrite_front s _ _ _ hb (by omega), State.writeFront, if_pos (by omega),
      if_pos (by norm_num), Nat.mod_eq_of_lt ht, Nat.mul_div_cancel_left q (by norm_num)]
  rw [hfront]
  exact s.kick_qtail q tail he

/-! ### Other registers (R9, R309, R311, R321, R322, R384, R458) -/

theorem leads_queueRecordWrite (s : State) (q v : Nat) (hb : s.bootHeld = false) (hq : q < 4096) (hv : v < 2 ^ 64)
    (hm : s.mapped q = false) (hf : (s.queue q).froz = false) (ho : (s.queue q).qbase < 2 ^ 64) :
    Leads s (.queueRecordWrite q 0 64 v) (fun t => (t.queue q).qbase = v) := by
  refine .of_next (t := s.hostWrite (0x1000000 + 256 * q + 0) 64 v) rfl ?_
  have hword : s.hostWrite (0x1000000 + 256 * q + 0) 64 v = s.writeQueueWord q 0 v (2 ^ 64 - 1) := by
    rw [hostWrite_whole s _ _ (by omega) hv, State.regWrite, hb, if_neg (fun h => Bool.false_ne_true h.1), if_neg (by omega),
      if_pos (by omega)]
    congr 1 <;> omega
  rw [hword, State.writeQueueWord, hm, hf]
  have hset := (congrArg Queue.qbase (State.onQueue_queue s q (fun c => { c with qbase := mix c.qbase v (2 ^ 64 - 1) })) :)
  exact hset.trans (mix_whole ho hv)

theorem leads_qctlErrClear (s : State) (q : Nat) (hb : s.bootHeld = false) : Leads s (.qctlErrClear q) (fun t =>
    (t.queue q).err = ((s.queue q).err && s.raised.contains (64 + q))) := by
  refine .of_happens (t := s.clearErr q) rfl (by rw [hb]; rfl) ?_
  refine (congrArg Queue.err (State.onQueue_queue s q _) :).trans ?_
  rw [State.clears, Bool.not_not]

theorem leads_evackWrite (s : State) (v : Nat) (hb : s.bootHeld = false) (hv : v < 2 ^ 64) (ho : s.host.evack < 2 ^ 64) :
    Leads s (.evackWrite v) (fun t => t.host.evack = v) := by
  refine .of_next (t := s.hostWrite 0x20018 64 v) rfl ?_
  rw [hostWrite_whole s _ _ (by norm_num) hv, regWrite_front s _ _ _ hb (by norm_num)]
  exact mix_whole ho hv

theorem leads_eventRingConfigWrite (s : State) (v : Nat) (hb : s.bootHeld = false) (hv : v < 2 ^ 64) (ho : s.host.evbase < 2 ^ 64) :
    Leads s (.eventRingConfigWrite false v) (fun t => t.host.evbase = if s.host.evseq = s.host.evack then v else s.host.evbase) := by
  refine .of_next (t := s.hostWrite 0x20000 64 v) rfl ?_
  have hring : s.hostWrite 0x20000 64 v = s.writeRing false v (2 ^ 64 - 1) := by
    rw [hostWrite_whole s _ _ (by norm_num) hv, regWrite_front s _ _ _ hb (by norm_num)]
    rfl
  rw [hring, State.writeRing]
  by_cases he : s.host.evseq = s.host.evack
  · rw [if_neg (not_not_intro he), if_neg Bool.false_ne_true, if_pos he]
    exact mix_whole ho hv
  · rw [if_pos he, if_neg he]

/-- A write of 64 bits gives a field at bit 0 the low bits of its value. -/
theorem newFld_low (old n v : Nat) (hn : n ≤ 64) : newFld old 0 n v (2 ^ 64 - 1) = v % 2 ^ n := by
  have hbits : (2 ^ 64 - 1) &&& bits 0 n = 2 ^ n - 1 := by
    have hle : 2 ^ n ≤ 2 ^ 64 := Nat.pow_le_pow_right (by norm_num) hn
    have hpos : 0 < 2 ^ n := Nat.two_pow_pos n
    rw [bits, pow_zero, Nat.mul_one, Nat.and_comm, Nat.and_two_pow_sub_one_eq_mod, Nat.mod_eq_of_lt (by omega)]
  have hold := Nat.div_add_mod old (2 ^ n)
  have hkeep : old - old % 2 ^ n = 2 ^ n * (old / 2 ^ n) := by omega
  rw [newFld, hbits, fld, mix, pow_zero, Nat.mul_one, Nat.div_one, Nat.and_two_pow_sub_one_eq_mod,
    Nat.and_two_pow_sub_one_eq_mod, hkeep, Nat.mul_add_mod, Nat.mod_mod]

theorem leads_flogsizeWrite (s : State) (v : Nat) (hb : s.bootHeld = false) (hv : v = 0 ∨ v = 2 ^ 16) :
    Leads s (.flogsizeWrite v) (fun t => t.host.flogSize = v) := by
  refine .of_next (t := s.hostWrite 0x2000408 64 v) rfl ?_
  have hsize : s.hostWrite 0x2000408 64 v = s.writeFlogSize v (2 ^ 64 - 1) := by
    rw [hostWrite_whole s _ _ (by norm_num) (by omega), State.regWrite, hb, if_neg (fun h => Bool.false_ne_true h.1)]
    rfl
  have hvalid : ringSize 16 v = true := by rcases hv with rfl | rfl <;> decide
  rw [hsize, State.writeFlogSize, newFld_low _ _ _ (by norm_num), Nat.mod_eq_of_lt (by omega), if_pos hvalid]

theorem leads_registerWrite (s : State) (off w v : Nat) : Leads s (.registerWrite off w v) (fun t => t = s.hostWrite off w v ∧
    (w ≠ 32 → w ≠ 64 → t = s) ∧ (off % 4 ≠ 0 → t = s)) := by
  have hdrop (h : writeMask off w = none) : s.hostWrite off w v = s := by rw [State.hostWrite, h]
  refine .of_next (t := s.hostWrite off w v) rfl ⟨rfl, fun h1 h2 => hdrop ?_, fun h => hdrop ?_⟩
  · rw [writeMask, if_neg (fun h => h2 h.1), if_neg (fun h => h1 h.1)]
  · rw [writeMask, if_neg (fun h' => by omega), if_neg (fun h' => by omega)]

theorem leads_regionRegistered (s : State) (k : Nat) (h : s.registersNext k = true) :
    Leads s (.regionRegistered k) (fun t => (t.strand k).registering = some true) :=
  .of_happens rfl h (congrArg Strand.registering (State.onStrand_strand _ _ _))

theorem leads_stagingSplitWrite (s : State) (d i m : Nat) (hi : i < 16) (hm : m ≤ 4) (hg : s.gangOn d = false) :
    Leads s (.stagingSplitWrite d i m) (fun t => Table.get t.sys.staging 0 (16 * d + i) = m ∧
      ∀ o, m * 2 ^ 20 ≤ o → o < 2 ^ 22 → t.byte (2 ^ 41 + (16 * d + i) * 2 ^ 22 + o) = 0) := by
  have hdie : (16 * d + i) / 16 = d := by omega
  have hset : s.writeSplit (16 * d + i) m = s.setStaging (16 * d + i) m := by
    rw [State.writeSplit, hdie, hg, if_pos ⟨hm, rfl⟩]
  refine .of_next (t := s.setStaging (16 * d + i) m) (congrArg Host.Outcome.next hset)
    ⟨Table.get_set_same _ _ _ _, fun o h1 h2 => ?_⟩
  have hmem : (s.setStaging (16 * d + i) m).mem = s.mem.filter (fun c =>
      !(decide (2 ^ 41 + (16 * d + i) * 2 ^ 22 + m * 2 ^ 20 ≤ c.1) &&
        decide (c.1 < 2 ^ 41 + (16 * d + i) * 2 ^ 22 + m * 2 ^ 20 + (4 - m) * 2 ^ 20))) := rfl
  rw [State.byte_of_filter (p := fun a => !(decide (2 ^ 41 + (16 * d + i) * 2 ^ 22 + m * 2 ^ 20 ≤ a) &&
    decide (a < 2 ^ 41 + (16 * d + i) * 2 ^ 22 + m * 2 ^ 20 + (4 - m) * 2 ^ 20))) hmem, decide_eq_true (by omega),
    decide_eq_true (by omega)]
  rfl

theorem leads_exportSpaceDesignation (s : State) (on : Bool) (root : Nat) : Leads s (.exportSpaceDesignation on root) (fun t =>
    t.fab.spaceRoot = (if on then some root else none) ∧ t.mem = s.mem) :=
  .of_next rfl ⟨rfl, rfl⟩

/-! ### Ageing, mapping and the watchdog (R313, R314, R318) -/

theorem State.aged_spec (s : State) : s.aged.queues = s.queues ∧
    s.aged.mapDue = if s.agedAt = some s.cycle then s.mapDue else s.mapDue + 1 := by
  unfold State.aged
  split
  · exact ⟨rfl, rfl⟩
  · exact ⟨rfl, rfl⟩

theorem leads_eprioAgeing (s : State) (q : Nat) (hp : (s.queue q).pend = true) (he : (s.queue q).eprio < s.eprioNow q) :
    Leads s (.eprioAgeing q) (fun t =>
      (t.queue q).eprio = s.eprioNow q ∧ t.mapDue = if s.agedAt = some s.cycle then s.mapDue else s.mapDue + 1) := by
  refine .of_happens (t := (s.onQueue q (fun c => { c with eprio := s.eprioNow q })).aged) rfl
    (by rw [hp, decide_eq_true he]; rfl) ?_
  obtain ⟨hq, hd⟩ := (s.onQueue q (fun c => { c with eprio := s.eprioNow q })).aged_spec
  refine ⟨?_, hd⟩
  unfold State.queue
  rw [hq]
  exact congrArg Queue.eprio (State.onQueue_queue s q _)

/-- A queue that takes a slot is not pending any more (R314). -/
theorem State.mapTo_spec (s : State) (h q : Nat) : ((s.mapTo h q).slot h).queue = some q ∧
    ((s.mapTo h q).queue q).pend = false ∧ (s.mapTo h q).mapDue = s.mapDue := by
  obtain ⟨u, hu⟩ : ∃ u : State, s.mapTo h q = u.dispatch h ∧ (u.slot h).queue = some q ∧ (u.queue q).pend = false ∧
      u.mapDue = s.mapDue :=
    ⟨_, rfl, by rw [State.setSlot_slot], by rw [State.setSlot_queue, State.onQueue_queue], rfl⟩
  obtain ⟨he, hq, hp, hd⟩ := hu
  rw [he]
  rcases u.dispatch_cases h with hc | ⟨q', l, a, hq', hc⟩
  · rw [hc]
    exact ⟨hq, hp, hd⟩
  · obtain rfl : q = q' := Option.some.inj (hq.symm.trans hq')
    rw [hc]
    exact ⟨by rw [State.onSlot_slot]; exact hq, by rw [State.onSlot_queue, State.onQueue_queue]; exact hp, hd⟩

theorem State.onGang_slot (s : State) (h : Nat) (f : Gang → Gang) :
    (s.onGang h f).slot h = { s.slot h with gang := (s.slot h).gang.map f } := State.onSlot_slot _ _ _

/-- Gangs that go on after a decision keep the slots' queues. -/
theorem State.resumeYielded_spec (s : State) (h : Nat) : (s.resumeYielded.slot h).queue = (s.slot h).queue ∧
    s.resumeYielded.queues = s.queues ∧ s.resumeYielded.mapDue = s.mapDue := by
  unfold State.resumeYielded
  induction s.mappedSlots.filter (fun e => !(s.slot e.1).evicting) generalizing s with
  | nil => exact ⟨rfl, rfl, rfl⟩
  | cons e l ih =>
    rw [List.foldl_cons]
    obtain ⟨h1, h2, h3⟩ := ih (s.onGang e.1 (fun g => if g.phase = .saved then { g with phase := .loading } else g))
    refine ⟨h1.trans ?_, h2, h3⟩
    by_cases he : h = e.1
    · subst he
      rw [State.onGang_slot]
    · exact congrArg Slot.queue (State.onSlot_slot_other _ _ _ _ he)

/-- The order of the pending queues does not turn on how many decisions are due. -/
theorem State.bestPending_setDue (s : State) (n : Nat) : ({ s with mapDue := n } : State).bestPending = s.bestPending := by
  have hrank (q : Nat) (l : List Nat) : ({ s with mapDue := n } : State).rank q l = s.rank q l := by
    induction l with
    | nil => rfl
    | cons a l ih => rw [State.rank, State.rank, ih]; rfl
  unfold State.bestPending State.pendingQueues
  simp only [hrank]

theorem leads_mappingDecision (s : State) (q h : Nat) (hd : 0 < s.mapDue) (hf : s.firmwareRuns = true)
    (hb : s.bestPending = some q) (hh : (List.range 64).find? (fun i => (s.slot i).queue.isNone) = some h) :
    Leads s .mappingDecision (fun t => (t.slot h).queue = some q ∧ (t.queue q).pend = false ∧ t.mapDue = s.mapDue - 1) := by
  refine .of_happens (t := s.mapQueues) rfl (by rw [decide_eq_true hd, hf]; rfl) ?_
  have hmap : s.mapQueues = (({ s with mapDue := s.mapDue - 1 } : State).mapTo h q).resumeYielded := by
    have hbest : ({ s with mapDue := s.mapDue - 1 } : State).bestPending = some q := (s.bestPending_setDue _).trans hb
    have hfind : (List.range 64).find? (fun i => (({ s with mapDue := s.mapDue - 1 } : State).slot i).queue.isNone) = some h := hh
    rw [State.mapQueues, hbest, Option.bind_some, State.mapBest, hfind]
    rfl
  obtain ⟨hq, hp, hm⟩ := ({ s with mapDue := s.mapDue - 1 } : State).mapTo_spec h q
  obtain ⟨h1, h2, h3⟩ := (({ s with mapDue := s.mapDue - 1 } : State).mapTo h q).resumeYielded_spec h
  rw [hmap]
  refine ⟨h1.trans hq, ?_, h3.trans hm⟩
  unfold State.queue at hp ⊢
  rw [h2]
  exact hp

theorem State.watch_spec (s : State) (h q : Nat) : ((s.watch h q).queue q).plast = (s.queue q).prog ∧
    ((s.queue q).prog = (s.queue q).plast → s.sys.selfRefresh = [] → ((s.watch h q).slot h).evicting = true) ∧
    ((s.queue q).prog ≠ (s.queue q).plast → ((s.watch h q).slot h).evicting = (s.slot h).evicting) := by
  have hset : ((s.onQueue q (fun c => { c with plast := c.prog })).queue q).plast = (s.queue q).prog :=
    congrArg Queue.plast (State.onQueue_queue s q _)
  unfold State.watch
  dsimp only
  split
  · rename_i hc
    exact ⟨hset, fun _ _ => congrArg Slot.evicting (State.onSlot_slot _ _ _), fun hne => absurd hc.1 hne⟩
  · rename_i hc
    exact ⟨hset, fun h1 h2 => absurd ⟨h1, h2⟩ hc, fun _ => by rw [State.onGang_slot]; rfl⟩

theorem leads_watchdogCheck (s : State) (h q : Nat) (g : Gang) (hq : (s.slot h).queue = some q) (hg : s.gangAt h = some g)
    (hw : s.watchDue q g = true) : Leads s (.watchdogCheck h) (fun t => (t.queue q).plast = (s.queue q).prog ∧
      ((s.queue q).prog = (s.queue q).plast → s.sys.selfRefresh = [] → (t.slot h).evicting = true) ∧
      ((s.queue q).prog ≠ (s.queue q).plast → (t.slot h).evicting = (s.slot h).evicting)) := by
  have he : exec (.watchdogCheck h) s = execWatchdogCheck h s := rfl
  rw [execWatchdogCheck, hq, hg] at he
  exact .of_happens he hw (s.watch_spec h q)

end
end Sys2Proof.Machine

/-! ## Placement and loading (R45, R51, R316, R317) -/

namespace Sys2Proof.Machine
section

variable {s t u : State} {h q r : Nat} {g : Gang}

/-! ### A slot's gang -/

theorem State.onGang_gangAt (hg : s.gangAt h = some g) (f : Gang → Gang) : (s.onGang h f).gangAt h = some (f g) := by
  unfold State.gangAt at hg ⊢
  rw [State.onGang_slot, hg]
  rfl

theorem State.onSlot_gangAt (s : State) (h : Nat) (f : Slot → Slot) (hf : ∀ x, (f x).gang = x.gang) :
    (s.onSlot h f).gangAt h = s.gangAt h := by
  unfold State.gangAt
  rw [State.onSlot_slot, hf]

theorem State.gangAt_congr (hl : t.slots = s.slots) (h : Nat) : t.gangAt h = s.gangAt h := by
  unfold State.gangAt State.slot
  rw [hl]

/-! ### Reservation (R45, R316, R317) -/

theorem State.ask_free (hfree : (s.rope r).res = .free) : ((s.ask h q r g).rope r).res = .held h := by
  have hheld : ((s.onRope r (fun y => { y with res := .held h })).rope r).res = .held h := by rw [State.onRope_rope]
  unfold State.ask
  rw [if_pos hfree]
  dsimp only
  split
  · exact hheld
  · exact hheld

theorem State.ask_taken (hg : s.gangAt h = some g) (hr : (s.rope r).res ≠ .free) :
    ((s.ask h q r g).slot h).attempt = (s.slot h).attempt + 1 ∧
    (s.ask h q r g).gangAt h =
      some { g with phase := .backoff, retryAt := s.cyc.toNat + backoff h (s.slot h).attempt } := by
  unfold State.ask
  rw [if_neg hr]
  dsimp only
  refine ⟨by rw [State.onSlot_slot], ?_⟩
  refine (State.onSlot_gangAt _ _ _ ?_).trans (State.onGang_gangAt hg _)
  exact fun _ => rfl

theorem leads_reserve (s : State) (h r q : Nat) (g : Gang) (hq : (s.slot h).queue = some q) (hg : s.gangAt h = some g)
    (hp : g.phase = .reserving) (hr : r ∈ g.ropes) (hn : r ∉ g.granted) : Leads s (.reserve h r) (fun t =>
      ((s.rope r).res = .free → (t.rope r).res = .held h) ∧
      ((s.rope r).res ≠ .free → (t.slot h).attempt = (s.slot h).attempt + 1 ∧ ∃ x, t.gangAt h = some x ∧
        x.phase = .backoff ∧ x.retryAt = s.cyc.toNat + backoff h (s.slot h).attempt)) := by
  have hchosen : s.chosen h g = g := by rw [State.chosen, if_neg (by rw [hp]; decide)]
  have he : exec (.reserve h r) s = execReserve h r s := rfl
  rw [execReserve, hq, hg] at he
  dsimp only at he
  rw [hchosen] at he
  refine .of_happens he ?_ ⟨State.ask_free, fun hne => ?_⟩
  · rw [hp, List.contains_iff_mem.mpr hr]
    simpa using hn
  · obtain ⟨ha, hx⟩ := State.ask_taken (q := q) hg hne
    exact ⟨ha, _, hx, rfl, rfl⟩

theorem leads_placementRetry (s : State) (h : Nat) (g : Gang) (hg : s.gangAt h = some g) (hp : g.phase = .backoff)
    (hn : g.granted = []) (hr : g.retryAt ≤ s.cyc.toNat) :
    Leads s (.placementRetry h) (fun t => t.gangAt h = some { g with phase := .placing }) := by
  have he : exec (.placementRetry h) s = execPlacementRetry h s := rfl
  rw [execPlacementRetry, hg] at he
  refine .of_happens he ?_ (State.onGang_gangAt hg _)
  rw [hp, hn, decide_eq_true hr]
  rfl

/-! ### Commitment (R45, R50, R51, R72) -/

/-- A core of a rope that takes a kernel: its scratchpad is cleared, and its registers are as at a start. -/
def State.takeCore (g : Gang) (r : Nat) (s : State) (p : Nat) : State :=
  let c := 8 * r + p
  let s := (s.clearRange (spmLoc c 0) (2 ^ 23)).setCore c { split := g.desc.split }
  { s with full := s.full.filter (fun w => w * 8 < spmLoc c 0 || spmLoc (c + 1) 0 ≤ w * 8) }

theorem State.takeCores_rest (g : Gang) (r : Nat) (l : List Nat) (s : State) :
    ∃ m c f, l.foldl (State.takeCore g r) s = { s with mem := m, cores := c, full := f } := by
  induction l generalizing s with
  | nil => exact ⟨_, _, _, rfl⟩
  | cons p l ih =>
    obtain ⟨_, _, _, h⟩ := ih (s.takeCore g r p)
    exact ⟨_, _, _, h⟩

theorem State.byte_clearRange (s : State) (lo n a : Nat) :
    (s.clearRange lo n).byte a = if lo ≤ a ∧ a < lo + n then 0 else s.byte a := by
  rw [State.byte_of_filter (p := fun a => !(decide (lo ≤ a) && decide (a < lo + n))) rfl]
  by_cases h : lo ≤ a ∧ a < lo + n
  · rw [if_pos h, decide_eq_true h.1, decide_eq_true h.2]
    rfl
  · rw [if_neg h]
    rcases not_and_or.mp h with h | h
    · rw [decide_eq_false h]
      rfl
    · rw [decide_eq_false h, Bool.and_false]
      rfl

/-- Clearing leaves a byte that reads as unlisted. -/
theorem State.takeCore_byte (g : Gang) (r : Nat) (s : State) (p a : Nat) : (s.takeCore g r p).byte a = 0 ∨
    (s.takeCore g r p).byte a = s.byte a := by
  have h : (s.takeCore g r p).byte a = (s.clearRange (spmLoc (8 * r + p) 0) (2 ^ 23)).byte a := rfl
  rw [h, State.byte_clearRange]
  split
  · exact .inl rfl
  · exact .inr rfl

theorem State.takeCore_core (g : Gang) (r : Nat) (s : State) (p c : Nat) (h : (s.core c).split = g.desc.split) :
    ((s.takeCore g r p).core c).split = g.desc.split := by
  by_cases hc : c = 8 * r + p
  · subst hc
    exact congrArg Core.split (State.setCore_core _ _ _)
  · exact (congrArg Core.split (State.setCore_core_other _ _ _ _ hc)).trans h

theorem State.takeCores_byte_zero (g : Gang) (r a : Nat) (l : List Nat) (s : State) (h : s.byte a = 0) :
    (l.foldl (State.takeCore g r) s).byte a = 0 := by
  induction l generalizing s with
  | nil => exact h
  | cons p l ih => exact ih _ ((s.takeCore_byte g r p a).elim id (·.trans h))

theorem State.takeCores_byte (g : Gang) (r : Nat) (l : List Nat) (s : State) (p o : Nat) (hp : p ∈ l) (ho : o < 2 ^ 23) :
    (l.foldl (State.takeCore g r) s).byte (spmLoc (8 * r + p) o) = 0 := by
  induction l generalizing s with
  | nil => exact absurd hp List.not_mem_nil
  | cons p' l ih =>
    rcases List.mem_cons.mp hp with rfl | hp
    · refine State.takeCores_byte_zero g r _ l _ ?_
      refine (State.byte_clearRange s _ _ _).trans (if_pos ?_)
      unfold spmLoc
      omega
    · exact ih _ hp

theorem State.takeCores_split_kept (g : Gang) (r c : Nat) (l : List Nat) (s : State) (h : (s.core c).split = g.desc.split) :
    ((l.foldl (State.takeCore g r) s).core c).split = g.desc.split := by
  induction l generalizing s with
  | nil => exact h
  | cons p l ih => exact ih _ (s.takeCore_core g r p c h)

theorem State.takeCores_split (g : Gang) (r : Nat) (l : List Nat) (s : State) (p : Nat) (hp : p ∈ l) :
    ((l.foldl (State.takeCore g r) s).core (8 * r + p)).split = g.desc.split := by
  induction l generalizing s with
  | nil => exact absurd hp List.not_mem_nil
  | cons p' l ih =>
    rcases List.mem_cons.mp hp with rfl | hp
    · exact State.takeCores_split_kept g r _ l _ (congrArg Core.split (State.setCore_core _ _ _))
    · exact ih _ hp

theorem State.takeRope_eq (s : State) (h r : Nat) (g : Gang) : ∃ f : Rope → Rope, (∀ y, (f y).res = .busy h) ∧
    s.takeRope h r g = [0, 1, 2, 3, 4, 5, 6, 7].foldl (State.takeCore g r) (s.onRope r f) := by
  unfold State.takeRope State.takeCore
  refine ⟨_, ?_, rfl⟩
  exact fun _ => rfl

theorem State.commitRope_spec (s : State) (h r : Nat) (g : Gang) : ((s.commitRope h r g).rope r).res = .busy h ∧
    ((s.commitRope h r g).slot h).attempt = 0 ∧ ∀ p, p < 8 → ((s.commitRope h r g).core (8 * r + p)).split = g.desc.split ∧
      ∀ o, o < 2 ^ 23 → (s.commitRope h r g).byte (spmLoc (8 * r + p) o) = 0 := by
  obtain ⟨f, hf, he⟩ := s.takeRope_eq h r g
  obtain ⟨_, _, _, hrest⟩ := State.takeCores_rest g r [0, 1, 2, 3, 4, 5, 6, 7] (s.onRope r f)
  have hmem (p : Nat) (hp : p < 8) : p ∈ [0, 1, 2, 3, 4, 5, 6, 7] := by
    rw [show [0, 1, 2, 3, 4, 5, 6, 7] = List.range 8 from rfl]
    exact List.mem_range.mpr hp
  unfold State.commitRope
  rw [State.onSlot_slot]
  refine ⟨?_, rfl, fun p hp => ⟨?_, fun o ho => ?_⟩⟩
  · rw [State.onSlot_rope, he, hrest]
    exact (congrArg Rope.res (State.onRope_rope s r f)).trans (hf _)
  · rw [State.onSlot_core, he]
    exact State.takeCores_split g r _ _ p (hmem p hp)
  · rw [State.onSlot_byte, he]
    exact State.takeCores_byte g r _ _ p o (hmem p hp) ho

theorem leads_commit (s : State) (h q r : Nat) (g : Gang) (hq : (s.slot h).queue = some q) (hg : s.gangAt h = some g)
    (hp : g.phase = .loading) (hr : r ∈ g.ropes) (hres : (s.rope r).res = .held h)
    (hdone : g.saved.isSome = true ∨ g.handled = true ∨ s.partsStop (s.queuePart q true) g.refused
      (handlerRanges.flatMap (fun x => s.queueParts q (g.desc.img0 + x.1) x.2)) = none) :
    Leads s (.commit h r) (fun t => (t.rope r).res = .busy h ∧ (t.slot h).attempt = 0 ∧
      ∀ p, p < 8 → (t.core (8 * r + p)).split = g.desc.split ∧ ∀ o, o < 2 ^ 23 → t.byte (spmLoc (8 * r + p) o) = 0) := by
  have he : exec (.commit h r) s = execCommit h r s := rfl
  rw [execCommit, hq, hg] at he
  refine .of_happens he ?_ ?_
  · rw [hp, hres, List.contains_iff_mem.mpr hr, beq_self_eq_true, beq_self_eq_true]
    rfl
  · unfold State.sendCommit
    split
    · exact s.commitRope_spec h r g
    · rename_i hno
      rw [Bool.or_eq_true, not_or] at hno
      rw [(hdone.resolve_left hno.1).resolve_left hno.2]
      exact State.commitRope_spec _ h r g

/-! ### Release (R45) -/

/-- A rope that its slot holds becomes Free. -/
theorem State.freeRopes_one (s : State) (h r : Nat) (hr : (s.rope r).res = .held h ∨ (s.rope r).res = .busy h) :
    ((s.freeRopes h [r]).rope r).res = .free := by
  unfold State.freeRopes
  rw [List.foldl_cons, List.foldl_nil, if_pos, State.onRope_rope]
  rw [Bool.or_eq_true, beq_iff_eq, beq_iff_eq]
  exact hr

theorem State.giveBack_backoff (hg : s.gangAt h = some g) (hp : g.phase = .backoff) (hr : (s.rope r).res = .held h) :
    ((s.giveBack h r g).rope r).res = .free ∧
    ∃ x, (s.giveBack h r g).gangAt h = some x ∧ x.granted = g.granted.filter (· ≠ r) := by
  obtain ⟨u, hu⟩ : ∃ u, u = (s.freeRopes h [r]).onRope r (fun y => { y with copy := [], bad := [] }) := ⟨_, rfl⟩
  have hfree : (u.rope r).res = .free := by
    rw [hu, State.onRope_rope]
    exact s.freeRopes_one h r (.inl hr)
  have hgang : u.gangAt h = some g := by
    rw [hu]
    exact (State.gangAt_congr rfl h).trans ((State.gangAt_congr (s.freeRopes_slots h [r]) h).trans hg)
  have hstep : (u.onGang h (fun x => { x with granted := g.granted.filter (· ≠ r) })).gangAt h =
      some { g with granted := g.granted.filter (· ≠ r) } := State.onGang_gangAt hgang _
  unfold State.giveBack
  rw [← hu]
  dsimp only
  rw [if_neg (fun h => by rw [hp] at h; exact absurd h.1 (by decide))]
  split
  · exact ⟨hfree, _, State.onGang_gangAt hstep _, rfl⟩
  · exact ⟨hfree, _, hstep, rfl⟩

theorem leads_release (s : State) (h r : Nat) (g : Gang) (hg : s.gangAt h = some g) (hp : g.phase = .backoff)
    (hm : r ∈ g.granted) (hr : (s.rope r).res = .held h) : Leads s (.release h r) (fun t =>
      (t.rope r).res = .free ∧ ∃ x, t.gangAt h = some x ∧ x.granted = g.granted.filter (· ≠ r)) := by
  have he : exec (.release h r) s = execRelease h r s := rfl
  rw [execRelease, hg] at he
  refine .of_happens he ?_ (State.giveBack_backoff hg hp hr)
  rw [hp, hr, List.contains_iff_mem.mpr hm, beq_self_eq_true, beq_self_eq_true]
  rfl

/-! ### Loading (R45, R71) -/

theorem State.protectAll_rest {l : List (Nat × Nat × Nat)} (h : s.protectAll q l = .ok u) : ∃ a, u = { s with cairn := a } := by
  induction l generalizing s with
  | nil => exact ⟨_, (Except.ok.inj h).symm⟩
  | cons x l ih =>
    obtain ⟨base, size, grp⟩ := x
    rw [State.protectAll] at h
    split at h
    · cases h
    · split at h
      · obtain ⟨a, rfl⟩ := ih h
        exact ⟨a, rfl⟩
      · cases h
      · cases h

/-- A rope has loaded: it is ready, or the launch has failed. -/
theorem State.loaded_spec (hg : s.gangAt h = some g) : ((s.loaded h q r g).rope r).ready = true ∨
    ∃ x, (s.loaded h q r g).gangAt h = some x ∧ x.phase = .finished ∧ x.status = 3 := by
  obtain ⟨u, hu⟩ : ∃ u, u = ((s.reload r (strandAt r 0 0) 0 g.desc.img0 0 (2 ^ 18)).reload r (strandAt r 0 0) 1 g.desc.img1 0
    (2 ^ 18)).forgetFound (8192 + r) := ⟨_, rfl⟩
  have hgang : u.gangAt h = some g := by
    rw [hu]
    exact hg
  unfold State.loaded
  rw [← hu]
  dsimp only
  split
  · exact .inr ⟨_, State.onGang_gangAt hgang _, rfl, rfl⟩
  · refine .inl ?_
    have hready : ((u.onRope r (fun y => { y with ready := true })).rope r).ready = true := by rw [State.onRope_rope]
    split
    · exact hready
    split
    · exact hready
    split
    · exact hready
    · rename_i v hv
      obtain ⟨a, rfl⟩ := State.protectAll_rest hv
      split
      · exact hready
      · exact hready

theorem leads_ropeLoadDone (s : State) (r h q : Nat) (g : Gang) (hs : s.slotOfRope r = some h) (hq : (s.slot h).queue = some q)
    (hg : s.gangAt h = some g) (hp : g.phase = .loading) (hr : r ∈ g.ropes) (hready : (s.rope r).ready = false)
    (hstop : s.partsStop (s.ropePart r (strandAt r 0 0)) g.refused
      (s.queueParts q g.desc.img0 (2 ^ 18) ++ s.queueParts q g.desc.img1 (2 ^ 18)) = none) :
    Leads s (.ropeLoadDone r) (fun t => (t.rope r).ready = true ∨
      ∃ x, t.gangAt h = some x ∧ x.phase = .finished ∧ x.status = 3) := by
  have he : exec (.ropeLoadDone r) s = execRopeLoadDone r s := rfl
  rw [execRopeLoadDone, hs] at he
  dsimp only at he
  rw [hq, hg] at he
  dsimp only at he
  rw [hstop, hp, hready, List.contains_iff_mem.mpr hr,
    show (Phase.loading == Phase.loading && true && !false) = true from rfl, if_pos rfl] at he
  exact .of_next he (State.loaded_spec hg)

end
end Sys2Proof.Machine

/-! ## Packets, dependences, the start and the end of a gang (R44 to R51, R304 to R308, R380) -/

namespace Sys2Proof.Machine
section

variable {s t u : State} {h q r : Nat} {g : Gang}

/-! ### Packets and dependences (R304 to R307) -/

theorem leads_packetAccept (s : State) (h q : Nat) (b : List Byte) (hp : s.packetReady h = some q)
    (hb : s.queueBytes q ((s.queue q).qbase + 64 * ((s.queue q).qhead % (s.queue q).qsize)) 64 = .ok b)
    (hok : (launchOf b).2 = true) (hseq : (launchOf b).1.seq = ((s.queue q).lacc + 1) % 2 ^ 64) :
    Leads s (.packetAccept h) (fun t =>
      (t.queue q).lacc = (launchOf b).1.seq ∧ (t.queue q).qhead = ((s.queue q).qhead + 1) % 2 ^ 32) := by
  have he : exec (.packetAccept h) s = execPacketAccept h s := rfl
  rw [execPacketAccept, hp] at he
  refine .of_next he ?_
  obtain ⟨l, hl⟩ : ∃ l, l = (launchOf b).1 := ⟨_, rfl⟩
  have hpair : launchOf b = (l, true) := Prod.ext hl.symm hok
  rw [← hl] at hseq ⊢
  unfold State.acceptPacket
  dsimp only
  rw [hb]
  dsimp only
  rw [hpair]
  dsimp only
  rw [if_pos (by rw [hseq, beq_self_eq_true]; rfl)]
  have hd := State.dispatch_schedules (s.onQueue q (fun c =>
    { c with lacc := l.seq, qhead := (c.qhead + 1) % 2 ^ 32, accepted := c.accepted ++ [l] })) h
  rw [hd.lacc, hd.qhead, State.onQueue_queue]
  exact ⟨rfl, rfl⟩

/-- What a slot does about its launch's dependence once it is met. -/
theorem State.depStep_met (hg : s.gangAt h = some g) (hm : g.depMet = true) {d : Desc}
    (hd : s.readDesc q g.launch.kdesc = .ok d) (hu : s.protectAll q d.prots = .ok u) :
    (s.depStep h q g).gangAt h = some { g with desc := d, phase := .placing } := by
  unfold State.depStep
  rw [if_neg (by rw [hm]; decide), hd]
  dsimp only
  rw [hu]
  exact State.onGang_gangAt hg _

theorem State.depStep_waits (hm : g.depMet = false) : s.depStep h q g = s.evalDep h q g := by
  unfold State.depStep
  rw [hm, Bool.not_false, if_pos rfl]

/-- A launch without a dependence goes on (R307). -/
theorem State.evalDep_none (hg : s.gangAt h = some g) (hd : g.launch.depa = 0) :
    (s.evalDep h q g).gangAt h = some { g with depMet := true } := by
  unfold State.evalDep
  dsimp only
  rw [if_pos hd]
  exact State.onGang_gangAt hg _

/-- A counter of this device is compared where it lies (R307). -/
theorem State.evalDep_here (hg : s.gangAt h = some g) (hd : g.launch.depa ≠ 0)
    (hk : ¬ (addrKind g.launch.depa = 4 ∧ fld g.launch.depa 50 10 ≠ s.devid)) {l : List Nat}
    (hl : s.counterLocs q g.launch.depa = .ok l) : (s.evalDep h q g).gangAt h = some
      (if g.launch.dept ≤ ofBytes (l.map s.byte) then { g with depMet := true } else { g with depLocs := l }) := by
  unfold State.evalDep
  dsimp only
  rw [if_neg hd, if_neg hk, hl]
  dsimp only
  split
  · exact State.onGang_gangAt hg _
  · exact State.onGang_gangAt hg _

/-- A counter of another device has been read, and has come to its target (R307). -/
theorem State.evalDep_read (hg : s.gangAt h = some g) (hk : addrKind g.launch.depa = 4)
    (ho : fld g.launch.depa 50 10 ≠ s.devid) {v : Nat} (ht : g.depTag = none) (hv : g.depGot = some (0, v))
    (hle : g.launch.dept ≤ fld v (8 * (g.launch.depa % 64)) 64) :
    (s.evalDep h q g).gangAt h = some { g with depMet := true } := by
  by_cases hd : g.launch.depa = 0
  · exact State.evalDep_none hg hd
  · unfold State.evalDep
    dsimp only
    rw [if_neg hd, if_pos ⟨hk, ho⟩]
    split
    · rename_i n hn
      rw [ht] at hn
      cases hn
    · rename_i w _ hw
      obtain rfl : v = w := congrArg Prod.snd (Option.some.inj (hv.symm.trans hw))
      rw [if_pos hle]
      exact State.onGang_gangAt hg _
    · rename_i w hne _ hw
      obtain rfl := Option.some.inj (hv.symm.trans hw)
      exact absurd rfl (hne v)
    · rename_i hw
      rw [hv] at hw
      cases hw

theorem leads_dependenceMet (s : State) (h q : Nat) (g : Gang) (hq : (s.slot h).queue = some q) (hg : s.gangAt h = some g)
    (hp : g.phase = .waiting) : Leads s (.dependenceMet h) (fun t =>
      (g.depMet = true → ∀ d u, s.readDesc q g.launch.kdesc = .ok d → s.protectAll q d.prots = .ok u →
        t.gangAt h = some { g with desc := d, phase := .placing }) ∧
      (g.depMet = false → g.launch.depa = 0 → t.gangAt h = some { g with depMet := true }) ∧
      (g.depMet = false → g.launch.depa ≠ 0 → ¬ (addrKind g.launch.depa = 4 ∧ fld g.launch.depa 50 10 ≠ s.devid) →
        ∀ l, s.counterLocs q g.launch.depa = .ok l → t.gangAt h = some
          (if g.launch.dept ≤ ofBytes (l.map s.byte) then { g with depMet := true } else { g with depLocs := l })) ∧
      (g.depMet = false → addrKind g.launch.depa = 4 → fld g.launch.depa 50 10 ≠ s.devid →
        ∀ v, g.depTag = none → g.depGot = some (0, v) → g.launch.dept ≤ fld v (8 * (g.launch.depa % 64)) 64 →
          t.gangAt h = some { g with depMet := true })) := by
  have he : exec (.dependenceMet h) s = execDependenceMet h s := rfl
  rw [execDependenceMet, hq, hg] at he
  refine .of_happens he (by rw [hp]; rfl) ⟨fun hm d u hd hu => State.depStep_met hg hm hd hu, fun hm hd => ?_,
    fun hm hd hk l hl => ?_, fun hm hk ho v ht hv hle => ?_⟩
  · rw [State.depStep_waits hm]
    exact State.evalDep_none hg hd
  · rw [State.depStep_waits hm]
    exact State.evalDep_here hg hd hk hl
  · rw [State.depStep_waits hm]
    exact State.evalDep_read hg hk ho ht hv hle

/-! ### The start (R44, R45, R49 to R51) -/

/-- A strand as its gang starts: at its entry point, or idle where the kernel does not use its stream. -/
def Gang.strandAtStart (g : Gang) (k : Nat) : Strand := if g.uses (ctxOf k) then g.strandStart g.pdl k else {}

/-- Ropes of a gang have started: strands are as they were, or at their start. -/
structure Starts (g : Gang) (s t : State) : Prop where
  rest : ∃ x c r, t = { s with strands := x, cores := c, ropes := r }
  strands : ∀ k, t.strand k = s.strand k ∨ t.strand k = g.strandAtStart k

theorem Starts.refl (s : State) : Starts g s s := ⟨⟨_, _, _, rfl⟩, fun _ => .inl rfl⟩

theorem Starts.trans (h : Starts g s t) (k : Starts g t u) : Starts g s u := by
  refine ⟨?_, fun i => (k.strands i).elim (fun e => (h.strands i).imp e.trans e.trans) .inr⟩
  obtain ⟨_, _, _, rfl⟩ := h.rest
  obtain ⟨_, _, _, rfl⟩ := k.rest
  exact ⟨_, _, _, rfl⟩

theorem Starts.foldl {α : Type} (f : State → α → State) (h : ∀ s a, Starts g s (f s a)) (l : List α) (s : State) :
    Starts g s (l.foldl f s) := by
  induction l generalizing s with
  | nil => exact .refl s
  | cons a l ih => exact (h s a).trans (ih _)

/-- Of steps of a start, one that starts a strand is enough. -/
theorem Starts.foldl_strand {α : Type} (f : State → α → State) (h : ∀ s a, Starts g s (f s a)) (k : Nat) (a : α)
    (ha : ∀ s, (f s a).strand k = g.strandAtStart k) (l : List α) (hl : a ∈ l) (s : State) :
    (l.foldl f s).strand k = g.strandAtStart k := by
  induction l generalizing s with
  | nil => exact absurd hl List.not_mem_nil
  | cons b l ih =>
    rcases List.mem_cons.mp hl with rfl | hl
    · exact ((Starts.foldl f h l (f s a)).strands k).elim (·.trans (ha s)) id
    · exact ih hl _

/-- The strand of a context slot of a core starts. -/
def State.startStrand (g : Gang) (core : Nat) (s : State) (c : Nat) : State :=
  s.setStrand (4 * core + c) (if g.uses c then g.strandStart g.pdl (4 * core + c) else {})

/-- The core at a position of a rope starts. -/
def State.startCore (g : Gang) (r : Nat) (s : State) (p : Nat) : State :=
  [0, 1, 2, 3].foldl (State.startStrand g (8 * r + p))
    (s.setCore (8 * r + p) { split := g.desc.split, rings := g.desc.ring.mapIdx (fun n v => (n, ringWord v)) })

theorem State.startRope_eq (s : State) (g : Gang) (r : Nat) :
    ∃ f, s.startRope g.pdl g r = [0, 1, 2, 3, 4, 5, 6, 7].foldl (State.startCore g r) (s.onRope r f) := by
  unfold State.startRope State.startCore State.startStrand
  exact ⟨_, rfl⟩

theorem State.startStrand_strand (g : Gang) (core : Nat) (s : State) (c : Nat) (hc : c < 4) :
    (s.startStrand g core c).strand (4 * core + c) = g.strandAtStart (4 * core + c) := by
  have hctx : ctxOf (4 * core + c) = c := by unfold ctxOf; omega
  rw [Gang.strandAtStart, hctx]
  exact State.setStrand_strand _ _ _

theorem State.startStrands_starts (g : Gang) (core : Nat) (s : State) :
    Starts g s ([0, 1, 2, 3].foldl (State.startStrand g core) s) := by
  have hone (s : State) (c : Nat) (hc : c < 4) : Starts g s (s.startStrand g core c) := by
    refine ⟨⟨_, _, _, rfl⟩, fun k => ?_⟩
    by_cases hk : k = 4 * core + c
    · subst hk
      exact .inr (s.startStrand_strand g core c hc)
    · exact .inl (State.setStrand_strand_other _ _ _ _ hk)
  exact (((hone s 0 (by decide)).trans (hone _ 1 (by decide))).trans (hone _ 2 (by decide))).trans (hone _ 3 (by decide))

theorem State.startStrands_strand (g : Gang) (core : Nat) (s : State) (c : Nat) (hc : c < 4) :
    ([0, 1, 2, 3].foldl (State.startStrand g core) s).strand (4 * core + c) = g.strandAtStart (4 * core + c) := by
  have hset (s : State) (c' : Nat) : (s.startStrand g core c').strand (4 * core + c) =
      if c' = c then g.strandAtStart (4 * core + c) else s.strand (4 * core + c) := by
    split
    · rename_i he
      subst he
      exact s.startStrand_strand g core c' hc
    · exact State.setStrand_strand_other _ _ _ _ (by omega)
  simp only [List.foldl_cons, List.foldl_nil, hset]
  have : c = 0 ∨ c = 1 ∨ c = 2 ∨ c = 3 := by omega
  rcases this with rfl | rfl | rfl | rfl <;> rfl

theorem State.startCore_starts (g : Gang) (r : Nat) (s : State) (p : Nat) : Starts g s (s.startCore g r p) := by
  refine Starts.trans ?_ (State.startStrands_starts g _ _)
  exact ⟨⟨_, _, _, rfl⟩, fun _ => .inl rfl⟩

theorem State.startRope_starts (s : State) (g : Gang) (r : Nat) : Starts g s (s.startRope g.pdl g r) := by
  obtain ⟨f, h⟩ := s.startRope_eq g r
  rw [h]
  refine Starts.trans ?_ (.foldl _ (State.startCore_starts g r) _ _)
  exact ⟨⟨_, _, _, rfl⟩, fun _ => .inl rfl⟩

theorem State.startRope_strand (s : State) (g : Gang) (r c p : Nat) (hc : c < 4) (hp : p < 8) :
    (s.startRope g.pdl g r).strand (strandAt r c p) = g.strandAtStart (strandAt r c p) := by
  obtain ⟨f, h⟩ := s.startRope_eq g r
  rw [h]
  refine Starts.foldl_strand _ (State.startCore_starts g r) _ p (fun s => State.startStrands_strand g (8 * r + p) _ c hc) _ ?_ _
  rw [show [0, 1, 2, 3, 4, 5, 6, 7] = List.range 8 from rfl]
  exact List.mem_range.mpr hp

theorem State.zeroCounts_rest (s : State) (h : Nat) (g : Gang) : ∃ e, s.zeroCounts h g = { s with engines := e } := by
  have hfold (l : List Nat) (s : State) : ∃ e, l.foldl (fun s e => State.onEngine s e (fun x =>
      { x with late := Table.erase x.late h, flt := Table.erase x.flt h })) s = { s with engines := e } := by
    induction l generalizing s with
    | nil => exact ⟨_, rfl⟩
    | cons a l ih => exact ih _
  exact hfold _ s

theorem leads_gangStart (s : State) (h q : Nat) (g : Gang) (hq : (s.slot h).queue = some q) (hg : s.gangAt h = some g)
    (hs : s.starts h g = true) : Leads s (.gangStart h) (fun t => (∃ x, t.gangAt h = some x ∧ x.phase = .running) ∧
      ∀ r c p, r ∈ g.ropes → c < 4 → p < 8 → t.strand (strandAt r c p) =
        if g.uses c then g.strandStart g.pdl (strandAt r c p) else {}) := by
  have he : exec (.gangStart h) s = execGangStart h s := rfl
  rw [execGangStart, hq, hg] at he
  refine .of_happens he hs ?_
  obtain ⟨u, hu⟩ : ∃ u, u = g.ropes.foldl (fun s r => s.startRope g.pdl g r) s := ⟨_, rfl⟩
  have hstarts : Starts g s u := hu ▸ .foldl _ (fun s r => s.startRope_starts g r) _ s
  have hgang : u.gangAt h = some g := by
    obtain ⟨_, _, _, hr⟩ := hstarts.rest
    rw [hr]
    exact hg
  obtain ⟨e, hz⟩ := State.zeroCounts_rest (u.giveTokens g) h g
  unfold State.startGang
  rw [← hu]
  dsimp only
  rw [hz]
  constructor
  · refine ⟨_, State.onGang_gangAt (g := g) ?_ _, rfl⟩
    exact hgang
  · intro r c p hr hc hp
    have hctx : ctxOf (strandAt r c p) = c := by unfold ctxOf strandAt; omega
    have hstrand : u.strand (strandAt r c p) = g.strandAtStart (strandAt r c p) := by
      rw [hu]
      exact Starts.foldl_strand _ (fun s r => s.startRope_starts g r) _ r (fun s => s.startRope_strand g r c p hc hp) _ hr s
    rw [Gang.strandAtStart, hctx] at hstrand
    exact hstrand

/-! ### The end of a rope's part (R45) -/

theorem State.dropL1_stored (s : State) (c : Nat) : Stored s (s.dropL1 c) :=
  (s.cleanCore_stored c).trans (State.onCore_stored _ _ _)

theorem State.onStrands_rest {α : Type} (k : α → Nat) (f : α → Strand → Strand) (l : List α) (s : State) :
    ∃ x, l.foldl (fun s a => s.onStrand (k a) (f a)) s = { s with strands := x } := by
  induction l generalizing s with
  | nil => exact ⟨_, rfl⟩
  | cons a l ih => exact ih _

theorem State.endRope_free (s : State) (h r : Nat) (hr : (s.rope r).res = .busy h) : ((s.endRope h r).rope r).res = .free := by
  obtain ⟨u, hu⟩ : ∃ u, u = [0, 1, 2, 3, 4, 5, 6, 7].foldl (fun s p => State.dropL1 s (8 * r + p)) s := ⟨_, rfl⟩
  have hdrop : (u.rope r).res = .busy h := by
    have hst : Stored s u := hu ▸ .foldl _ (fun s p => s.dropL1_stored _) _ s
    obtain ⟨⟨_, _, _, _, _, _, _, _, he⟩, -⟩ := hst
    rw [he]
    exact hr
  obtain ⟨x, hx⟩ := State.onStrands_rest (fun i => 32 * r + i) (fun _ (x : Strand) =>
    { x with st := if x.st = .exited then .idle else x.st }) (List.range 32) u
  unfold State.endRope
  rw [← hu]
  dsimp only
  rw [hx]
  refine State.freeRopes_one _ h r (.inr ?_)
  split
  · exact hdrop
  · exact hdrop

theorem leads_ropePartDone (s : State) (r h : Nat) (g : Gang) (hs : s.slotOfRope r = some h) (hg : s.gangAt h = some g)
    (hp : g.phase = .running) (hd : s.ropeDone r = true) : Leads s (.ropePartDone r) (fun t => (t.rope r).res = .free) := by
  have he : exec (.ropePartDone r) s = execRopePartDone r s := rfl
  rw [execRopePartDone, hs] at he
  dsimp only at he
  rw [hg] at he
  refine .of_happens he (by rw [hp, hd]; rfl) (s.endRope_free h r ?_)
  unfold State.slotOfRope at hs
  split at hs
  · rename_i h' hr
    rw [hr, Option.some.inj hs]
  · cases hs

/-! ### The end of a launch (R308, R380) -/

/-- A note of a met dependence leaves a gang's launch and phase. -/
theorem Slot.Noted.gang {x y : Slot} (hn : x.Noted y) (hg : x.gang = some g) :
    ∃ z, y.gang = some z ∧ z.launch = g.launch ∧ z.phase = g.phase := by
  obtain ⟨m, rfl⟩ := hn
  exact ⟨{ g with depMet := m g.depMet }, by rw [hg]; rfl, rfl, rfl⟩

theorem Slot.Noted.queue {x y : Slot} (hn : x.Noted y) : y.queue = x.queue := by
  obtain ⟨m, rfl⟩ := hn
  rfl

theorem State.endLaunch_ldone (hq : (s.slot h).queue = some q) (hg : (s.slot h).gang = some g) :
    ((s.endLaunch h).queue q).ldone = g.launch.seq := by
  obtain ⟨a, y, he⟩ := State.endLaunch_eq hq hg
  have hended : (({ s.launchEnded h q g with host := a, sys := y } : State).queue q).ldone = g.launch.seq :=
    congrArg Queue.ldone (State.onQueue_queue ({ s with mapDue := s.mapDue + 1 } : State) q
      (fun c => { c with ldone := g.launch.seq, froz := false, ropes := 0 }))
  rw [he]
  split
  · rw [(State.unmap_schedules _ h).ldone, hended]
  · rw [(State.dispatch_schedules _ h).ldone, hended]

/-- A completion whose record is written ends the launch (R308). -/
theorem State.closeLaunch_written {status code : Nat} (hq : (s.slot h).queue = some q) (hg : (s.slot h).gang = some g)
    (hr : s.record q g.launch.seq status code = .ok u) :
    ((s.closeLaunch h status code).queue q).ldone = g.launch.seq := by
  have hslot := (State.record_stored hr).2.2 h
  obtain ⟨z, hz, hseq, -⟩ := hslot.gang hg
  unfold State.closeLaunch
  rw [hq, hg]
  dsimp only
  rw [hr]
  exact (State.endLaunch_ldone (hslot.queue.trans hq) hz).trans (by rw [hseq])

/-- A completion whose record has to wait leaves the launch closing (R308, log entry 70). -/
theorem State.closeLaunch_waits {status code : Nat} {e : EngStop} (hq : (s.slot h).queue = some q)
    (hg : (s.slot h).gang = some g) (hr : s.record q g.launch.seq status code = .error e) (he : e ≠ .fail) :
    (s.closeLaunch h status code).gangAt h = some { launch := g.launch, phase := .closing, status := status, code := code } := by
  unfold State.closeLaunch
  rw [hq, hg]
  dsimp only
  rw [hr]
  dsimp only
  obtain ⟨_, _, _, _, _, _, _, _, _, hb⟩ := (s.onGang h (fun g =>
    { launch := g.launch, phase := .closing, status := status, code := code })).orElse_beside h 3 e (s.endLaunch h) 0 he
  rw [hb]
  exact State.onGang_gangAt hg _

theorem State.closeLaunch_lost {status code : Nat} (hq : (s.slot h).queue = some q) (hg : (s.slot h).gang = some g)
    (hr : s.record q g.launch.seq status code = .error .fail) :
    ((s.closeLaunch h status code).queue q).ldone = g.launch.seq := by
  unfold State.closeLaunch
  rw [hq, hg]
  dsimp only
  rw [hr]
  exact State.endLaunch_ldone hq hg

theorem leads_gangComplete (s : State) (h q : Nat) (g : Gang) (hq : (s.slot h).queue = some q) (hg : s.gangAt h = some g)
    (hd : s.gangDone h g = true) (ha : g.launch.donea = 0) : Leads s (.gangComplete h) (fun t =>
      (∀ u, s.record q g.launch.seq g.status g.code = .ok u → (t.queue q).ldone = g.launch.seq) ∧
      (∀ e, s.record q g.launch.seq g.status g.code = .error e → e ≠ .fail →
        t.gangAt h = some { launch := g.launch, phase := .closing, status := g.status, code := g.code })) := by
  have he : exec (.gangComplete h) s = execGangComplete h s := rfl
  rw [execGangComplete, hq, hg] at he
  refine .of_happens he hd ?_
  rw [State.addDonei, if_pos ha]
  exact ⟨fun u hu => State.closeLaunch_written hq hg hu, fun e he hne => State.closeLaunch_waits hq hg he hne⟩

/-- A launch that is closed has ended, or waits to write its record. -/
theorem State.closeLaunch_cases (status code : Nat) (hq : (s.slot h).queue = some q) (hg : (s.slot h).gang = some g) :
    ((s.queue q).crsize = 0 → ((s.closeLaunch h status code).queue q).ldone = g.launch.seq) ∧
    (((s.closeLaunch h status code).queue q).ldone = g.launch.seq ∨ ∃ x, (s.closeLaunch h status code).gangAt h = some x ∧
      x.phase = .closing ∧ x.launch = g.launch ∧ x.status = status) := by
  constructor
  · intro hc
    refine State.closeLaunch_written (u := s) hq hg ?_
    rw [State.record, if_pos hc]
  · cases hr : s.record q g.launch.seq status code with
    | ok u => exact .inl (State.closeLaunch_written hq hg hr)
    | error e =>
      by_cases hf : e = .fail
      · subst hf
        exact .inl (State.closeLaunch_lost hq hg hr)
      · exact .inr ⟨_, State.closeLaunch_waits hq hg hr hf, rfl, rfl, rfl⟩

/-- What a killed gang leaves before its launch is closed: its slot, and the completion ring of its queue. -/
theorem State.killGang_closes (hq : (s.slot h).queue = some q) (hg : s.liveGang h = some g) (status code : Nat) :
    ∃ (w : State) (z : Gang), s.killGang h status code = w.closeLaunch h status code ∧ (w.slot h).queue = some q ∧ (w.slot h).gang = some z ∧
      z.launch = g.launch ∧ (w.queue q).crsize = (s.queue q).crsize := by
  have hgang : (s.slot h).gang = some g := (Option.filter_eq_some_iff.mp hg).1
  have hunits := s.killUnits_stops h g
  obtain ⟨z, hz, hlaunch, -⟩ := (hunits.slots h).gang hgang
  have hqueue : (s.killUnits h g).queue q = s.queue q := by
    obtain ⟨_, _, _, _, _, _, _, _, _, _, _, hr⟩ := hunits.rest
    rw [hr]
    rfl
  have hropes := (s.killUnits h g).freeRopes_slots h g.ropes
  obtain ⟨_, _, _, _, _, hfree⟩ := ((s.killUnits h g).freeRopes_schedules h g.ropes).queues q
  have hset := congrArg Queue.crsize (((s.killUnits h g).freeRopes h g.ropes).onQueue_queue q (fun c => { c with ropes := 0 }))
  rw [hfree, hqueue] at hset
  refine ⟨_, z, State.killGang_eq hq hg status code, ?_⟩
  generalize hu : ((s.killUnits h g).freeRopes h g.ropes).onQueue q (fun c => { c with ropes := 0 }) = u at hset ⊢
  have hslot : (u.killPitch q).slot h = (s.killUnits h g).slot h := by
    obtain ⟨_, _, _, _, _, _, _, _, _, hpitch⟩ := u.killPitch_beside q
    rw [hpitch, ← hu]
    unfold State.slot
    exact congrArg (fun l => Table.get l {} h) hropes
  refine ⟨by rw [hslot, (hunits.slots h).queue, hq], by rw [hslot, hz], hlaunch, ?_⟩
  obtain ⟨_, _, _, _, _, _, _, _, _, hpitch⟩ := u.killPitch_beside q
  rw [hpitch]
  exact hset

theorem leads_saveTimeout (s : State) (h q : Nat) (g : Gang) (hq : (s.slot h).queue = some q) (hg : s.gangAt h = some g)
    (ho : s.saveOverdue q g = true) : Leads s (.saveTimeout h) (fun t =>
      ((s.queue q).crsize = 0 → (t.queue q).ldone = g.launch.seq) ∧
      ((t.queue q).ldone = g.launch.seq ∨ ∃ x, t.gangAt h = some x ∧ x.phase = .closing ∧ x.launch = g.launch ∧ x.status = 2)) := by
  have hphase : (g.phase != .closing) = true := by
    unfold State.saveOverdue at ho
    dsimp only at ho
    split at ho
    · cases ho
    · rw [Bool.and_eq_true, Bool.or_eq_true, beq_iff_eq, beq_iff_eq] at ho
      rcases ho.1 with hp | hp <;> rw [hp] <;> rfl
  have hlive : s.liveGang h = some g := Option.filter_eq_some_iff.mpr ⟨hg, hphase⟩
  have he : exec (.saveTimeout h) s = execSaveTimeout h s := rfl
  rw [execSaveTimeout, hq, hg] at he
  refine .of_happens he ho ?_
  generalize (if g.stalled then 0x40 else 0x41) = code
  unfold State.killSlot
  rw [hq, hlive]
  dsimp only
  have hrec := s.faultRecord_beside 3 q 0xFFFF 0xFF 0 0 0 0 g.launch.seq (s.queue q).prog
  generalize s.faultRecord 3 q 0xFFFF 0xFF 0 0 0 0 g.launch.seq (s.queue q).prog = u at hrec
  obtain ⟨huq, hulive, husize⟩ : (u.slot h).queue = some q ∧ u.liveGang h = some g ∧ u.queue q = s.queue q := by
    obtain ⟨_, _, _, _, _, _, _, _, _, rfl⟩ := hrec
    exact ⟨hq, hlive, rfl⟩
  obtain ⟨w, z, hw, hwq, hwg, hlaunch, hsize⟩ := State.killGang_closes huq hulive 2 code
  obtain ⟨h1, h2⟩ := State.closeLaunch_cases 2 code hwq hwg
  rw [hlaunch] at h1 h2
  rw [hw]
  exact ⟨fun hc => h1 (hsize.trans ((congrArg Queue.crsize husize).trans hc)), h2⟩

end
end Sys2Proof.Machine

/-! ## Pre-emption, freezing, saving and resuming (R46 to R48, R50, R315) -/

namespace Sys2Proof.Machine
section

variable {s t u : State} {h q r : Nat} {g : Gang}

/-! ### Pre-emption (R46) -/

/-- YREQ of a strand of a gang is set, where the kernel uses its stream. -/
def State.askYield (g : Gang) (s : State) (k : Nat) : State :=
  if g.uses (ctxOf k) then s.onStrand k (fun x => { x with yreq := true }) else s

theorem State.askYields_rest (g : Gang) (l : List Nat) (s : State) : ∃ x, l.foldl (State.askYield g) s = { s with strands := x } := by
  induction l generalizing s with
  | nil => exact ⟨_, rfl⟩
  | cons k l ih =>
    obtain ⟨x, hx⟩ : ∃ x, s.askYield g k = { s with strands := x } := by
      unfold State.askYield
      split <;> exact ⟨_, rfl⟩
    obtain ⟨y, hy⟩ := ih { s with strands := x }
    exact ⟨y, by rw [List.foldl_cons, hx, hy]⟩

theorem State.askYield_same (s : State) (k : Nat) (hu : g.uses (ctxOf k) = true) : ((s.askYield g k).strand k).yreq = true := by
  unfold State.askYield
  rw [if_pos hu, State.onStrand_strand]

/-- YREQ stays set. -/
theorem State.askYield_kept (s : State) (k j : Nat) (hj : (s.strand j).yreq = true) : ((s.askYield g k).strand j).yreq = true := by
  unfold State.askYield
  split
  · by_cases hk : j = k
    · subst hk
      rw [State.onStrand_strand]
    · rw [State.onStrand_strand_other _ _ _ _ hk, hj]
  · exact hj

theorem State.askYields_kept (g : Gang) (l : List Nat) (s : State) (j : Nat) (hj : (s.strand j).yreq = true) :
    ((l.foldl (State.askYield g) s).strand j).yreq = true := by
  induction l generalizing s with
  | nil => exact hj
  | cons k l ih => exact ih _ (s.askYield_kept k j hj)

theorem State.askYields_yreq (g : Gang) (l : List Nat) (s : State) (k : Nat) (hk : k ∈ l) (hu : g.uses (ctxOf k) = true) :
    ((l.foldl (State.askYield g) s).strand k).yreq = true := by
  induction l generalizing s with
  | nil => exact absurd hk List.not_mem_nil
  | cons j l ih =>
    rcases List.mem_cons.mp hk with rfl | hk
    · exact State.askYields_kept g l _ k (s.askYield_same k hu)
    · exact ih _ hk

theorem State.takeYreq_spec (hg : s.gangAt h = some g) (hp : g.phase = .running) (hy : g.yAt = none) :
    (s.takeYreq h).gangAt h = some { g with yAt := some s.cyc.toNat, forcedAt := none } ∧
    ∀ k ∈ g.strands, g.uses (ctxOf k) = true → ((s.takeYreq h).strand k).yreq = true := by
  have he : s.takeYreq h = (g.strands.foldl (State.askYield g) s).onGang h
      (fun g => { g with yAt := some s.cyc.toNat, forcedAt := none }) := by
    unfold State.takeYreq
    rw [hg]
    dsimp only
    rw [if_pos ⟨hp, hy⟩]
    rfl
  rw [he]
  obtain ⟨x, hx⟩ := State.askYields_rest g g.strands s
  constructor
  · refine State.onGang_gangAt (g := g) ?_ _
    rw [hx]
    exact hg
  · intro k hk hu
    exact State.askYields_yreq g g.strands s k hk hu

theorem leads_preemptRequest (s : State) (h q : Nat) (g : Gang) (hq : (s.slot h).queue = some q) (hg : s.gangAt h = some g)
    (hw : s.wantsYreq h g = true) : Leads s (.preemptRequest h) (fun t =>
      (g.farDies = [] → t.gangAt h = some { g with yAt := some s.cyc.toNat, forcedAt := none } ∧
        ∀ k ∈ g.strands, g.uses (ctxOf k) = true → (t.strand k).yreq = true) ∧
      (g.farDies ≠ [] → t = s.multicast 0 g.farDies (.yreq h))) := by
  have he : exec (.preemptRequest h) s = execPreemptRequest h s := rfl
  rw [execPreemptRequest, hq, hg] at he
  refine .of_happens he hw ⟨fun hf => ?_, fun hf => ?_⟩
  · simp only [State.wantsYreq, Bool.and_eq_true, beq_iff_eq, Option.isNone_iff_eq_none] at hw
    obtain ⟨⟨⟨hp, hy⟩, -⟩, -⟩ := hw
    rw [hf, List.isEmpty_nil, if_pos rfl]
    exact State.takeYreq_spec hg hp hy
  · rw [if_neg (by rwa [List.isEmpty_iff])]

/-! ### Freezing by force (R47) -/

/-- Strands have been frozen: others differ in notes, and slots in notes of met dependences. -/
structure Freezes (s t : State) : Prop where
  ropes : t.ropes = s.ropes
  cycle : t.cycle = s.cycle
  slots : ∀ h, (s.slot h).Noted (t.slot h)
  strands : ∀ k, (s.strand k).Noted (t.strand k) ∨ (t.strand k).st = .frozen

theorem Freezes.refl (s : State) : Freezes s s := ⟨rfl, rfl, fun _ => .refl _, fun _ => .inl (.refl _)⟩

theorem Strand.Noted.st {x y : Strand} (hn : x.Noted y) : y.st = x.st := by
  obtain ⟨m, rfl⟩ := hn
  rfl

theorem Freezes.trans (h : Freezes s t) (k : Freezes t u) : Freezes s u where
  ropes := k.ropes.trans h.ropes
  cycle := k.cycle.trans h.cycle
  slots i := (h.slots i).trans (k.slots i)
  strands i := by
    rcases k.strands i with hk | hk
    · exact (h.strands i).imp (·.trans hk) (fun hf => hk.st.trans hf)
    · exact .inr hk

theorem State.forceStrand_st (s : State) (k d : Nat) : ((s.forceStrand k d).strand k).st = .frozen := by
  unfold State.forceStrand State.freezeStrand
  rw [State.onStrand_strand, State.onStrand_strand]
  rfl

theorem State.forceStrand_freezes (s : State) (k d : Nat) : Freezes s (s.forceStrand k d) := by
  obtain ⟨⟨_, _, _, _, _, _, _, _, _, hr⟩, hstrands, hslots⟩ := s.releaseGate_released k
  refine ⟨?_, ?_, fun i => ?_, fun i => ?_⟩
  · exact (congrArg State.ropes hr :)
  · exact (congrArg State.cycle hr :)
  · exact hslots i
  · by_cases hi : i = k
    · subst hi
      exact .inr (s.forceStrand_st i d)
    · refine .inl ?_
      unfold State.forceStrand State.freezeStrand
      rw [State.onStrand_strand_other _ _ _ _ hi, State.onStrand_strand_other _ _ _ _ hi]
      have hn := hstrands i
      rwa [State.onStrand_strand_other _ _ _ _ hi] at hn

/-- A strand that has come to its point freezes. -/
def State.freezeAt (d : Nat) (s : State) (k : Nat) : State := if (s.strand k).atFreeze s.cycle then s.forceStrand k d else s

theorem State.freezeAt_freezes (s : State) (d k : Nat) : Freezes s (s.freezeAt d k) := by
  unfold State.freezeAt
  split
  · exact s.forceStrand_freezes k d
  · exact .refl s

theorem Freezes.foldl (d : Nat) (l : List Nat) (s : State) : Freezes s (l.foldl (State.freezeAt d) s) := by
  induction l generalizing s with
  | nil => exact .refl s
  | cons k l ih => exact (s.freezeAt_freezes d k).trans (ih _)

theorem Strand.Noted.atFreeze {x y : Strand} (hn : x.Noted y) (now : Nat) : y.atFreeze now = x.atFreeze now := by
  obtain ⟨m, rfl⟩ := hn
  rfl

theorem Freezes.st (hf : Freezes s t) {k : Nat} (hk : (s.strand k).st = .frozen) : (t.strand k).st = .frozen :=
  (hf.strands k).elim (fun hn => hn.st.trans hk) id

/-- Every strand that is at its point is frozen in the end. -/
theorem State.freezeAts_st (d : Nat) (l : List Nat) (s : State) (k : Nat) (hk : k ∈ l)
    (ha : (s.strand k).atFreeze s.cycle = true) : ((l.foldl (State.freezeAt d) s).strand k).st = .frozen := by
  induction l generalizing s with
  | nil => exact absurd hk List.not_mem_nil
  | cons j l ih =>
    rw [List.foldl_cons]
    rcases List.mem_cons.mp hk with rfl | hk
    · refine (Freezes.foldl d l _).st ?_
      rw [State.freezeAt, if_pos ha]
      exact s.forceStrand_st k d
    · have hf := s.freezeAt_freezes d j
      rcases hf.strands k with hn | hst
      · refine ih _ hk ?_
        rw [hn.atFreeze, hf.cycle, ha]
      · exact (Freezes.foldl d l _).st hst

/-- A rope head stops reading. -/
def State.stopRope (s : State) (r : Nat) : State := s.onRope r (fun y => { y with stopped := true })

theorem State.stopRopes_rest (l : List Nat) (s : State) : ∃ x, l.foldl State.stopRope s = { s with ropes := x } := by
  induction l generalizing s with
  | nil => exact ⟨_, rfl⟩
  | cons r l ih => exact ih _

theorem State.stopRope_kept (s : State) (r j : Nat) (hj : (s.rope j).stopped = true) : ((s.stopRope r).rope j).stopped = true := by
  unfold State.stopRope
  by_cases hr : j = r
  · subst hr
    rw [State.onRope_rope]
  · rw [State.onRope_rope_other _ _ _ _ hr, hj]

theorem State.stopRopes_kept (l : List Nat) (s : State) (r : Nat) (hr : (s.rope r).stopped = true) :
    ((l.foldl State.stopRope s).rope r).stopped = true := by
  induction l generalizing s with
  | nil => exact hr
  | cons j l ih => exact ih _ (s.stopRope_kept j r hr)

theorem State.stopRopes_stopped (l : List Nat) (s : State) (r : Nat) (hr : r ∈ l) :
    ((l.foldl State.stopRope s).rope r).stopped = true := by
  induction l generalizing s with
  | nil => exact absurd hr List.not_mem_nil
  | cons j l ih =>
    rcases List.mem_cons.mp hr with rfl | hr
    · refine State.stopRopes_kept l _ r ?_
      unfold State.stopRope
      rw [State.onRope_rope]
    · exact ih _ hr

theorem State.forceGang_eq (s : State) (h d : Nat) (g : Gang) : s.forceGang h d g =
    g.strands.foldl (State.freezeAt d) ((g.ropes.foldl State.stopRope s).onGang h (fun g =>
      { g with phase := .freezing, forcedAt := some d })) := rfl

theorem State.forceGang_spec (hg : s.gangAt h = some g) (d : Nat) :
    (∃ x, (s.forceGang h d g).gangAt h = some x ∧ x.phase = .freezing) ∧
    (∀ r ∈ g.ropes, ((s.forceGang h d g).rope r).stopped = true) ∧
    ∀ k ∈ g.strands, (s.strand k).atFreeze s.cycle = true → ((s.forceGang h d g).strand k).st = .frozen := by
  obtain ⟨x, hx⟩ := State.stopRopes_rest g.ropes s
  rw [State.forceGang_eq]
  generalize hu : (g.ropes.foldl State.stopRope s).onGang h (fun g => { g with phase := .freezing, forcedAt := some d }) = u
  have hf := Freezes.foldl d g.strands u
  refine ⟨?_, fun r hr => ?_, fun k hk ha => ?_⟩
  · have hgang : u.gangAt h = some { g with phase := .freezing, forcedAt := some d } := by
      rw [← hu]
      refine State.onGang_gangAt (g := g) ?_ _
      rw [hx]
      exact hg
    obtain ⟨z, hz, -, hphase⟩ := (hf.slots h).gang hgang
    exact ⟨z, hz, hphase⟩
  · unfold State.rope
    rw [hf.ropes, ← hu]
    exact State.stopRopes_stopped g.ropes s r hr
  · refine State.freezeAts_st d g.strands u k hk ?_
    rw [← hu, hx]
    exact ha

theorem leads_forcedFreeze (s : State) (h : Nat) (g : Gang) (d : Nat) (hg : s.gangAt h = some g) (ho : s.overdue g = some d) :
    Leads s (.forcedFreeze h) (fun t =>
      ((g.phase = .freezing ∨ g.farDies = []) → (∃ x, t.gangAt h = some x ∧ x.phase = .freezing) ∧
        (∀ r ∈ g.ropes, (t.rope r).stopped = true) ∧
        ∀ k ∈ g.strands, (s.strand k).atFreeze s.cycle = true → (t.strand k).st = .frozen) ∧
      (g.phase ≠ .freezing → g.farDies ≠ [] → s.tells (.freeze h) = false →
        t.fab.mcast = s.fab.mcast ++ [{ src := 0, dests := g.farDies, what := .freeze h }])) := by
  have he : exec (.forcedFreeze h) s = execForcedFreeze h s := rfl
  rw [execForcedFreeze, hg] at he
  dsimp only at he
  rw [ho] at he
  refine .of_next he ⟨fun hn => ?_, fun hp hf ht => ?_⟩
  · rw [if_pos (hn.imp id List.isEmpty_iff.mpr)]
    exact State.forceGang_spec hg d
  · rw [if_neg (not_or.mpr ⟨hp, fun he => hf (List.isEmpty_iff.mp he)⟩), ht, if_neg Bool.false_ne_true]
    rfl

/-! ### Saving (R46, R47, R315) -/

theorem State.clearStrand_kept (l : List Nat) (s : State) (k : Nat) (hk : s.strand k = {}) :
    (l.foldl (fun s k => State.setStrand s k {}) s).strand k = {} := by
  induction l generalizing s with
  | nil => exact hk
  | cons j l ih =>
    refine ih _ ?_
    by_cases hj : k = j
    · subst hj
      exact State.setStrand_strand _ _ _
    · exact (State.setStrand_strand_other _ _ _ _ hj).trans hk

theorem State.clearStrands_strand (l : List Nat) (s : State) (k : Nat) (hk : k ∈ l) :
    (l.foldl (fun s k => State.setStrand s k {}) s).strand k = {} := by
  induction l generalizing s with
  | nil => exact absurd hk List.not_mem_nil
  | cons j l ih =>
    rcases List.mem_cons.mp hk with rfl | hk
    · exact State.clearStrand_kept l _ k (State.setStrand_strand _ _ _)
    · exact ih _ hk

theorem State.foldl_strands {α : Type} (f : State → α → State) (hf : ∀ s a, (f s a).strands = s.strands) (l : List α) (s : State) :
    (l.foldl f s).strands = s.strands := by
  induction l generalizing s with
  | nil => rfl
  | cons a l ih => exact (ih _).trans (hf s a)

theorem State.clearSaved_strand (s : State) (h : Nat) (g : Gang) (k : Nat) (hk : k ∈ g.strands) :
    (s.clearSaved h g).strand k = {} := by
  have hclear := State.clearStrands_strand g.strands s k hk
  have hstrands : (s.clearSaved h g).strands = (g.strands.foldl (fun s k => State.setStrand s k {}) s).strands := by
    unfold State.clearSaved
    refine (State.foldl_strands _ ?_ _ _).trans (State.foldl_strands _ ?_ _ _)
    · exact fun _ _ => rfl
    · exact fun _ _ => rfl
  unfold State.strand at hclear ⊢
  rw [hstrands]
  exact hclear

theorem State.saveGang_spec (s : State) (h q : Nat) (g : Gang) : ((s.saveGang h q g).queue q).froz = true ∧
    ∀ k ∈ g.strands, (s.saveGang h q g).strand k = {} := by
  obtain ⟨u, f, hu, hstrand⟩ : ∃ (u : State) (f : Gang → Gang), (∀ k ∈ g.strands, u.strand k = {}) ∧ s.saveGang h q g =
      (let v := (u.onQueue q (fun c => { c with froz := true, ropes := g.ropes.foldl (fun n r => n ||| 2 ^ r) 0 })).onGang h f
       if (v.slot h).evicting then v.unmap h else v.wake) :=
    ⟨_, _, fun k hk => State.clearSaved_strand _ h g k hk, rfl⟩
  have hfroz := congrArg Queue.froz
    (u.onQueue_queue q (fun c => { c with froz := true, ropes := g.ropes.foldl (fun n r => n ||| 2 ^ r) 0 }))
  rw [hstrand]
  dsimp only
  split
  · have hs := State.unmap_schedules ((u.onQueue q (fun c =>
      { c with froz := true, ropes := g.ropes.foldl (fun n r => n ||| 2 ^ r) 0 })).onGang h f) h
    refine ⟨(hs.froz q).trans hfroz, fun k hk => ?_⟩
    obtain ⟨_, _, _, _, hr⟩ := hs.rest
    rw [hr]
    exact hu k hk
  · exact ⟨hfroz, hu⟩

theorem leads_gangSave (s : State) (h q : Nat) (g : Gang) (hq : (s.slot h).queue = some q) (hg : s.gangAt h = some g)
    (hr : s.saveReady h g = true)
    (hput : g.lostArea = true ∨ ∃ u, ({ s with freeCount := s.freeCount + 1 } : State).queuePut q (s.queue q).savea
      ((List.range Config.saveSize).map (Config.freeByte s.freeCount)) = .ok u) :
    Leads s (.gangSave h) (fun t => (t.queue q).froz = true ∧ ∀ k ∈ g.strands, t.strand k = {}) := by
  have he : exec (.gangSave h) s = execGangSave h s := rfl
  rw [execGangSave, hq, hg] at he
  refine .of_happens he hr ?_
  unfold State.saveTo
  dsimp only
  split
  · exact s.saveGang_spec h q g
  · rename_i hlost
    obtain ⟨u, hu⟩ := hput.resolve_left hlost
    rw [hu]
    exact u.saveGang_spec h q g

/-! ### Resuming (R48, R50) -/

theorem State.foldl_slots {α : Type} (f : State → α → State) (hf : ∀ s a, (f s a).slots = s.slots) (l : List α) (s : State) :
    (l.foldl f s).slots = s.slots := by
  induction l generalizing s with
  | nil => rfl
  | cons a l ih => exact (ih _).trans (hf s a)

theorem State.abandonLeft_slots (s : State) (r c : Nat) : (s.abandonLeft r c).slots = s.slots := by
  refine State.foldl_slots _ (fun s k => ?_) _ s
  dsimp only
  split
  · rfl
  · refine State.foldl_slots _ (fun s p => ?_) _ s
    unfold State.abandonAt
    dsimp only
    split
    · rfl
    · rfl

theorem State.setBytes_slots (s : State) (l : List (Nat × Byte)) : (s.setBytes l).slots = s.slots := by
  obtain ⟨m, hm⟩ := State.setBytes_rest l s
  rw [hm]

theorem State.resumeGang_spec (hg : s.gangAt h = some g) (v : Saved) : ((s.resumeGang h q g v).queue q).froz = false ∧
    ∃ x, (s.resumeGang h q g v).gangAt h = some x ∧ x.phase = .running ∧ x.saved = none := by
  obtain ⟨u, f, hslots, hf, he⟩ : ∃ (u : State) (f : Gang → Gang), u.slots = s.slots ∧
      (∀ x, (f x).phase = .running ∧ (f x).saved = none) ∧
      s.resumeGang h q g v = (u.onQueue q (fun c => { c with froz := false })).onGang h f := by
    refine ⟨_, _, ?_, ?_, rfl⟩
    · have hleft (s : State) (r : Nat) : ([0, 1, 2, 3].foldl (fun s c => State.abandonLeft s r c) s).slots = s.slots :=
        State.foldl_slots _ (fun s c => s.abandonLeft_slots r c) _ s
      refine (State.foldl_slots _ ?_ _ _).trans ((State.foldl_slots _ hleft _ _).trans ((State.foldl_slots _ ?_ _ _).trans
        ((State.setBytes_slots _ _).trans ((State.foldl_slots _ ?_ _ _).trans
          ((State.foldl_slots _ ?_ _ _).trans (State.foldl_slots _ ?_ _ _))))))
      · exact fun _ _ => rfl
      · exact fun _ _ => rfl
      · exact fun _ _ => rfl
      · exact fun _ _ => rfl
      · exact fun _ _ => rfl
    · exact fun _ => ⟨rfl, rfl⟩
  rw [he]
  refine ⟨congrArg Queue.froz (u.onQueue_queue q (fun c => { c with froz := false })), f g, ?_, hf g⟩
  refine State.onGang_gangAt (g := g) ?_ f
  exact (State.gangAt_congr (s := s) hslots h).trans hg

theorem leads_gangResume (s : State) (h q : Nat) (g : Gang) (v : Saved) (hq : (s.slot h).queue = some q)
    (hg : s.gangAt h = some g) (hv : g.saved = some v) (hp : g.phase = .resuming) : Leads s (.gangResume h) (fun t =>
      (t.queue q).froz = false ∧ ∃ x, t.gangAt h = some x ∧ x.phase = .running ∧ x.saved = none) := by
  have he : exec (.gangResume h) s = execGangResume h s := rfl
  rw [execGangResume, hq, hg] at he
  dsimp only at he
  rw [hv] at he
  exact .of_happens he (by rw [hp]; rfl) (State.resumeGang_spec hg v)

end
end Sys2Proof.Machine

open Sys2Proof Sys2Proof.Machine in
/-- Settles O57: each step of launches and queues does what its lemma says. -/
theorem launchSteps : Obligations.LaunchSteps :=
  ⟨leads_reserve, leads_commit, leads_release, leads_ropeLoadDone, leads_gangStart, leads_ropePartDone, leads_placementRetry,
    leads_preemptRequest, leads_forcedFreeze, leads_gangSave, leads_gangResume, leads_kick, leads_packetAccept,
    leads_dependenceMet, leads_gangComplete, leads_eprioAgeing, leads_mappingDecision, leads_watchdogCheck, leads_saveTimeout,
    leads_queueRecordWrite, leads_qctlErrClear, leads_evackWrite, leads_eventRingConfigWrite, leads_flogsizeWrite,
    leads_registerWrite, leads_regionRegistered, leads_stagingSplitWrite, leads_exportSpaceDesignation⟩

/-! ## Held stores that perform (R112, R116, R118, R339) -/

namespace Sys2Proof.Machine
section

/-! ### The bytes of a sector -/

theorem ofBytes_getElem (l : List Byte) (j : Nat) (h : j < l.length) : ofBytes l / 256 ^ j % 256 = l[j].toNat := by
  induction l generalizing j with
  | nil => exact absurd h (Nat.not_lt_zero j)
  | cons b l ih =>
    have hb : b.toNat < 256 := b.isLt
    cases j with
    | zero => rw [ofBytes, List.getElem_cons_zero, Nat.pow_zero, Nat.div_one]; omega
    | succ j =>
      have hdiv : (b.toNat + 256 * ofBytes l) / 256 = ofBytes l := by omega
      rw [ofBytes, List.getElem_cons_succ, pow_succ', ← Nat.div_div_eq_div_mul, hdiv, ih j (Nat.lt_of_succ_lt_succ h)]

theorem sectorByte_toNat (v : Sector) (j : Nat) : sectorByte v j = BitVec.ofNat 8 (v.toNat / 256 ^ j) := by
  refine BitVec.eq_of_toNat_eq ?_
  rw [sectorByte, BitVec.extractLsb'_toNat, BitVec.toNat_ofNat, Nat.shiftRight_eq_div_pow, pow_mul]
  rfl

theorem toNat_ofNat_ofBytes (w : Nat) (l : List Byte) (hl : 8 * l.length = w) : (BitVec.ofNat w (ofBytes l)).toNat = ofBytes l := by
  subst hl
  rw [BitVec.toNat_ofNat, Nat.mod_eq_of_lt]
  rw [pow_mul]
  exact ofBytes_lt l

theorem sectorByte_ofBytes (l : List Byte) (hl : l.length = 64) (j : Nat) (h : j < l.length) :
    sectorByte (BitVec.ofNat 512 (ofBytes l)) j = l[j] := by
  refine BitVec.eq_of_toNat_eq ?_
  rw [sectorByte_toNat, toNat_ofNat_ofBytes 512 l (by omega), BitVec.toNat_ofNat, ofBytes_getElem l j h]

theorem State.sectorByte_homeSector (s : State) (sec j : Nat) (h : j < 64) :
    sectorByte (s.homeSector sec) j = s.byte (64 * sec + j) := by
  have hlen : ((locsFrom (sec * 64) 64).map s.byte).length = 64 := by rw [List.length_map, length_locsFrom]
  unfold State.homeSector State.num
  rw [sectorByte_ofBytes _ hlen j (by omega), List.getElem_map, locsFrom_getElem, Nat.mul_comm]

/-- A byte of a patched sector is the last one that the store has for its location. -/
theorem sectorByte_patchSector (sec : Nat) (v : Sector) (cells : List (Nat × Byte)) (j : Nat) (h : j < 64) :
    sectorByte (patchSector sec v cells) j = lastOf cells (64 * sec + j) (sectorByte v j) := by
  unfold patchSector
  rw [sectorByte_ofBytes _ (by simp) j (by simpa using h), List.getElem_map, List.getElem_zip, locsFrom_getElem, toBytes_getElem,
    sectorByte_toNat, Nat.mul_comm sec]
  rfl

/-! ### What leaves the cores -/

theorem State.setBytes_cores (s : State) (l : List (Nat × Byte)) : (s.setBytes l).cores = s.cores := by
  obtain ⟨m, h⟩ := State.setBytes_rest l s
  rw [h]

theorem State.capture_cores (s : State) (line : Nat) : (s.capture line).cores = s.cores := by
  unfold State.capture
  split
  · rfl
  dsimp only
  split
  · rfl
  split
  · rfl
  obtain ⟨m, y, h⟩ := State.openEntry_rest _ _ _ _ _ _ _
  rw [h]
  split
  · obtain ⟨_, _, _, _, _, _, _, _, _, hb⟩ := State.postEvent_beside _ _ _ _
    rw [hb]
    rfl
  · rfl

theorem State.captureFor_cores (s : State) (l : List Nat) : (s.captureFor l).cores = s.cores := by
  unfold State.captureFor
  split
  · rfl
  · exact List.foldlRecOn (motive := fun t : State => t.cores = s.cores) _ _ rfl fun t h line _ => (t.capture_cores line).trans h

theorem State.dirtyL2s_rest (s : State) (l : List Nat) (ev : Nat) :
    ∃ y, l.foldl (fun s sec => State.dirtyL2 s sec ev) s = { s with sys := y } := by
  induction l generalizing s with
  | nil => exact ⟨_, rfl⟩
  | cons sec l ih =>
    obtain ⟨y, h⟩ := s.dirtyL2_rest sec ev
    rw [List.foldl_cons, h]
    exact ih _

theorem State.writeHome_core (s : State) (cells : List (Nat × Byte)) (l : List Nat) (ev k : Nat) :
    (s.writeHome cells l ev).core k = s.core k := by
  obtain ⟨y, h⟩ := (s.captureFor (cells.map (·.1))).dirtyL2s_rest l ev
  have hc : (s.writeHome cells l ev).cores = s.cores := by
    unfold State.writeHome
    rw [h]
    exact (State.setBytes_cores _ _).trans (s.captureFor_cores _)
  unfold State.core
  rw [hc]

/-- Beside its cells, a write to homes leaves memory as its before-images do. -/
theorem State.writeHome_byte_other (s : State) (cells : List (Nat × Byte)) (l : List Nat) (ev a : Nat)
    (ha : ∀ c ∈ cells, c.1 ≠ a) : (s.writeHome cells l ev).byte a = (s.captureFor (cells.map (·.1))).byte a := by
  obtain ⟨y, h⟩ := (s.captureFor (cells.map (·.1))).dirtyL2s_rest l ev
  unfold State.writeHome
  rw [h]
  exact State.byte_setBytes_other cells _ a ha

/-! ### A line that L1 replaces (R112, R118) -/

theorem State.useL1_of_held (s : State) (c sec ev : Nat) (h : ∃ y ∈ (s.core c).lines, y.line = sec / 4) :
    s.useL1 c sec ev = s.onCore c (fun x => { x with lines := useLine (sec / 4) ev 0 x.lines }) := by
  have hany : (s.core c).lines.any (fun x => x.line == sec / 4) = true := by simpa using h
  unfold State.useL1
  dsimp only
  rw [if_pos hany]

theorem State.useL1_of_victim (s : State) (c sec ev v : Nat) (h : ∀ y ∈ (s.core c).lines, y.line ≠ sec / 4)
    (hv : Machine.victim ((8 - (s.core c).split) * 4096) (sec / 4) (s.core c).lines = some v) :
    s.useL1 c sec ev = (s.evictL1 c v).onCore c (fun x => { x with lines := useLine (sec / 4) ev 0 x.lines }) := by
  have hany : ¬ (s.core c).lines.any (fun x => x.line == sec / 4) = true := by simpa using h
  unfold State.useL1
  dsimp only
  rw [if_neg hany, hv]

theorem State.cleanL1_of_clean (s : State) (c sec : Nat) (h : sec ∉ (s.core c).l1Dirty) : s.cleanL1 c sec = s := by
  unfold State.cleanL1
  rw [if_neg (fun hc => h (List.contains_iff_mem.mp hc))]

theorem State.cleanL1_l1 (s : State) (c sec : Nat) : ((s.cleanL1 c sec).core c).l1 = (s.core c).l1 := by
  unfold State.cleanL1
  split
  · dsimp only
    rw [State.onCore_core, State.writeHome_core]
  · rfl

theorem State.cleanL1_l1Dirty (s : State) (c sec : Nat) :
    ((s.cleanL1 c sec).core c).l1Dirty = (s.core c).l1Dirty.filter (· ≠ sec) := by
  unfold State.cleanL1
  split
  · dsimp only
    rw [State.onCore_core, State.writeHome_core]
  · rename_i h
    have hne : ∀ a ∈ (s.core c).l1Dirty, a ≠ sec := fun a ha he => h (List.contains_iff_mem.mpr (he ▸ ha))
    exact (List.filter_eq_self.mpr fun a ha => decide_eq_true (hne a ha)).symm

/-- A line of which the first sector alone is Dirty goes home with that sector's write. -/
theorem State.evictL1_of_first (s : State) (c line : Nat) (h : (s.core c).l1Dirty = [4 * line]) :
    s.evictL1 c line = (s.cleanL1 c (4 * line)).onCore c (fun x => { x with
      l1 := x.l1.filter (fun e => e.1 / 4 != line), lines := x.lines.filter (fun y => y.line != line) }) := by
  have hclean (sec : Nat) : (s.cleanL1 c (4 * line)).cleanL1 c sec = s.cleanL1 c (4 * line) :=
    State.cleanL1_of_clean _ c sec (by rw [State.cleanL1_l1Dirty, h]; simp)
  unfold State.evictL1 sectorsIn
  simp only [List.foldl_cons, List.foldl_nil, hclean]

/-- The before-images that a sector's write may need are those of the sector's line. -/
theorem State.captureFor_sector (s : State) (sec : Nat) (h : s.cairn.regions ≠ []) :
    s.captureFor (locsFrom (sec * 64) 64) = s.capture (sec / 4) := by
  have hlines : (locsFrom (sec * 64) 64).map (· / 256) = List.replicate 64 (sec / 4) := by
    refine List.eq_replicate_iff.mpr ⟨by simp, fun b hb => ?_⟩
    obtain ⟨l, hl, rfl⟩ := List.mem_map.mp hb
    have hl := (mem_locsFrom _ _ _).mp hl
    omega
  unfold State.captureFor
  rw [if_neg (by simpa using h), hlines, List.replicate_dedup (by decide)]
  rfl

/-- Beside the sector, what a Dirty sector's write leaves of memory is what the before-image of its line leaves. -/
theorem State.cleanL1_byte_other (s : State) (c sec a : Nat) (h : sec ∈ (s.core c).l1Dirty) (hl : s.cairn.regions ≠ [])
    (ha : a / 64 ≠ sec) : (s.cleanL1 c sec).byte a = (s.capture (sec / 4)).byte a := by
  have hlocs (v : Nat) : ((locsFrom (sec * 64) 64).zip (toBytes 64 v)).map (·.1) = locsFrom (sec * 64) 64 :=
    List.map_fst_zip (by simp)
  have hbyte (t : State) (f : Core → Core) : (t.onCore c f).byte a = t.byte a := rfl
  unfold State.cleanL1
  rw [if_pos (List.contains_iff_mem.mpr h)]
  dsimp only
  rw [hbyte, State.writeHome_byte_other, hlocs, s.captureFor_sector sec hl]
  intro d hd he
  have hd := (mem_locsFrom _ _ _).mp (List.of_mem_zip hd).1
  omega

/-! ### An event that asks for a pitch (R309, R339, R343) -/

/-- The first byte of an event is that of its number. -/
theorem State.postEvent_seq (s : State) (k q d : Nat) (hs : s.host.evsize ≠ 0) (hf : s.eventFull = false) :
    (s.postEvent k q d).byte (hostLoc (s.host.evbase + 32 * ((s.host.evseq + 1) % s.host.evsize))) =
      BitVec.ofNat 8 (s.host.evseq + 1) := by
  have hm (t : State) (v a : Nat) : (t.msix v).byte a = t.byte a := by
    obtain ⟨_, h⟩ := t.msix_rest v
    rw [h]
    rfl
  unfold State.postEvent
  rw [if_neg (by simp [hs, hf])]
  dsimp only
  rw [hm, State.byte_setNum_other _ _ _ _ _ (by omega), State.byte_setNum_other _ _ _ _ _ (by omega),
    State.byte_setNum_other _ _ _ _ _ (by omega), State.byte_setNum_other _ _ _ _ _ (by omega)]
  have h := State.byte_setNum_mem { s with host := { s.host with evseq := s.host.evseq + 1 } }
    (hostLoc (s.host.evbase + 32 * ((s.host.evseq + 1) % s.host.evsize))) 8 (s.host.evseq + 1) 0 (by omega)
  simpa using h

/-- A before-image whose undo area is nearly full asks for a pitch. -/
theorem State.capture_asks (s : State) (line : Nat) (r : Region) (used : Nat) (hr : s.regionOf line = some r)
    (hd : line ∉ (s.group r.grp).dirty) (hst : r.st = .prot)
    (hu : (s.cairn.undo.filter (fun u => u.grp = r.grp ∧ u.line * 256 / 2 ^ 36 = line * 256 / 2 ^ 36)).length = used)
    (hroom : used < (s.group r.grp).undoRoom (line * 256 / 2 ^ 36))
    (hask : (s.group r.grp).undoRoom (line * 256 / 2 ^ 36) * 9 < (used + 1) * 10)
    (hreq : s.cairn.request = false) :
    ∃ (t : State) (k : Nat), t.host = s.host ∧ s.capture line = t.postEvent 4 r.queue k := by
  unfold State.capture
  rw [hr]
  dsimp only
  rw [List.length_map, hu, if_neg (by simp [hd, hst]), if_neg (Nat.not_le.mpr hroom),
    if_pos (by rw [decide_eq_true hask, hreq]; simp)]
  obtain ⟨m, y, h⟩ := State.openEntry_rest _ _ _ _ _ _ _
  rw [h]
  refine ⟨_, _, ?_, rfl⟩
  rfl

/-! ### Stores to held regions (R116) -/

/-- A store makes a sector of a held region Dirty in its core's L1. -/
def Store.holdSector (x : Store) (s : State) (sec : Nat) : State :=
  (s.useL1 x.core sec x.ev).onCore x.core (fun c =>
    let old := (Table.find c.l1 sec).getD (s.homeSector sec)
    { c with l1 := Table.set c.l1 sec (patchSector sec old x.cells)
             l1Dirty := if c.l1Dirty.contains sec then c.l1Dirty else sec :: c.l1Dirty })

/-- A store of which every byte lies in held sectors, and no sector is cached otherwise, performs in L1 alone. -/
theorem State.perform_held_l1 (s : State) (x : Store) (hl : (s.core x.core).hasL1 = true) (hc : x.cached = [])
    (hx : ∀ c ∈ x.cells, c.1 / 64 ∈ x.held) :
    ((s.perform x).core x.core).l1 = ((x.held.foldl x.holdSector s).core x.core).l1 := by
  have hnone : x.cells.filter (fun c => !x.held.contains (c.1 / 64)) = [] :=
    List.filter_eq_nil_iff.mpr fun c h => by simp [hx c h]
  have hcore (t : State) : (if x.held.isEmpty then t else t.recount).core x.core = t.core x.core := by
    split
    · rfl
    · rfl
  have hsend (t : State) : t.sendHome { x with cells := [], held := [] } = t := rfl
  unfold State.perform
  rw [if_pos hl]
  dsimp only
  rw [hc, hnone]
  simp only [List.foldl_nil, State.onCore_core]
  rw [hc] at hsend
  rw [hsend, hcore]
  simp only [List.contains_nil, Bool.false_eq_true, if_false, List.map_id']
  rfl

theorem Store.holdSector_l1 (x : Store) (s : State) (sec : Nat) : ((x.holdSector s sec).core x.core).l1 =
    Table.set ((s.useL1 x.core sec x.ev).core x.core).l1 sec
      (patchSector sec ((Table.find ((s.useL1 x.core sec x.ev).core x.core).l1 sec).getD (s.homeSector sec)) x.cells) := by
  unfold Store.holdSector
  rw [State.onCore_core]

/-- A held sector that L1 does not have, of a line that it has, is the home's, patched. -/
theorem Store.holdSector_of_absent (x : Store) (s : State) (sec : Nat) (hline : ∃ y ∈ (s.core x.core).lines, y.line = sec / 4)
    (hnone : Table.find (s.core x.core).l1 sec = none) :
    Table.find ((x.holdSector s sec).core x.core).l1 sec = some (patchSector sec (s.homeSector sec) x.cells) := by
  rw [x.holdSector_l1, Table.find_set_same, State.useL1_of_held _ _ _ _ hline, State.onCore_core, hnone]
  rfl

theorem lastOf_of_ne (cells : List (Nat × Byte)) (l : Nat) (b : Byte) (h : ∀ c ∈ cells, c.1 ≠ l) : lastOf cells l b = b := by
  have hnone : cells.reverse.find? (fun c => c.1 = l) = none :=
    List.find?_eq_none.mpr fun c hc => by simpa using h c (List.mem_reverse.mp hc)
  rw [lastOf, hnone]
  rfl

/-! ### The state and the store that refute O44 -/

/-- Line `n` of the host's memory. -/
def hostLine (n : Nat) : Nat := 2 ^ 56 + n

/-- Lines `m` and `n` of the host's memory fall into one set of an L1 of 4 MiB (R67). -/
def SameSet (m n : Nat) : Prop :=
  let sets := max 1 (4 * 4096 / (Config.cacheWays + 1))
  Config.cacheIndex (hostLine m) % sets = Config.cacheIndex (hostLine n) % sets

/-- However lines fall into sets, which log entry 3 leaves open, two lines of the host's memory share one. -/
theorem exists_sameSet : ∃ m n, m ≠ n ∧ SameSet m n := by
  generalize hs : 4 * 4096 / (Config.cacheWays + 1) = sets
  have hpos : 0 < max 1 sets := by omega
  obtain ⟨m, n, hne, h⟩ := Finite.exists_ne_map_eq_of_infinite
    fun n : Nat => (⟨Config.cacheIndex (hostLine n) % max 1 sets, Nat.mod_lt _ hpos⟩ : Fin (max 1 sets))
  refine ⟨m, n, hne, ?_⟩
  rw [SameSet, hs]
  exact congrArg Fin.val h

theorem foldl_max_replicate_zero (n : Nat) (y : CacheLine) (h : y.ev = 0) :
    (List.replicate n y).foldl (fun m x => max m x.ev) 0 = 0 := by
  induction n with
  | zero => rfl
  | succ n ih => rw [List.replicate_succ, List.foldl_cons, h]; exact ih

/-- A set that one line fills gives that line up. -/
theorem victim_replicate (size line : Nat) (y : CacheLine) (hy : y.ev = 0)
    (h : Config.cacheIndex y.line % max 1 (size / (Config.cacheWays + 1)) =
      Config.cacheIndex line % max 1 (size / (Config.cacheWays + 1))) :
    Machine.victim size line (List.replicate (Config.cacheWays + 1) y) = some y.line := by
  unfold Machine.victim
  simp only [List.filter_replicate, h, beq_self_eq_true, if_true, List.length_replicate, Nat.lt_irrefl, if_false,
    foldl_max_replicate_zero _ y hy, List.reverse_replicate, List.find?_replicate, hy]
  simp

/-- A core whose L1 is full where line `m` of the host's memory lies, of which the first sector is Dirty. -/
def fullCore (m : Nat) : Core :=
  { l1 := [(4 * hostLine m, 1)], l1Dirty := [4 * hostLine m]
    lines := List.replicate (Config.cacheWays + 1) { line := hostLine m, ev := 0 } }

/-- The protected region of line `m`, and an undo entry of that line. -/
def lineRegion (m : Nat) : Region :=
  { queue := 0, base := 0, size := 0, grp := 0, st := .prot, unit := 0, frames := [hostLine m / 256], pitch := 0 }

def lineUndo (m : Nat) : Undo := { grp := 0, line := hostLine m, pitch := 1, place := 0 }

/-- Line `m` is Dirty in a full set of L1 and protected, and the undo area of its stack, of 64 KiB, is so full that its
before-image asks for a pitch, by an event at line `n` of the host's memory (R309, R339). -/
def asking (m n : Nat) : State :=
  { State.reset with
    cores := [(0, fullCore m)]
    groups := [(0, { regs := [(undoReg (hostLine m * 256 / 2 ^ 36), 2 ^ 40)] })]
    cairn := { regions := [lineRegion m], undo := List.replicate 223 (lineUndo m) }
    host := { evbase := 256 * n, evsize := 1 } }

/-- A store to two sectors of line `n` of the host's memory, a held region, behind the bytes that an event takes. -/
def hostStore (n : Nat) : Store :=
  { core := 0, cells := [(256 * hostLine n + 64, 1), (256 * hostLine n + 32, 2)]
    held := [4 * hostLine n + 1, 4 * hostLine n] }

/-- The bytes of the store lie in its held sectors. -/
theorem hostStore_held (n : Nat) : ∀ c ∈ (hostStore n).cells, c.1 / 64 ∈ (hostStore n).held := by
  simp only [hostStore, List.mem_cons, List.not_mem_nil, or_false, forall_eq_or_imp, forall_eq]
  omega

/-- The first byte of line `n` is none of the store's. -/
theorem hostStore_lastOf (n : Nat) (b : Byte) : lastOf (hostStore n).cells (64 * (4 * hostLine n) + 0) b = b := by
  refine lastOf_of_ne _ _ _ ?_
  simp only [hostStore, List.mem_cons, List.not_mem_nil, or_false, forall_eq_or_imp, forall_eq, ne_eq]
  omega

/-- The held sectors of the store are of one line. -/
theorem hostStore_line (n : Nat) : ∀ a ∈ (hostStore n).held, a / 4 = hostLine n := by
  simp only [hostStore, List.mem_cons, List.not_mem_nil, or_false, forall_eq_or_imp, forall_eq]
  omega

section
variable (m n : Nat)

theorem asking_core : (asking m n).core 0 = fullCore m := rfl

theorem asking_lines : ∀ e ∈ ((asking m n).core 0).l1, ∃ y ∈ ((asking m n).core 0).lines, y.line = e.1 / 4 := by
  simp [asking_core, fullCore]

theorem asking_byte (a : Nat) : (asking m n).byte a = 0 := rfl

theorem asking_area (g off : Nat) : (((asking m n).group g).area off).1 < 2 ^ 40 ∧ (((asking m n).group g).area off).2 ≤ 2 ^ 40 := by
  unfold Group.area fld
  omega

/-- No undo area reaches the host's memory. -/
theorem asking_not_inUndoArea (a : Nat) (ha : 2 ^ 64 ≤ a) : ¬ (asking m n).inUndoArea a := by
  rintro (⟨g, stack, -, h⟩ | ⟨u, hu, -, h⟩)
  · have := asking_area m n g (undoReg stack)
    omega
  · have hp : u.place = 0 := congrArg Undo.place (List.eq_of_mem_replicate hu)
    have := asking_area m n u.grp u.reg
    rw [Group.headerAt, hp] at h
    omega

theorem asking_undoRoom : ((asking m n).group 0).undoRoom (hostLine m * 256 / 2 ^ 36) = 248 := by
  have hreg : ((asking m n).group 0).reg (undoReg (hostLine m * 256 / 2 ^ 36)) = 2 ^ 40 := by
    unfold Group.reg
    rw [show ((asking m n).group 0).regs = [(undoReg (hostLine m * 256 / 2 ^ 36), 2 ^ 40)] from rfl, Table.get, Table.find, if_pos rfl]
    rfl
  rw [Group.undoRoom, Group.room, Group.area, hreg]
  rfl

/-- The before-image of line `m` posts the event: its number is 1. -/
theorem asking_capture_byte : ((asking m n).capture (hostLine m)).byte (256 * hostLine n) = 1 := by
  have hused : ((asking m n).cairn.undo.filter (fun u =>
      u.grp = (lineRegion m).grp ∧ u.line * 256 / 2 ^ 36 = hostLine m * 256 / 2 ^ 36)).length = 223 := by
    have hundo : (asking m n).cairn.undo = List.replicate 223 (lineUndo m) := rfl
    rw [hundo, List.filter_replicate, if_pos (decide_eq_true ⟨rfl, rfl⟩), List.length_replicate]
  have hroom : ((asking m n).group (lineRegion m).grp).undoRoom (hostLine m * 256 / 2 ^ 36) = 248 := asking_undoRoom m n
  have hregion : (asking m n).regionOf (hostLine m) = some (lineRegion m) := by
    unfold State.regionOf
    exact List.find?_cons_of_pos (by simp [lineRegion])
  obtain ⟨t, k, ht, he⟩ := (asking m n).capture_asks (hostLine m) _ 223 hregion List.not_mem_nil rfl hused
    (by rw [hroom]; decide) (by rw [hroom]; decide) rfl
  have hseq := t.postEvent_seq 4 (lineRegion m).queue k (by rw [ht]; exact Nat.one_ne_zero) (by unfold State.eventFull; rw [ht]; rfl)
  have hloc : hostLoc ((asking m n).host.evbase + 32 * (((asking m n).host.evseq + 1) % (asking m n).host.evsize)) =
      256 * hostLine n := by
    show 2 ^ 64 + (256 * n + 32 * (1 % 1)) = 256 * (2 ^ 56 + n)
    omega
  rw [ht, hloc] at hseq
  rw [he]
  exact hseq

end

section
variable {m n : Nat} (hne : m ≠ n) (hset : SameSet m n)
include hne hset

/-- As the store's first sector comes to L1, line `m` goes home, and the event of its before-image is written to line `n`. -/
theorem asking_useL1 : let t := (asking m n).useL1 0 (4 * hostLine n + 1) 0
    (t.core 0).l1 = [] ∧ (∃ y ∈ (t.core 0).lines, y.line = hostLine n) ∧ t.byte (256 * hostLine n) = 1 := by
  have hline : (4 * hostLine n + 1) / 4 = hostLine n := by omega
  have hvictim := victim_replicate (4 * 4096) (hostLine n) { line := hostLine m, ev := 0 } rfl hset
  have hother : hostLine m ≠ hostLine n := fun h => hne (Nat.add_left_cancel h)
  have hmiss : ∀ y ∈ ((asking m n).core 0).lines, y.line ≠ (4 * hostLine n + 1) / 4 := by
    intro y hy
    rw [hline, List.eq_of_mem_replicate hy]
    exact hother
  rw [State.useL1_of_victim _ 0 _ 0 (hostLine m) hmiss (by rw [hline]; exact hvictim), State.evictL1_of_first _ 0 _ rfl]
  refine ⟨?_, ?_, ?_⟩
  · rw [State.onCore_core, State.onCore_core]
    dsimp only
    rw [State.cleanL1_l1]
    simp [asking_core, fullCore]
  · rw [State.onCore_core]
    exact ⟨_, List.mem_cons_self, hline⟩
  · have hbyte (t : State) (f : Core → Core) (a : Nat) : (t.onCore 0 f).byte a = t.byte a := rfl
    have hsector : 256 * hostLine n / 64 ≠ 4 * hostLine m := by omega
    rw [hbyte, hbyte, State.cleanL1_byte_other _ 0 _ _ (List.mem_singleton.mpr rfl) (List.cons_ne_nil _ _) hsector,
      Nat.mul_div_cancel_left _ (by decide), asking_capture_byte]

/-- So the store finds its second sector as the event has left it, and its line in L1. -/
theorem asking_holdSector : let t := (hostStore n).holdSector (asking m n) (4 * hostLine n + 1)
    (∃ y ∈ (t.core 0).lines, y.line = 4 * hostLine n / 4) ∧ Table.find (t.core 0).l1 (4 * hostLine n) = none ∧
      t.byte (64 * (4 * hostLine n) + 0) = 1 := by
  obtain ⟨hl1, hlines, hbyte⟩ := asking_useL1 hne hset
  refine ⟨?_, ?_, ?_⟩
  · rw [Store.holdSector, hostStore, State.onCore_core, Nat.mul_div_cancel_left _ (by decide)]
    exact hlines
  · have h := (hostStore n).holdSector_l1 (asking m n) (4 * hostLine n + 1)
    simp only [hostStore, hl1] at h ⊢
    rw [h, Table.find_set_other _ _ _ _ (by omega)]
    rfl
  · have hloc : 64 * (4 * hostLine n) + 0 = 256 * hostLine n := by omega
    rw [hloc]
    exact hbyte

/-- That byte of the sector in L1 is the event's, once the store has performed. -/
theorem asking_perform_byte : ∃ v, Table.find (((asking m n).perform (hostStore n)).core 0).l1 (4 * hostLine n) = some v ∧
    sectorByte v 0 = 1 := by
  obtain ⟨hlines, hnone, hbyte⟩ := asking_holdSector hne hset
  have hperform := (asking m n).perform_held_l1 (hostStore n) rfl rfl (hostStore_held n)
  have hfind := (hostStore n).holdSector_of_absent _ _ hlines hnone
  refine ⟨_, (congrArg (Table.find · _) hperform).trans hfind, ?_⟩
  rw [sectorByte_patchSector _ _ _ _ (by decide), State.sectorByte_homeSector _ _ _ (by decide), hbyte, hostStore_lastOf]

end
end
end Sys2Proof.Machine

open Sys2Proof Sys2Proof.Machine in
/-- Refutes O44: the last clause bounds no sector of a held region by 2^64, where the host's memory begins, as the others do
their locations. A store to two sectors of one line of the host's memory makes L1 replace a protected line as it takes the first;
the event of that line's before-image (R309, R339) is written to the second, which the store then takes with the event's bytes
instead of those that stood there. -/
theorem not_storesPerform : ¬ Obligations.StoresPerform := by
  rintro ⟨-, -, h⟩
  obtain ⟨m, n, hne, hset⟩ := exists_sameSet
  obtain ⟨-, hsec⟩ := h (asking m n) (hostStore n) rfl
    (fun a ha b hb => (hostStore_line n a ha).trans (hostStore_line n b hb).symm) rfl
    (fun c hc hno => absurd (hostStore_held n c hc) hno) (asking_lines m n)
  have hin : 4 * hostLine n ∈ (hostStore n).held := by simp [hostStore]
  obtain ⟨-, v, hv, hbytes⟩ := hsec _ hin fun j _ => asking_not_inUndoArea m n _ (by unfold hostLine; omega)
  obtain ⟨w, hw, hone⟩ := asking_perform_byte hne hset
  have hvw : v = w := Option.some.inj (hv.symm.trans hw)
  have habsent : Table.find ((asking m n).core 0).l1 (4 * hostLine n) = none :=
    if_neg fun he => hne (Nat.add_left_cancel (Nat.eq_of_mul_eq_mul_left (by decide) he))
  have hzero : sectorByte v 0 = 0 := by
    have h0 := hbytes 0 (by decide)
    rw [hostStore_lastOf] at h0
    rw [h0, show (hostStore n).core = 0 from rfl, habsent, Option.getD_none, State.sectorByte_homeSector _ _ _ (by decide), asking_byte]
  rw [hvw, hone] at hzero
  exact absurd hzero (by decide)

/-! ## Reset (R49, R321 to R436) -/

namespace Sys2Proof.Machine
section

theorem State.reset_strand_get (k n : Nat) : (State.reset.strand k).get (.s n) = 0 := by
  cases n <;> rfl

theorem State.reset_group_enabled (g : Nat) : (State.reset.group g).enabled = false := by
  show Group.enabled {} = false
  decide

theorem resetRegisters_read : ∀ e ∈ resetRegisters, State.reset.regRead e.1 = e.2 := by decide

end
end Sys2Proof.Machine

open Sys2Proof Sys2Proof.Machine in
/-- Settles O5: a sparse state lists nothing at reset, so that every unit is as its structure gives it. -/
theorem resetLeaves : Obligations.ResetLeaves :=
  ⟨resetRegisters_read, rfl, rfl, fun _ => rfl, State.reset_group_enabled, fun _ => rfl,
    fun _ => ⟨rfl, rfl⟩, State.reset_strand_get, rfl⟩

/-! ## The issue of a bundle (R25, R142, R147) -/

namespace Sys2Proof.Machine
section

variable {s : State} {k : Nat} {f : Fetched}

theorem State.begin_issue (s : State) (k : Nat) (f : Fetched) :
    (s.begin k f).issue.pre = (s.begin k f).me ∧ (s.begin k f).issue.Plain ∧ (s.begin k f).issue.flags = 0 ∧
    (s.begin k f).issue.strand = k ∧ (s.begin k f).issue.succ = f.succ :=
  ⟨rfl, ⟨rfl, rfl, rfl⟩, rfl, rfl, rfl⟩

@[simp] theorem Strand.put_mxBad (x : Strand) (d : Dest) (v : Nat) : (x.put d v).mxBad = x.mxBad := by
  unfold Strand.put
  split <;> rfl

/-- Cycle G puts the entries of the replay buffer back, which are register results (R48). -/
theorem Strand.reenter_mxBad (x : Strand) (now : Nat) (drains : Bool) : (x.reenter now drains).mxBad = x.mxBad := by
  have hputs (l : List ReplayEntry) (y : Strand) :
      (l.foldl (fun y r => y.put r.dest r.value) y).mxBad = y.mxBad := by
    induction l generalizing y with
    | nil => rfl
    | cons r l ih => rw [List.foldl_cons, ih, Strand.put_mxBad]
  unfold Strand.reenter
  split
  · exact hputs _ _
  · rfl

theorem State.begin_mxBad (s : State) (k : Nat) (f : Fetched) : (s.begin k f).issue.pre.mxBad = (s.strand k).mxBad := by
  show ((s.onStrand k _).strand k).mxBad = _
  rw [State.onStrand_strand, Strand.reenter_mxBad]
  rfl

theorem step_of_issues {c : Nat} (ha : s.agenda = []) (hs : s.plat.stopped = false) (hp : s.pick = some (c, .issues k)) :
    step s = issueStrand k s := by
  simp [step, ha, proceed, hs, hp, takeTurn]

theorem issueStrand_of_queue {q : List Fetched} (hq : (s.strand k).queue = f :: q) : issueStrand k s =
    andThen (runBundle f (s.begin k f)) (fun t => .next (t.finish.endTurn k (s.core (coreOf k)).gave)) := by
  rw [issueStrand, hq]

theorem runBundle_of_lone {n b w : Nat} {i : Instr} (hm : s.issue.pre.mxBad = none) (hw : f.what = .bits w)
    (hr : (headerOf w).rest = 0) (hb : bundleSlots w = [(n, b, .ok i)]) :
    runBundle f s = exec i (s.onIssue (fun x => { x with phase := .lone, slot := n })) := by
  simp [runBundle, hm, hw, hr, hb]

end
end Sys2Proof.Machine

open Sys2Proof Sys2Proof.Machine in
/-- Settles O9: the step of a picked strand is the run of its bundle, which is that of its one slot. -/
theorem stepRunsTheDecodedSlot : Obligations.StepRunsTheDecodedSlot := by
  intro s c k n b w i f q ha hs hp hq hm hw hr hb
  obtain ⟨hpre, hplain, hflags, hstrand, hsucc⟩ := s.begin_issue k f
  refine ⟨hpre, hplain, hflags, hstrand, hsucc, ?_⟩
  rw [step_of_issues ha hs hp, issueStrand_of_queue hq,
    runBundle_of_lone ((s.begin_mxBad k f).trans hm) hw hr hb]

/-! ## Poisoned sources (R38, R271, R372, R387, R388) -/

namespace Sys2Proof.Machine
section

variable {s : State} {i : Instr} {more : List Dest} {v : Option Hurdle} {x : Strand} {d : Dest} {c : Cause}

theorem Strand.firstPoison_append {pre post : List Dest} (hpre : ∀ e ∈ pre, x.poison e = none) (hd : x.poison d = some c) :
    x.firstPoison (pre ++ d :: post) = some (.fault c d.code) := by
  induction pre with
  | nil => rw [List.nil_append, Strand.firstPoison, hd]
  | cons e l ih =>
    rw [List.cons_append, Strand.firstPoison, hpre e List.mem_cons_self]
    exact ih fun a ha => hpre a (List.mem_cons_of_mem _ ha)

theorem Strand.firstPoison_isSome {l : List Dest} (h : ∃ e ∈ l, x.poison e ≠ none) : (x.firstPoison l).isSome = true := by
  induction l with
  | nil => obtain ⟨e, he, -⟩ := h; simp at he
  | cons a l ih =>
    rw [Strand.firstPoison]
    cases ha : x.poison a with
    | some c => rfl
    | none =>
      obtain ⟨e, he, hp⟩ := h
      rcases List.mem_cons.mp he with rfl | he
      · exact absurd ha hp
      · exact ih ⟨e, he, hp⟩

theorem Strand.poison_code (h : x.poison d = some c) : c.code = 0x20 ∨ c.code = 0x21 := by
  unfold Strand.poison at h
  split at h
  · cases h; exact .inl rfl
  · split at h
    · cases h; exact .inr rfl
    · cases h

/-- What the value stage finds without a fault of a port or of the slot's own checks is no fault. -/
theorem State.valueStage_isFault (hpop : s.portFault false s.issue.pops i.pops = false)
    (hpush : s.portFault true s.issue.pushes i.pushes = false) (hv : ∀ h, v = some h → h.isFault = false) (b : Bool) :
    (s.valueStage i b v).any Hurdle.isFault = false := by
  unfold State.valueStage
  rw [hpop, hpush]
  cases b with
  | false => rfl
  | true =>
    cases v with
    | none => rfl
    | some h =>
      cases h with
      | fault c n => exact absurd (hv _ rfl) (by simp [Hurdle.isFault])
      | wait w => rfl
      | miss m => rfl

theorem State.slotHurdle_of_encCause (h : i.encCause = some c) : s.slotHurdle i more v = some (.fault c i.encode) := by
  simp [State.slotHurdle, h]

/-- A poisoned register that the slot's checks read is found at once: the first poisoned source of all names it. -/
theorem State.slotHurdle_of_checks {h : Hurdle} (he : i.encCause = none)
    (hsrc : s.issue.pre.firstPoison (i.reads ++ more) = some h)
    (hchk : (s.issue.pre.firstPoison (i.checks ++ more)).isSome = true) : s.slotHurdle i more v = some h := by
  obtain ⟨p, hp⟩ := Option.isSome_iff_exists.mp hchk
  simp [State.slotHurdle, he, hsrc, hp]

/-- Any other is found after the value stage and the scoreboard. -/
theorem State.slotHurdle_of_reads {h : Hurdle} (he : i.encCause = none)
    (hsrc : s.issue.pre.firstPoison (i.reads ++ more) = some h)
    (hval : ∀ b, (s.valueStage i b v).any Hurdle.isFault = false)
    (hheld : s.issue.x = true ∨ ∀ e ∈ i.reads ++ more ++ i.writes, s.issue.pre.pending e = false) :
    s.slotHurdle i more v = some h := by
  have hnone : (!s.issue.x && (i.reads ++ more ++ i.writes).any s.issue.pre.pending) = false := by
    rcases hheld with hx | hp
    · simp [hx]
    · rw [List.any_eq_false.mpr fun e he => by simp [hp e he], Bool.and_false]
  unfold State.slotHurdle
  rw [he]
  dsimp only
  cases hchk : s.issue.pre.firstPoison (i.checks ++ more) with
  | some p => simp [hsrc]
  | none =>
    simp only [hval, hnone, hsrc]
    rfl

end
end Sys2Proof.Machine

open Sys2Proof Sys2Proof.Machine in
/-- Settles O18: a slot's hurdle by the stage that reads its first poisoned source. -/
theorem poisonedSourcesAreFound : Obligations.PoisonedSourcesAreFound := by
  refine ⟨fun i s more v pre post d c he hsrc hpre hd => ?_, fun _ _ _ _ _ => State.slotHurdle_of_encCause,
    fun _ _ _ => Strand.poison_code⟩
  have hfirst := hsrc ▸ Strand.firstPoison_append (post := post) hpre hd
  exact ⟨fun hchk => State.slotHurdle_of_checks he hfirst (Strand.firstPoison_isSome hchk),
    fun hpop hpush hv => State.slotHurdle_of_reads he hfirst (State.valueStage_isFault hpop hpush hv)⟩

/-! ## Bundles that do nothing of their own (R25, R144, R169) -/

namespace Sys2Proof.Machine
section

variable {s o t u : State}

/-- A commit that nothing preceded changes what the commit of any bundle does. -/
theorem State.commit_onlyResult (o : State) (h : o.issue.Plain) : OnlyResult o o.commit [] 0 := by
  obtain ⟨_, _, _, _, hme, -⟩ := o.commit_strand h
  obtain ⟨hmem, hropes, hslots, hqueues, hgroups, -, hfull, htokens, -⟩ := o.commit_rest h
  refine ⟨fun e _ => o.commit_get h e, .of_mem hmem _, ?_, ?_, ⟨0, ?_, rfl⟩, ⟨htokens, fun c => ?_⟩,
    o.commit_other h, hropes, hslots, hqueues, hgroups, hfull⟩
  · rw [SpecialsKept, hme]; simp
  · rw [LoopsKept, hme]; exact ⟨rfl, rfl⟩
  · rw [o.commit_flags h, Nat.or_zero]
  · obtain ⟨_, _, _, hc⟩ := o.commit_core h c
    rw [hc]; exact ⟨rfl, rfl, rfl, rfl⟩

theorem State.commit_committed (h : s.issue.Plain) : s.commit.issue.committed = true := by rw [s.commit_issue h]

theorem State.openBundle_plain (s : State) (is : List Instr) (h : s.issue.Plain) : (s.openBundle is).issue.Plain := by
  rw [State.openBundle_issue]
  exact h

theorem execHoldBundle_free (h : s.bundleWait [] = none) : exec .holdBundle s = .next (s.openBundle []).commit := by
  show execHoldBundle s = _
  simp [execHoldBundle, h]

theorem execEmptyBundle_free (h : s.bundleWait [] = none) : exec .emptyBundle s = .next (s.openBundle []).commit := by
  show execEmptyBundle s = _
  simp [execEmptyBundle, h]

end
end Sys2Proof.Machine

open Sys2Proof Sys2Proof.Machine in
/-- Settles O13: both bundles are opened and committed, and nothing else. -/
theorem emptyBundlesIssue : Obligations.EmptyBundlesIssue := by
  intro s hplain hwait
  have ho := s.openBundle_plain [] hplain
  exact ⟨⟨_, execHoldBundle_free hwait, State.commit_committed ho, State.commit_onlyResult _ ho⟩,
    ⟨_, execEmptyBundle_free hwait, State.commit_committed ho, State.commit_onlyResult _ ho⟩⟩

/-! ## The state and the instruction that refute O14 (R26, R102) -/

namespace Sys2Proof.Machine
section

/-- Alone in its bundle, a slot instruction whose checks find a wait blocks. -/
theorem runSlotWith_blocked (i : Instr) (more : State → List Dest) (value : State → Option Hurdle) (act : State → State)
    {s : State} {w : Wait} (hp : s.issue.phase = .lone) (hh : s.slotHurdle i (more s) (value s) = some (.wait w)) :
    runSlotWith i more value act s = .next (s.block w) := by
  simp [runSlotWith, hp, hh]

/-- A strand whose first bundle out of exposed mode drains before it issues (R36): a result to s4 has not landed. -/
def drainingStrand : Strand :=
  { st := .detached, lastX := true, a := [(1, 0x130000)], inflight := [{ dest := .s 4, value := none, source := .memory }] }

/-- It runs in a device-local space no page of which is in a TLB. -/
def unwalked : State :=
  { State.reset with
    strands := [(0, drainingStrand)]
    ropes := [(0, { res := .busy 2 })]
    slots := [(2, { queue := some 5 })]
    queues := [(5, { xlat := 0x8000 })]
    issue := { strand := 0, pc := 0, succ := 2, pre := drainingStrand } }

/-- A PREF of the 256 bytes at a1. -/
def prefetch : LA := ⟨0, 1, 0, 0, { cls := 1, ord := 0, sc := 0, nm := 0, ev := 0, lat := 0 }⟩

/-- Its bundle is to drain, and `Instr.hurdle` knows no wait of the instruction itself. -/
theorem prefetch_drains : (Instr.pref prefetch).hurdle unwalked = none ∧ unwalked.bundleWait [.pref prefetch] = some .drain := by
  decide

/-- PREF's own check finds the walk of its page, which comes before what its bundle waits for. -/
theorem execPref_prefetch : exec (.pref prefetch) unwalked = .next (unwalked.block (.walking 0x8000 0x13)) := by
  show execPref prefetch unwalked = _
  rw [execPref, runSlot]
  exact runSlotWith_blocked _ _ _ _ rfl (by decide)

end
end Sys2Proof.Machine

open Sys2Proof Sys2Proof.Machine in
/-- Refutes O14: PREF waits for the walks of its pages (R102, R267), which `Instr.hurdle` leaves out. One whose bundle is also to
drain finds no hurdle and the bundle's wait, and blocks on the walk instead. -/
theorem not_blockedSlotsWait : ¬ Obligations.BlockedSlotsWait := by
  intro h
  obtain ⟨t, ht, -, -, hwait, -⟩ := h (.pref prefetch) unwalked .drain rfl rfl (by decide) (.inr prefetch_drains)
  obtain rfl : unwalked.block (.walking 0x8000 0x13) = t := Host.Outcome.next.inj (execPref_prefetch.symm.trans ht)
  exact absurd hwait (by decide)

/-! ## Rolling back (R39, R42) -/

namespace Sys2Proof.Machine
section

variable {s : State} {k : Nat}

/-- The register whose old value a shadow slot holds; a loop register's slot stands apart from them. -/
def Shadow.place : Shadow → Dest
  | .reg r _ => r
  | .loop n _ _ => .tile n

theorem Strand.get_unshadow_loop (x : Strand) (n : Nat) (r : LoopReg) (l : Nat) (d : Dest) :
    (x.unshadow (.loop n r l)).get d = x.get d := by
  match d with
  | .s 0 | .s (_ + 1) | .a _ | .v _ | .p 0 | .p (_ + 1) | .push _ _ | .tile _ => rfl

/-- A register that no shadow slot holds keeps what it has. -/
theorem Strand.unshadows_get_kept {l : List Shadow} {d : Dest} (h : ∀ old, .reg d old ∉ l) (x : Strand) :
    (l.foldl Strand.unshadow x).get d = x.get d := by
  induction l generalizing x with
  | nil => rfl
  | cons a l ih =>
    rw [List.foldl_cons, ih fun old ho => h old (List.mem_cons_of_mem _ ho)]
    cases a with
    | reg r v => exact Strand.get_put_other _ _ _ _ fun e => h v (e ▸ List.mem_cons_self)
    | loop n r v => exact x.get_unshadow_loop n r v d

/-- Where no two shadow slots are of one register, each gives its own what it holds. -/
theorem Strand.unshadows_get_restored {l : List Shadow} (hn : (l.map Shadow.place).Nodup) {d : Dest} {old : Nat}
    (hd : .reg d old ∈ l) (hf : d.fixed = false) (hp : ∀ p n, d ≠ .push p n) (x : Strand) :
    (l.foldl Strand.unshadow x).get d = old % 2 ^ destWidth d := by
  induction l generalizing x with
  | nil => simp at hd
  | cons a l ih =>
    rw [List.map_cons, List.nodup_cons] at hn
    rw [List.foldl_cons]
    rcases List.mem_cons.mp hd with rfl | hd
    · rw [Strand.unshadows_get_kept (fun v hv => hn.1 (List.mem_map.mpr ⟨_, hv, rfl⟩))]
      exact Strand.get_put_same x d old hf hp
    · exact ih hn.2 hd _

theorem State.landAll_of_nil (h : (s.strand k).inflight = []) : s.landAll k = s := by
  rw [State.landAll, h]
  rfl

theorem Strand.put_rest (x : Strand) (d : Dest) (v : Nat) : ∃ rs ra rv rp, x.put d v = { x with s := rs, a := ra, v := rv, p := rp } := by
  unfold Strand.put
  split <;> exact ⟨_, _, _, _, rfl⟩

/-- Restoring shadows changes registers, loop registers and LIX alone. -/
theorem Strand.unshadows_rest (l : List Shadow) (x : Strand) : ∃ rs ra rv rp lo li,
    l.foldl Strand.unshadow x = { x with s := rs, a := ra, v := rv, p := rp, loops := lo, lix := li } := by
  induction l generalizing x with
  | nil => exact ⟨_, _, _, _, _, _, rfl⟩
  | cons h l ih =>
    obtain ⟨rs, ra, rv, rp, lo, li, hl⟩ := ih (x.unshadow h)
    rw [List.foldl_cons, hl]
    cases h with
    | reg d v =>
      obtain ⟨_, _, _, _, hput⟩ := x.put_rest d v
      rw [Strand.unshadow, hput]
      exact ⟨rs, ra, rv, rp, lo, li, rfl⟩
    | loop n r v => exact ⟨rs, ra, rv, rp, lo, li, rfl⟩

/-- The end of a rollback that waits for no result: the shadows are restored, and the strand goes on by itself at its restart
point with an empty gate. -/
theorem State.finishRollback_spec (hi : (s.strand k).inflight = []) (hp : (s.strand k).pri = none) :
    let y := (s.finishRollback k).strand k
    (s.finishRollback k).mem = s.mem ∧ y.pc = (s.strand k).restartPc ∧ y.bank = (s.strand k).restartBank ∧
    y.st = .detached ∧ y.gate = [] ∧ y.shadows = [] ∧
    ∀ d, y.get d = ((s.strand k).shadows.foldl Strand.unshadow (s.strand k)).get d := by
  unfold State.finishRollback
  dsimp only
  have hland (f : Strand → Strand) (hf : f (s.strand k) = s.strand k) : (s.onStrand k f).landAll k = s.onStrand k f :=
    State.landAll_of_nil (by rw [State.onStrand_strand, hf, hi])
  have hf : ({ s.strand k with inflight := (s.strand k).inflight.filter (fun e => decide (e.epoch < (s.strand k).epoch)) } : Strand) =
      s.strand k := by
    rw [hi]
    exact congrArg (fun l => ({ s.strand k with inflight := l } : Strand)) hi.symm
  rw [hland _ hf, State.onStrand_strand, State.onStrand_strand, hf]
  obtain ⟨rs, ra, rv, rp, lo, li, hl⟩ := Strand.unshadows_rest (s.strand k).shadows (s.strand k)
  rw [hl]
  refine ⟨rfl, rfl, rfl, ?_, rfl, rfl, fun d => ?_⟩
  · simp [hp]
  · match d with
    | .s 0 | .s (_ + 1) | .a _ | .v _ | .p 0 | .p (_ + 1) | .push _ _ | .tile _ => rfl

theorem exec_rollback_end (hr : (s.strand k).rolling = true) (hd : s.drained k = true) :
    exec (.rollback k 32 0) s = .next (s.finishRollback k) := by
  show execRollback k 32 0 s = _
  exact happens_true (by rw [hr, hd]; rfl)

end
end Sys2Proof.Machine

open Sys2Proof Sys2Proof.Machine in
/-- Settles O23: with no result in flight the rollback ends at once, and of two shadow slots none is of one register. -/
theorem rollbackRestores : Obligations.RollbackRestores := by
  intro s k hr hd hi hp _ hn
  have hplaces : ((s.strand k).shadows.map Shadow.place).Nodup := by
    rw [List.map_congr_left fun h _ => ?_]
    · exact hn
    · cases h <;> rfl
  obtain ⟨hmem, hpc, hbank, hst, hgate, hshadows, hget⟩ := State.finishRollback_spec hi hp
  exact ⟨_, exec_rollback_end hr hd, hmem, hpc, hbank, hst, hgate, hshadows,
    fun r old hm hf hpush => (hget r).trans (Strand.unshadows_get_restored hplaces hm hf hpush _),
    fun r hm => (hget r).trans (Strand.unshadows_get_kept hm _)⟩

/-! ## The state that refutes O55 (R25, R64, R376) -/

namespace Sys2Proof.Machine
section

/-- An ADDI that reads s5. -/
def readingS5 : Instr := .addi { d := 5, a := 5, imm := 64 }

/-- A soft error has already met s5 in its region, and the next bundle of the strand, which reads s5, cannot issue before
cycle 1. -/
def erring : State :=
  { State.reset with strands := [(0,
      { st := .detached, ready := 1, softErrs := [(0, 5)]
        queue := [{ pc := 0, bank := 0, succ := 2, what := .bits (bundleOf readingS5) }] })] }

/-- The trap for an error at s5 found in the read of a slot, or in none. -/
def erringTrap (slot : Nat) : State :=
  erring.takeTrap 0 0 [{ slot := slot, cause := .softError, info := 5 }]

/-- The bundle cannot issue on this cycle, so that the error is found in the read of no slot (R64, R376). -/
theorem exec_rollback_erring : exec (.rollback 0 0 5) erring = .next (erringTrap 6) := by
  have hslot : (erring.strand 0).erringSlot 0 5 erring.cycle = 6 := by decide
  have hsoft : erring.softError 0 0 5 = erringTrap 6 := by
    show erring.takeTrap 0 0 [{ slot := (erring.strand 0).erringSlot 0 5 erring.cycle, cause := .softError, info := 5 }] = _
    rw [hslot]
    rfl
  show happens (erring.strand 0).active erring (erring.softError 0 0 5) = _
  rw [hsoft]
  exact happens_true (by decide)

theorem erringTrap_tfm : ((erringTrap 6).strand 0).tfm = 0 ∧ ((erringTrap 1).strand 0).tfm = 2 := by decide

theorem bundleSlots_readingS5 : bundleSlots (bundleOf readingS5) = [(1, readingS5.encode, .ok readingS5)] := by decide

end
end Sys2Proof.Machine

open Sys2Proof Sys2Proof.Machine in
/-- Refutes O55: its clause on a soft error that traps names the slot of the strand's next bundle that reads the register, whether
or not that bundle can issue on this cycle; the model names it only where it can. With the bundle held for a cycle (R25), TFM
has no slot's bit. -/
theorem not_strandSteps : ¬ Obligations.StrandSteps := by
  rintro ⟨-, -, -, -, -, -, -, h, -⟩
  obtain ⟨t, ht, slot, -, hslot, hnamed, -⟩ := h erring 0 0 5 (by decide) (.inr (by decide)) (by decide)
  obtain rfl : slot = 1 := hnamed _ _ readingS5 1 _ rfl rfl bundleSlots_readingS5
  have heq : erringTrap 6 = erringTrap 1 := (Host.Outcome.next.inj (exec_rollback_erring.symm.trans ht)).trans hslot
  have htfm := erringTrap_tfm.1.symm.trans ((congrArg (fun t => (State.strand t 0).tfm) heq).trans erringTrap_tfm.2)
  exact absurd htfm (by decide)

/-! ## The state that refutes O43 (R99, R102, R117, R128, R148) -/

namespace Sys2Proof.Machine
section

/-- A slot instruction with nothing in its way acts in the opened state, and its bundle commits. -/
theorem State.ready.run {s : State} {i : Instr} (h : s.ready i) {value : State → Option Hurdle} {act : State → State}
    (hexec : exec i s = runSlot i value act s) (hm : i.moreSources s = []) (hv : i.valueHurdle s = value s) :
    exec i s = .next (act (s.opened i)).commit := by
  obtain ⟨hphase, -, -, hhurdle, hwait⟩ := h
  rw [Instr.hurdle, hm, hv] at hhurdle
  rw [hexec, runSlot]
  exact runSlotWith_ready i _ value act s hphase hhurdle hwait

theorem execVst_ready (f : LA) (s : State) (h : s.ready (.vst f)) :
    exec (.vst f) s = .next (((s.opened (.vst f)).readVec f.d).2.storeNum
      (((s.opened (.vst f)).readVec f.d).2.effective f.ab f.off) 128 ((s.opened (.vst f)).readVec f.d).1 .data f.at_).commit := by
  have hexec : exec (.vst f) s = execVst f s := rfl
  rw [execVst] at hexec
  rw [h.run hexec rfl rfl]

set_option maxRecDepth 20000
set_option exponentiation.threshold 2048

/-- A strand with a report in the queue of its report port 0, which is to store it at the flat address a1. -/
def reporting : Strand :=
  { st := .detached, a := [(1, 0x100000)], reports := [(0, [{ id := 0, val := some 5 }])] }

/-- The walk of page 16 has ended without an entry, and software has written one since: memory leads the page to frame 0x20, and a
Dirty sector of the core's L1 to frame 0x30. -/
def remapping : State :=
  { State.reset with
    strands := [(0, reporting)]
    cores := [(0, { l1 := [(0xE080 / 64, 0x300005)], l1Dirty := [0xE080 / 64] })]
    ropes := [(0, { res := .busy 2 })]
    slots := [(2, { queue := some 5 })]
    queues := [(5, { xlat := 0x8000 })]
    sys := { State.reset.sys with walks := [{ die := 0, pages := [(0x8000, 0x10)], who := [], failed := true }] }
    mem := [(0x8000, 0x01), (0x8001, 0xA0), (0xA000, 0x01), (0xA001, 0xC0), (0xC000, 0x01), (0xC001, 0xE0),
      (0xE080, 0x05), (0xE082, 0x20)]
    issue := { strand := 0, pc := 0, succ := 2, pre := reporting } }

/-- A VST of the vector that it pops from report port 0. -/
def storeReport : LA := ⟨440, 1, 0, 0, { cls := 1, ord := 0, sc := 0, nm := 0, ev := 0, lat := 0 }⟩

theorem remapping_ready : remapping.ready (.vst storeReport) := by
  unfold State.ready
  decide

/-- The state in which the store acts, and that in which its report is popped. -/
def opening : State := remapping.opened (.vst storeReport)
def popped : State := (opening.readVec storeReport.d).2

/-- The state after the store: the pop has dropped the core's L1, which brings the level-3 entry home, and the store's address is
translated after that. -/
def remapped : State := 
  (popped.storeNum (popped.effective storeReport.ab storeReport.off) 128 (opening.readVec storeReport.d).1 .data storeReport.at_).commit

theorem exec_storeReport : exec (.vst storeReport) remapping = .next remapped :=
  execVst_ready storeReport remapping remapping_ready

/-- The cells that the statement gives the store. -/
def statedCells : List (Nat × Byte) :=
  ((opening.pieces (opening.effective storeReport.ab storeReport.off) 128 true .data).map (·.loc)).zip
    (copies (opening.effective storeReport.ab storeReport.off) (toBytes 128 (opening.readVec storeReport.d).1))

/-- The store is held for frame 0x30; as the statement has it, its locations are those of frame 0x20. -/
theorem remapped_locs : remapped.me.gate.map (fun x => x.cells.head?.map (·.1)) = [some 0x300000] ∧
    statedCells.head?.map (·.1) = some 0x200000 := by decide

theorem opening_gate : opening.me.gate = [] := by decide

end
end Sys2Proof.Machine

open Sys2Proof Sys2Proof.Machine in
/-- Refutes O43: VST takes the locations of its address after it has popped its vector, and the statement takes them before. The
pop of a report drops L1 (R128), which brings a Dirty sector of a page table home; where the walk of the page has failed
before, the address is translated from the tables as they stand, and leads elsewhere. -/
theorem not_storesAreHeld : ¬ Obligations.StoresAreHeld := by
  rintro ⟨-, h, -⟩
  obtain ⟨t, ht, -, -, -, -, x, hgate, -, hcells⟩ := h storeReport remapping remapping_ready
  obtain rfl : remapped = t := Host.Outcome.next.inj (exec_storeReport.symm.trans ht)
  obtain ⟨hnew, hold⟩ := remapped_locs
  rw [hgate, show (remapping.opened (.vst storeReport)).me.gate = [] from opening_gate] at hnew
  have hx : x.cells = statedCells := hcells
  rw [List.nil_append, List.map_singleton, hx, hold] at hnew
  exact absurd hnew (by decide)

/-! ## What the ctl slot leaves of registers, memory and cores (R185 to R191) -/

namespace Sys2Proof.Machine
section

variable {s t u o : State} {i : Instr} {k : Nat}

/-! ### The file of a strand -/

/-- The strand with nothing but its registers, flags, special registers and loop registers. -/
def Strand.file (x : Strand) : Strand :=
  { s := x.s, a := x.a, v := x.v, p := x.p, flags := x.flags, tvec := x.tvec, rvec := x.rvec, tba := x.tba, tfm := x.tfm
    tcause := x.tcause, tinfo := x.tinfo, lscale := x.lscale, srseed := x.srseed, yreq := x.yreq, pdl := x.pdl
    stkbase := x.stkbase, stklim := x.stklim, stkspill := x.stkspill, stkmark := x.stkmark, img := x.img
    handler := x.handler, loops := x.loops, lix := x.lix }

theorem Strand.file_get (x : Strand) (d : Dest) : x.file.get d = x.get d := by
  match d with
  | .s 0 | .s (_ + 1) | .a _ | .v _ | .p 0 | .p (_ + 1) | .push _ _ | .tile _ => rfl

theorem Strand.get_of_file {x y : Strand} (h : y.file = x.file) (d : Dest) : y.get d = x.get d := by
  rw [← y.file_get, h, x.file_get]

theorem Strand.of_file {α : Type} {x y : Strand} (h : y.file = x.file) (p : Strand → α)
    (hp : ∀ z, p z.file = p z := by intros; rfl) : p y = p x := by
  rw [← hp, h, hp]

theorem SpecialsKept.of_file (h : t.me.file = s.me.file) : SpecialsKept s t := by
  simp only [Strand.file, Strand.mk.injEq] at h
  simp [SpecialsKept, h]

theorem SpecialsKept.trans (h : SpecialsKept s t) (k : SpecialsKept t u) : SpecialsKept s u := by
  unfold SpecialsKept at *
  grind

/-! ### States whose strands keep their files -/

/-- The issue, memory, the write tokens, what cores hold beside their queues and caches, and the files of strands stand as they
did. -/
structure Stands (s t : State) : Prop where
  issue : t.issue = s.issue
  mem : t.mem = s.mem
  tokens : t.tokens = s.tokens
  cores : ∀ c, (s.core c).SameFile (t.core c)
  strands : ∀ k, (t.strand k).file = (s.strand k).file

theorem Stands.refl (s : State) : Stands s s := ⟨rfl, rfl, rfl, fun _ => .refl _, fun _ => rfl⟩

theorem Stands.trans (h : Stands s t) (k : Stands t u) : Stands s u :=
  ⟨k.issue.trans h.issue, k.mem.trans h.mem, k.tokens.trans h.tokens, fun c => (h.cores c).trans (k.cores c),
    fun j => (k.strands j).trans (h.strands j)⟩

theorem Stands.foldl {α : Type} (f : State → α → State) (h : ∀ s a, Stands s (f s a)) (l : List α) (s : State) :
    Stands s (l.foldl f s) := by
  induction l generalizing s with
  | nil => exact .refl s
  | cons a l ih => exact (h s a).trans (ih _)

theorem Stands.me (h : Stands s t) : t.me.file = s.me.file := by
  unfold State.me
  rw [h.issue]
  exact h.strands _

theorem State.onStrand_stands (s : State) (k : Nat) (f : Strand → Strand) (hf : ∀ x, (f x).file = x.file) :
    Stands s (s.onStrand k f) := by
  refine ⟨rfl, rfl, rfl, fun _ => .refl _, fun j => ?_⟩
  by_cases hj : j = k
  · rw [hj, State.onStrand_strand]; exact hf _
  · rw [State.onStrand_strand_other _ _ _ _ hj]

theorem State.onMe_stands (s : State) (f : Strand → Strand) (hf : ∀ x, (f x).file = x.file) : Stands s (s.onMe f) :=
  s.onStrand_stands _ f hf

theorem State.onCore_stands (s : State) (c : Nat) (f : Core → Core) (hf : ∀ x : Core, x.SameFile (f x)) :
    Stands s (s.onCore c f) := by
  refine ⟨rfl, rfl, rfl, fun j => ?_, fun _ => rfl⟩
  by_cases hj : j = c
  · rw [hj, State.onCore_core]; exact hf _
  · rw [State.onCore_core_other _ _ _ _ hj]; exact .refl _

theorem State.onRope_stands (s : State) (r : Nat) (f : Rope → Rope) : Stands s (s.onRope r f) :=
  ⟨rfl, rfl, rfl, fun _ => .refl _, fun _ => rfl⟩

theorem State.onSlot_stands (s : State) (h : Nat) (f : Slot → Slot) : Stands s (s.onSlot h f) :=
  ⟨rfl, rfl, rfl, fun _ => .refl _, fun _ => rfl⟩

theorem Stands.plain (h : Stands o u) (ho : o.issue.Plain) : u.issue.Plain := by
  rw [h.issue]
  exact ho

/-- A commit after an act that left these stand leaves them too, but for the flags that every commit raises. -/
theorem Stands.still (h : Stands o u) (ho : o.issue.Plain) : Still o u.commit [] := by
  have hc := State.commit_onlyResult u (h.issue ▸ ho)
  obtain ⟨m, hflags, hmask⟩ := hc.flags
  obtain ⟨htokens, hcores⟩ := hc.cores
  refine ⟨fun e he => (hc.regs e he).trans (Strand.get_of_file h.me e), fun a ha => ?_, ⟨m, ?_, hmask⟩,
    htokens.trans h.tokens, fun c => ?_⟩
  · rw [hc.memory a ha, State.byte, h.mem, State.byte]
  · rw [hflags, h.issue, Strand.of_file h.me Strand.flags]
  · obtain ⟨ht, hl, hs, hr⟩ := hcores c
    obtain ⟨ht', hl', hs', hr'⟩ := h.cores c
    exact ⟨ht.trans ht', hl.trans hl', hs.trans hs', hr.trans hr'⟩

/-- Where the act has left the other units alone too, it has delivered nothing. -/
theorem Stands.onlyResult (h : Stands o u) (hk : OthersKept o u) (ho : o.issue.Plain) : OnlyResult o u.commit [] 0 := by
  have hs := h.still ho
  have hc := State.commit_onlyResult u (h.issue ▸ ho)
  obtain ⟨hother, hropes, hslots, hqueues, hgroups, hfull⟩ := hk
  obtain ⟨hother', hropes', hslots', hqueues', hgroups', hfull'⟩ := hc.others
  rw [h.issue] at hother'
  refine ⟨hs.regs, hs.memory, (SpecialsKept.of_file h.me).trans hc.specials, ?_, hs.flags, hs.cores,
    fun k hk => (hother' k hk).trans (hother k hk), hropes'.trans hropes, hslots'.trans hslots, hqueues'.trans hqueues,
    hgroups'.trans hgroups, hfull'.trans hfull⟩
  exact ⟨hc.loops.1.trans (Strand.of_file h.me Strand.loops), hc.loops.2.trans (Strand.of_file h.me Strand.lix)⟩

theorem State.onMe_othersKept (s : State) (f : Strand → Strand) : OthersKept s (s.onMe f) :=
  ⟨fun _ hk => State.onMe_strand_other _ _ _ hk, rfl, rfl, rfl, rfl, rfl⟩

theorem OthersKept.refl (s : State) : OthersKept s s := ⟨fun _ _ => rfl, rfl, rfl, rfl, rfl, rfl⟩

theorem OthersKept.trans (h : OthersKept s t) (hi : t.issue = s.issue) (k : OthersKept t u) : OthersKept s u := by
  obtain ⟨hother, hropes, hslots, hqueues, hgroups, hfull⟩ := h
  obtain ⟨kother, kropes, kslots, kqueues, kgroups, kfull⟩ := k
  rw [hi] at kother
  exact ⟨fun j hj => (kother j hj).trans (hother j hj), kropes.trans hropes, kslots.trans hslots, kqueues.trans hqueues,
    kgroups.trans hgroups, kfull.trans hfull⟩

/-! ### Leaving a stream (R29, R50, R239) -/

theorem State.abandonMopr_stands (s : State) (k : Nat) : Stands s (s.abandonMopr k) := by
  refine Stands.foldl _ (fun s p => ?_) _ s
  unfold State.abandonAt
  dsimp only
  split
  · exact .refl s
  · exact (s.onRope_stands _ _).trans (State.onCore_stands _ _ _ fun _ => ⟨rfl, rfl, rfl, rfl⟩)

theorem State.parkIfLeft_cases (s : State) (r c : Nat) : ∃ y, s.parkIfLeft r c = s ∨ s.parkIfLeft r c = s.onRope r y := by
  unfold State.parkIfLeft
  dsimp only
  split
  · exact ⟨id, .inl rfl⟩
  split
  · exact ⟨_, .inr rfl⟩
  split
  · exact ⟨_, .inr rfl⟩
  · exact ⟨id, .inl rfl⟩

theorem State.parkIfLeft_stands (s : State) (r c : Nat) : Stands s (s.parkIfLeft r c) := by
  obtain ⟨y, h | h⟩ := s.parkIfLeft_cases r c <;> rw [h]
  · exact .refl s
  · exact s.onRope_stands _ _

theorem State.leaveStream_stands (s : State) (k : Nat) : Stands s (s.leaveStream k) := by
  unfold State.leaveStream
  dsimp only
  split
  · refine (Stands.trans ?_ (State.abandonMopr_stands _ k)).trans (State.parkIfLeft_stands _ _ _)
    refine (s.onStrand_stands k _ ?_).trans (State.onStrand_stands _ k _ ?_) <;> exact fun _ => rfl
  · refine s.onStrand_stands k _ ?_
    exact fun _ => rfl

theorem State.abandonMopr_strands (s : State) (k : Nat) : (s.abandonMopr k).strands = s.strands := by
  refine State.foldl_strands _ (fun s p => ?_) _ s
  unfold State.abandonAt
  dsimp only
  split <;> rfl

@[simp] theorem State.abandonMopr_strand (s : State) (k j : Nat) : (s.abandonMopr k).strand j = s.strand j := by
  rw [State.strand, s.abandonMopr_strands, State.strand]

@[simp] theorem State.parkIfLeft_strand (s : State) (r c j : Nat) : (s.parkIfLeft r c).strand j = s.strand j := by
  obtain ⟨y, h | h⟩ := s.parkIfLeft_cases r c <;> rw [h]
  rfl

/-- A strand that leaves its stream runs by itself where it was attached, and has left it in any other stage. -/
theorem State.leaveStream_stage (s : State) (k : Nat) : ((s.leaveStream k).strand k).wasAttached = false ∧
    ((s.leaveStream k).strand k).st =
      (if (s.strand k).onStream = true ∧ (s.strand k).st = .attached then .detached else (s.strand k).st) ∧
    ((s.leaveStream k).strand k).inflight = (s.strand k).inflight := by
  unfold State.leaveStream
  dsimp only
  split
  case isTrue h => simp [h]
  case isFalse h => simp [h]

/-! ### The course of a strand -/

/-- The strand with nothing but its place on its stream and what puts off its next bundle. -/
def Strand.course (x : Strand) : Strand :=
  { st := x.st, ready := x.ready, wasAttached := x.wasAttached, outcome := x.outcome, freezing := x.freezing
    reloadWait := x.reloadWait }

theorem Strand.of_course {α : Type} {x y : Strand} (h : y.course = x.course) (p : Strand → α)
    (hp : ∀ z, p z.course = p z := by intros; rfl) : p y = p x := by
  rw [← hp, h, hp]

theorem State.commit_course (ho : o.issue.Plain) : o.commit.me.course = o.me.course := by
  obtain ⟨_, _, _, _, hme, -⟩ := o.commit_strand ho
  rw [hme]
  rfl

theorem Strand.Reopened.course {x y : Strand} (h : x.Reopened y) : y.course = x.course := by
  obtain ⟨_, _, _, _, _, _, _, _, rfl⟩ := h
  rfl

theorem State.opened_course (s : State) (i : Instr) : (s.opened i).me.course = s.me.course :=
  (s.openBundle_opened [i]).me.course

theorem State.opened_strand (s : State) (i : Instr) : (s.opened i).issue.strand = s.issue.strand := by
  rw [State.opened, State.openBundle_issue]

theorem State.opened_rope (s : State) (i : Instr) (r : Nat) : (s.opened i).rope r = s.rope r := by
  unfold State.opened State.rope
  rw [(s.openBundle_opened [i]).ropes]

/-- A ready instruction whose act leaves the issue as it was runs, and its bundle commits. -/
theorem State.ready.runs (h : s.ready i) {value : State → Option Hurdle} {act : State → State} {p : State → State → Prop}
    (hexec : exec i s = runSlot i value act s) (hm : i.moreSources s = []) (hv : i.valueHurdle s = value s)
    (hu : (act (s.opened i)).issue = (s.opened i).issue)
    (hp : (s.opened i).issue.Plain → p (s.opened i) (act (s.opened i)).commit) : Runs s i p := by
  have ho := s.opened_plain i h.2.1
  exact ⟨_, h.run hexec hm hv, State.commit_committed (hu ▸ ho), hp ho⟩

/-! ### Pauses (R187, R191) -/

theorem runs_nop (h : s.ready .nop) :
    Runs s .nop (fun o t => OnlyResult o t [] 0 ∧ t.me.st = o.me.st ∧ t.me.ready = o.me.ready) := by
  have hexec : exec .nop s = execNop s := rfl
  rw [execNop] at hexec
  refine h.runs hexec rfl rfl rfl fun ho => ⟨State.commit_onlyResult _ ho, ?_, ?_⟩
  · exact Strand.of_course (State.commit_course ho) Strand.st
  · exact Strand.of_course (State.commit_course ho) Strand.ready

theorem runs_hold (f : CI) (h : s.ready (.hold f)) :
    Runs s (.hold f) (fun o t => OnlyResult o t [] 0 ∧ t.me.ready = s.cycle + f.imm + 1) := by
  have hexec : exec (.hold f) s = execHold f s := rfl
  rw [execHold] at hexec
  refine h.runs hexec rfl rfl rfl fun ho => ⟨Stands.onlyResult ?_ (State.onMe_othersKept _ _) ho, ?_⟩
  · refine State.onMe_stands _ _ ?_
    exact fun _ => rfl
  · refine (Strand.of_course (State.commit_course ?_) Strand.ready).trans ?_
    · exact ho
    · rw [State.onMe_me]
      show (s.openBundle [_]).cycle + f.imm + 1 = _
      rw [(s.openBundle_opened _).cycle]

theorem State.outcome_stands (s : State) (o : StreamOutcome) : Stands s (s.outcome o) := by
  refine State.onMe_stands _ _ fun x => ?_
  split <;> rfl

theorem State.outcome_course (s : State) (o : StreamOutcome) :
    (s.outcome o).me.course = { s.me with outcome := if s.me.onStream then some o else s.me.outcome }.course := by
  rw [State.outcome, State.onMe_me]
  split <;> rfl

theorem runs_ifence (h : s.ready .ifence) :
    Runs s .ifence (fun o t => OnlyResult o t [] 0 ∧
      t.me.reloadWait = (s.rope (ropeOf s.issue.strand)).pendingReloads) := by
  have hexec : exec .ifence s = execIfence s := rfl
  rw [execIfence] at hexec
  refine h.runs hexec rfl rfl rfl fun ho => ⟨Stands.onlyResult ?_ ?_ ho, ?_⟩
  · refine Stands.trans (State.onMe_stands _ _ ?_) (State.outcome_stands _ _)
    exact fun _ => rfl
  · exact (State.onMe_othersKept _ _).trans rfl (State.onMe_othersKept _ _)
  · refine (Strand.of_course (State.commit_course ?_) Strand.reloadWait).trans ?_
    · exact ho
    · refine (Strand.of_course (State.outcome_course _ _) Strand.reloadWait).trans ?_
      rw [State.onMe_me, s.opened_strand, s.opened_rope]

/-! ### Stopping (R46, R188, R189) -/

/-- What YPOINT does: a strand on its stream records its outcome, another stops where its YREQ says so. -/
def State.pointYield (s : State) : State :=
  if s.me.onStream then s.outcome (.ypoint s.issue.pre.yreq)
  else if s.issue.pre.yreq then s.stopStrand s.issue.strand else s

theorem State.stopStrand_stands (s : State) (k : Nat) : Stands s (s.stopStrand k) := by
  refine s.onStrand_stands k _ ?_
  exact fun _ => rfl

theorem State.stopStrand_othersKept (s : State) : OthersKept s (s.stopStrand s.issue.strand) := s.onMe_othersKept _

theorem State.stopStrand_me (s : State) :
    (s.stopStrand s.issue.strand).me = { s.me with freezing := true, expect := [], outcome := none, frozenCyc := s.cycIn 1 } :=
  s.onMe_me _

theorem State.pointYield_keeps (s : State) : Stands s s.pointYield ∧ OthersKept s s.pointYield := by
  unfold State.pointYield
  split
  · exact ⟨s.outcome_stands _, s.onMe_othersKept _⟩
  split
  · exact ⟨s.stopStrand_stands _, s.stopStrand_othersKept⟩
  · exact ⟨.refl s, .refl s⟩

theorem State.pointYield_attached (h : s.me.st = .attached) :
    s.pointYield.me.course = { s.me with outcome := some (.ypoint s.issue.pre.yreq) }.course := by
  have hon : s.me.onStream = true := by simp [Strand.onStream, h]
  rw [State.pointYield, if_pos hon, State.outcome_course, if_pos hon]

theorem State.pointYield_detached (h : s.me.st = .detached) :
    s.pointYield.me.st = .detached ∧ s.pointYield.me.freezing = (s.issue.pre.yreq || s.me.freezing) := by
  have hon : ¬ s.me.onStream = true := by simp [Strand.onStream, h]
  rw [State.pointYield, if_neg hon]
  split
  case isTrue hy => simp [State.stopStrand_me, h, hy]
  case isFalse hy => simp [h, hy]

theorem runs_ypoint (h : s.ready .ypoint) :
    Runs s .ypoint (fun o t => OnlyResult o t [] 0 ∧
      (s.me.st = .attached → t.me.outcome = some (.ypoint s.issue.pre.yreq) ∧ t.me.st = .attached) ∧
      (s.me.st = .detached → t.me.st = .detached ∧ t.me.freezing = (s.issue.pre.yreq || s.me.freezing))) := by
  have hexec : exec .ypoint s = runSlot .ypoint free State.pointYield s := rfl
  obtain ⟨hstands, hothers⟩ := (s.opened .ypoint).pointYield_keeps
  refine h.runs hexec rfl rfl hstands.issue fun ho => ?_
  have hc := State.commit_course (hstands.plain ho)
  have hst : (s.opened .ypoint).me.st = s.me.st := Strand.of_course (s.opened_course _) Strand.st
  refine ⟨hstands.onlyResult hothers ho, fun ha => ?_, fun hd => ?_⟩
  · have hp := hc.trans (State.pointYield_attached (hst.trans ha))
    rw [s.opened_pre] at hp
    exact ⟨Strand.of_course hp Strand.outcome, (Strand.of_course hp Strand.st).trans (hst.trans ha)⟩
  · obtain ⟨hstage, hfreeze⟩ := State.pointYield_detached (hst.trans hd)
    rw [s.opened_pre, Strand.of_course (s.opened_course _) Strand.freezing] at hfreeze
    exact ⟨(Strand.of_course hc Strand.st).trans hstage, (Strand.of_course hc Strand.freezing).trans hfreeze⟩

/-- What YIELD does: the strand stops, and its gang is noted for the scheduler. -/
def State.stopForYield (s : State) : State :=
  match (s.stopStrand s.issue.strand).slotOfRope (ropeOf s.issue.strand) with
  | none => s.stopStrand s.issue.strand
  | some h => (s.stopStrand s.issue.strand).onSlot h (fun x =>
    { x with gang := x.gang.map (fun g => { g with byYield := true }) })

theorem State.stopForYield_stands (s : State) : Stands s s.stopForYield := by
  unfold State.stopForYield
  split
  · exact s.stopStrand_stands _
  · exact (s.stopStrand_stands _).trans (State.onSlot_stands _ _ _)

theorem State.stopForYield_me (s : State) : s.stopForYield.me = (s.stopStrand s.issue.strand).me := by
  unfold State.stopForYield
  split <;> rfl

theorem State.stopForYield_slot {h : Nat} {g : Gang} (hr : (s.rope (ropeOf s.issue.strand)).res = .busy h)
    (hg : (s.slot h).gang = some g) : (s.stopForYield.slot h).gang = some { g with byYield := true } := by
  have hslot : (s.stopStrand s.issue.strand).slotOfRope (ropeOf s.issue.strand) = some h := by
    rw [State.slotOfRope, State.stopStrand, State.onStrand_rope, hr]
  rw [State.stopForYield, hslot]
  simp [State.stopStrand, hg]

theorem runs_yield (h : s.ready .yield) :
    Runs s .yield (fun o t => Still o t [] ∧ t.me.st = o.me.st ∧ t.me.freezing = true ∧
      ∀ h g, (s.rope (ropeOf s.issue.strand)).res = .busy h → (o.slot h).gang = some g →
        (t.slot h).gang = some { g with byYield := true }) := by
  have hexec : exec .yield s = runSlot .yield free State.stopForYield s := rfl
  have hstands := (s.opened .yield).stopForYield_stands
  refine h.runs hexec rfl rfl hstands.issue fun ho => ?_
  have hc := State.commit_course (hstands.plain ho)
  rw [State.stopForYield_me, State.stopStrand_me] at hc
  refine ⟨hstands.still ho, Strand.of_course hc Strand.st, Strand.of_course hc Strand.freezing, fun n g hr hg => ?_⟩
  obtain ⟨-, -, hslots, -⟩ := State.commit_rest _ (hstands.plain ho)
  rw [State.slot, hslots]
  rw [← s.opened_rope .yield, ← s.opened_strand .yield] at hr
  exact State.stopForYield_slot hr hg

/-! ### Leaving and waiting for the stream (R185, R186) -/

/-- What DETACH does: a strand on its stream leaves it. -/
def State.detach (s : State) : State := if s.me.onStream then s.leaveStream s.issue.strand else s

theorem State.detach_stands (s : State) : Stands s s.detach := by
  unfold State.detach
  split
  · exact s.leaveStream_stands _
  · exact .refl s

theorem State.detach_onStream (s : State) : s.detach.me.onStream = false := by
  unfold State.me
  rw [s.detach_stands.issue]
  by_cases hon : s.me.onStream = true
  · rw [State.detach, if_pos hon]
    obtain ⟨hwas, hst, -⟩ := s.leaveStream_stage s.issue.strand
    have hna : ((s.leaveStream s.issue.strand).strand s.issue.strand).st ≠ .attached := by
      rw [hst]
      split
      · decide
      case isFalse hn => exact fun ha => hn ⟨hon, ha⟩
    simp [Strand.onStream, hwas, hna]
  · rw [State.detach, if_neg hon]
    exact Bool.eq_false_of_not_eq_true hon

theorem State.detach_attached (h : s.me.st = .attached) : s.detach.me.st = .detached := by
  have hon : s.me.onStream = true := by simp [Strand.onStream, h]
  unfold State.me
  rw [s.detach_stands.issue, State.detach, if_pos hon]
  obtain ⟨-, hst, -⟩ := s.leaveStream_stage s.issue.strand
  rw [hst]
  exact if_pos ⟨hon, h⟩

theorem State.detach_detached (h : s.me.st = .detached) : s.detach = s := by
  rw [State.detach, if_neg]
  simp [Strand.onStream, h]

theorem runs_detach (h : s.ready .detach) :
    Runs s .detach (fun o t => Still o t [] ∧ t.me.onStream = false ∧
      (s.me.st = .attached → t.me.st = .detached) ∧ (s.me.st = .detached → t.me.st = .detached ∧ t.ropes = o.ropes)) := by
  have hexec : exec .detach s = runSlot .detach free State.detach s := rfl
  have hstands := (s.opened .detach).detach_stands
  refine h.runs hexec rfl rfl hstands.issue fun ho => ?_
  have hu := hstands.plain ho
  have hc := State.commit_course hu
  have hst : (s.opened .detach).me.st = s.me.st := Strand.of_course (s.opened_course _) Strand.st
  refine ⟨hstands.still ho, (Strand.of_course hc Strand.onStream).trans (State.detach_onStream _), fun ha => ?_, fun hd => ?_⟩
  · exact (Strand.of_course hc Strand.st).trans (State.detach_attached (hst.trans ha))
  · obtain ⟨-, hropes, -⟩ := State.commit_rest _ hu
    rw [hropes, Strand.of_course hc Strand.st, State.detach_detached (hst.trans hd)]
    exact ⟨hst.trans hd, rfl⟩

theorem State.arrive_stands (s : State) (k mask : Nat) (j : Join) : Stands s (s.arrive k mask j) := by
  unfold State.arrive
  refine (s.onRope_stands _ _).trans (State.onStrand_stands _ k _ ?_)
  exact fun _ => rfl

theorem State.arrive_stage (s : State) (k mask : Nat) (j : Join) : ((s.arrive k mask j).strand k).st = .joining := by
  unfold State.arrive
  rw [State.onStrand_strand]

theorem State.arrive_join (s : State) (k mask : Nat) (j : Join) :
    ∃ q, ((s.arrive k mask j).stream (ropeOf k) (ctxOf k)).join = some q ∧
      posOf k ∈ q.arrived ∧ posOf k ∈ q.members := by
  simp only [State.arrive, State.stream, State.onStrand_rope, State.setStream, State.onRope_rope, Table.get_set_same,
    Option.some.injEq, exists_eq_left']
  split <;> simp

theorem runs_join (f : CJ) (h : s.ready (.join f)) :
    Runs s (.join f) (fun o t => Still o t [] ∧ t.me.st = .joining ∧
      ∃ j, (t.stream (ropeOf s.issue.strand) (ctxOf s.issue.strand)).join = some j ∧
        posOf s.issue.strand ∈ j.arrived ∧ posOf s.issue.strand ∈ j.members) := by
  have hexec : exec (.join f) s = execJoin f s := rfl
  rw [execJoin] at hexec
  have hstands := (s.opened (.join f)).arrive_stands (s.opened (.join f)).issue.strand f.mask (s.opened (.join f)).joinKey
  refine h.runs hexec rfl rfl hstands.issue fun ho => ?_
  have hu := hstands.plain ho
  refine ⟨hstands.still ho, ?_, ?_⟩
  · refine (Strand.of_course (State.commit_course hu) Strand.st).trans ?_
    unfold State.me
    rw [hstands.issue]
    exact State.arrive_stage _ _ _ _
  · obtain ⟨-, hropes, -⟩ := State.commit_rest _ hu
    rw [State.stream, State.rope, hropes, ← s.opened_strand (.join f)]
    exact State.arrive_join _ _ _ _

/-! ### The end of a strand (R190) -/

theorem State.onIssue_endResume (s : State) (f : Issue → Issue) (k : Nat) :
    (s.onIssue f).endResume k = (s.endResume k).onIssue f := by
  unfold State.endResume
  dsimp only
  rw [State.onIssue_strand]
  by_cases h : (s.strand k).resumed = true
  · rw [if_pos h, if_pos h]; rfl
  · rw [if_neg h, if_neg h]

/-- The issue of a bundle with an EXIT. -/
def Issue.exiting (i : Issue) : Issue := { i with exits := true }

/-- A bundle with an EXIT commits as it would without it, and then its strand ends. -/
theorem State.commit_exiting (ho : o.issue.Plain) :
    (o.onIssue Issue.exiting).commit = (o.commit.onIssue Issue.exiting).endStrand o.issue.strand := by
  have hspecial : o.issue.special = none := ho.2.1
  have hi : (o.endResume o.issue.strand).issue = o.issue := by
    obtain ⟨_, _, _, h⟩ := o.endResume_resumed o.issue.strand
    rw [h]
  have hs : ((o.endResume o.issue.strand).onIssue Issue.exiting).writeSpecial =
      (o.endResume o.issue.strand).onIssue Issue.exiting := by
    rw [← hi] at hspecial
    simp [State.writeSpecial, Issue.exiting, hspecial]
  have hk : (o.onIssue Issue.exiting).issue.strand = o.issue.strand := rfl
  have hc : (o.endResume o.issue.strand).issue.strand = o.issue.strand := by rw [hi]
  rw [o.commit_eq ho, State.commit, hk, State.onIssue_endResume, hs]
  simp only [State.onIssue_issue, State.onMe_issue, Issue.exiting, if_true, hc]
  rfl

theorem State.endStrand_stands (s : State) (k : Nat) : Stands s (s.endStrand k) := by
  unfold State.endStrand
  refine Stands.trans ?_ (State.parkIfLeft_stands _ _ _)
  refine Stands.trans ?_ (State.onCore_stands _ _ _ fun _ => ⟨rfl, rfl, rfl, rfl⟩)
  refine (s.leaveStream_stands k).trans (State.onStrand_stands _ k _ ?_)
  exact fun _ => rfl

theorem State.endStrand_strand (s : State) (k : Nat) : ((s.endStrand k).strand k).st = .exited ∧
    ((s.endStrand k).strand k).wasAttached = false ∧
    ((s.endStrand k).strand k).inflight = (s.strand k).inflight.filter InFlight.toPort := by
  obtain ⟨hwas, -, hin⟩ := s.leaveStream_stage k
  simp [State.endStrand, hwas, hin]

theorem Still.stands (h : Still o u []) (k : Stands u t) : Still o t [] := by
  obtain ⟨m, hflags, hmask⟩ := h.flags
  obtain ⟨htokens, hcores⟩ := h.cores
  refine ⟨fun e he => (Strand.get_of_file k.me e).trans (h.regs e he), fun a ha => ?_,
    ⟨m, (Strand.of_file k.me Strand.flags).trans hflags, hmask⟩, k.tokens.trans htokens,
    fun c => Core.SameFile.trans (hcores c) (k.cores c)⟩
  rw [State.byte, k.mem, ← State.byte, h.memory a ha]

theorem Still.exiting (h : Still o u []) : Still o (u.onIssue Issue.exiting) [] :=
  ⟨h.regs, h.memory, h.flags, h.cores⟩

theorem runs_exit (h : s.ready .exit) :
    Runs s .exit (fun o t => Still o t [] ∧ t.me.st = .exited ∧ (∀ e ∈ t.me.inflight, e.toPort = true) ∧
      t.me.onStream = false) := by
  have hexec : exec .exit s = runSlot .exit exitHurdle (State.onIssue · Issue.exiting) s := rfl
  have ho := s.opened_plain .exit h.2.1
  have hrun := h.run hexec rfl rfl
  rw [State.commit_exiting ho] at hrun
  have hstands := ((s.opened .exit).commit.onIssue Issue.exiting).endStrand_stands (s.opened .exit).issue.strand
  refine ⟨_, hrun, ?_, ((Stands.refl (s.opened .exit)).still ho).exiting.stands hstands, ?_⟩
  · rw [hstands.issue]
    exact State.commit_committed ho
  · obtain ⟨hst, hwas, hin⟩ := ((s.opened .exit).commit.onIssue Issue.exiting).endStrand_strand (s.opened .exit).issue.strand
    have hme : (((s.opened .exit).commit.onIssue Issue.exiting).endStrand (s.opened .exit).issue.strand).issue.strand =
        (s.opened .exit).issue.strand := by
      rw [hstands.issue]
      show (s.opened .exit).commit.issue.strand = _
      rw [State.commit_issue _ ho]
    unfold State.me
    rw [hme]
    refine ⟨hst, fun e he => ?_, by simp [Strand.onStream, hst]⟩
    rw [hin] at he
    exact (List.mem_filter.mp he).2

end
end Sys2Proof.Machine

open Sys2Proof Sys2Proof.Machine in
/-- Settles O27: each instruction acts in the opened state, where it leaves the files of strands, memory and cores as they stand,
and the commit that follows changes no register and no more than the flags. -/
theorem strandControls : Obligations.StrandControls :=
  ⟨fun _ h => runs_nop h, fun f _ h => runs_hold f h, fun _ h => runs_detach h, fun _ h => runs_ifence h,
    fun _ h => runs_ypoint h, fun _ h => runs_yield h, fun _ h => runs_exit h, fun f _ h => runs_join f h⟩
